-- ==== Sys2Proof/Word.lean ====
section
/-!
DEFINITION. The plain value types of the part: bytes, 16-bit words, desk identifiers and audio samples.
-/
namespace Sys2Proof

/-- One byte of a frame, message or record. -/
abbrev Byte := BitVec 8

/-- A 16-bit word: a frame number, a parameter index or a parameter value (R175: 16-bit signed). -/
abbrev Word := BitVec 16

/-- A console's 48-bit identity (00_scope, "Desk identifier"). -/
abbrev DeskId := BitVec 48

/-- An audio sample as the exact integer it stands for (00_scope, "Numbers and ranges"; R69: intermediate results are exact). -/
abbrev Sample := Int

end Sys2Proof
end

