-- ==== Sys2Proof/Syntax.lean ====
section
/-!
DEFINITION. The commands of the part: one constructor of `Instr` per row of spec/opcode_table.json, with the names and operand shapes they use.
-/
namespace Sys2Proof

/-- Link ports A to D (R1). -/
inductive LinkPort | a | b | c | d
deriving DecidableEq, Repr

/-- Desk slots 1 to 3 (R22). -/
inductive Desk | d1 | d2 | d3
deriving DecidableEq, Repr

/-- Attachment slots 0 to 3: slot 0 is the panel (R23). -/
inductive SlotId | panel | desk (d : Desk)
deriving DecidableEq, Repr

/-- The two talk buses (R105). -/
inductive Bus | tb1 | tb2
deriving DecidableEq, Repr

/-- The 16 return samples and the talk sample of one frame period (R12, R22). -/
structure Audio where
  returns : List Sample
  talk : Sample
deriving DecidableEq, Repr

/-- Seventeen zero samples (R1, R22). -/
def Audio.silent : Audio := { returns := List.replicate 16 0, talk := 0 }

/-- The content of a stage-bound frame, less its frame check (R17). -/
structure StageFrame where
  number : Word
  ident : DeskId
  roleCode : BitVec 2
  audio : Audio
  lane : List Byte
deriving DecidableEq, Repr

/-- What the light monitor's measurement gave: a power in thousandths of a dBm, or a failed self-check (R2, log 11). -/
inductive LightReading | power (milliDbm : Int) | checkFailed
deriving DecidableEq, Repr

/-- A smoothed level: a crosspoint, a mix's master or an output's level (R91, R133). Sources, mixes and outputs count from 0 here. -/
inductive LevelRef
  | crosspoint (source : Fin 66) (mix : Fin 24)
  | master (mix : Fin 24)
  | output (o : Fin 32)
deriving DecidableEq, Repr

/-- One constructor per row of the table of operations and events. Inputs, mixes, outputs, cards and channels are counted from 0
(`Fin`); the fields of a request are the bytes and words of its body (R188), so every body a sender can send in the layout of its
kind can be written. `slot` is the requester and `tag` the requester tag. -/
inductive Instr
  /-- FULL_RESET (R194) with the unit-number straps. -/
  | fullReset (straps : BitVec 4)
  /-- LIGHT_MEASUREMENT (R4) on a port. -/
  | lightMeasurement (p : LinkPort) (reading : LightReading)
  /-- VALID_FRAME (R9); `windowFirst` decides the tie of R11 between a fourth mismatch and a completing window. -/
  | validFrame (p : LinkPort) (f : StageFrame) (windowFirst : Bool)
  /-- CRC_FAILED_FRAME (R8). -/
  | crcFailedFrame (p : LinkPort)
  /-- MISSING_FRAME (R7); `windowFirst` as for VALID_FRAME. -/
  | missingFrame (p : LinkPort) (windowFirst : Bool)
  /-- ERROR_WINDOW_COMPLETE (R10). -/
  | errorWindowComplete (p : LinkPort)
  /-- FADE_OUT_END (R33). -/
  | fadeOutEnd (d : Desk)
  /-- FADE_IN_END (R35). -/
  | fadeInEnd (d : Desk)
  /-- GRACE_EXPIRY (R41). -/
  | graceExpiry (d : Desk)
  /-- FRAME_PERIOD (R74) with the 64 converter-lane samples and the stage talk input's sample (R45). -/
  | framePeriod (lanes : List Sample) (stageTalk : Sample)
  /-- TRIM_RAMP_STEP (R75) of one cell. -/
  | trimRampStep (input : Fin 64) (column : Fin 4)
  /-- LEVEL_RAMP_STEP (R91) of one level. -/
  | levelRampStep (level : LevelRef)
  /-- DUCK_RELEASE_STEP (R95) of one mix. -/
  | duckReleaseStep (mix : Fin 24)
  /-- CROSSFADE_END (R127) of one output. -/
  | crossfadeEnd (o : Fin 32)
  /-- GAIN_CHANGE_MARKER (R55) on one input's converter lane. -/
  | gainChangeMarker (input : Fin 64)
  /-- SETTING_SLOT (R53). -/
  | settingSlot
  /-- SETTING_ANSWER (R54) naming a card position and a channel. -/
  | settingAnswer (card : Fin 8) (channel : Fin 8)
  /-- SETTING_NO_ANSWER (R54). -/
  | settingNoAnswer
  /-- MARKER_TIMEOUT (R58). -/
  | markerTimeout (input : Fin 64)
  /-- HOLD_END (R57). -/
  | holdEnd (input : Fin 64)
  /-- RETRY_TIMER_EXPIRY (R59). -/
  | retryTimerExpiry (input : Fin 64)
  /-- POLL_SLOT (R60). -/
  | pollSlot
  /-- POLL_ANSWER (R60) naming a card position, with its eight overcurrent indications. -/
  | pollAnswer (card : Fin 8) (overcurrent : BitVec 8)
  /-- POLL_UNANSWERED (R60). -/
  | pollUnanswered
  /-- REVERT_HOLD_EXPIRY (R131). -/
  | revertHoldExpiry (o : Fin 32)
  /-- TALK_TIMEOUT (R116). -/
  | talkTimeout (b : Bus)
  /-- METER_PERIOD_END (R143). -/
  | meterPeriodEnd
  /-- BATCH_EFFECT (R166). -/
  | batchEffect (slot : SlotId)
  /-- DIGEST_CADENCE (R183). -/
  | digestCadence
  /-- LOAD_END (R192); the memory answers only below the given offset, if one is given (R191). -/
  | loadEnd (silentFrom : Option Nat)
  /-- STARTUP_COMPLETE (R194). -/
  | startupComplete
  /-- STORE_RECORD_CHECKED (R196) with what was read back; none when the memory does not answer. -/
  | storeRecordChecked (readBack : Option (List Byte))
  /-- UNKNOWN_KIND (R171). -/
  | unknownKind (slot : SlotId) (tag kind : Byte)
  /-- GET (R177). -/
  | get (slot : SlotId) (tag : Byte) (first : Word) (count : Byte)
  /-- WRITE_DESIRED_SETTING (R50): a SET of an index 0–191. -/
  | writeDesiredSetting (slot : SlotId) (tag : Byte) (index value : Word) (echo : Byte)
  /-- WRITE_COLUMN_MODE (R77): a SET of an index 192–319. -/
  | writeColumnMode (slot : SlotId) (tag : Byte) (index value : Word) (echo : Byte)
  /-- WRITE_CROSSPOINT (R88): a SET of an index 1024–2607 or 2700–2723. -/
  | writeCrosspoint (slot : SlotId) (tag : Byte) (index value : Word) (echo : Byte)
  /-- WRITE_DUCK_CEILING (R89): a SET of an index 2730–2753. -/
  | writeDuckCeiling (slot : SlotId) (tag : Byte) (index value : Word) (echo : Byte)
  /-- WRITE_OUTPUT_SOURCE (R132): a SET of an index 2800–2831 or 2840–2871. -/
  | writeOutputSource (slot : SlotId) (tag : Byte) (index value : Word) (echo : Byte)
  /-- WRITE_OUTPUT_LEVEL (R133): a SET of an index 2880–2911. -/
  | writeOutputLevel (slot : SlotId) (tag : Byte) (index value : Word) (echo : Byte)
  /-- WRITE_OVERRIDE (R134): a SET of an index 2920–2951. -/
  | writeOverride (slot : SlotId) (tag : Byte) (index value : Word) (echo : Byte)
  /-- WRITE_TALK_CLASS (R120): a SET of an index 3000–3003. -/
  | writeTalkClass (slot : SlotId) (tag : Byte) (index value : Word) (echo : Byte)
  /-- WRITE_TALK_LIMIT (R118): a SET of index 3010. -/
  | writeTalkLimit (slot : SlotId) (tag : Byte) (index value : Word) (echo : Byte)
  /-- WRITE_GRACE_TIME (R180): a SET of index 3011. -/
  | writeGraceTime (slot : SlotId) (tag : Byte) (index value : Word) (echo : Byte)
  /-- WRITE_REVERT_HOLD_TIME (R131): a SET of index 3012. -/
  | writeRevertHoldTime (slot : SlotId) (tag : Byte) (index value : Word) (echo : Byte)
  /-- WRITE_OTHER_INDEX (R175): a SET of any other index. -/
  | writeOtherIndex (slot : SlotId) (tag : Byte) (index value : Word) (echo : Byte)
  /-- SET_WINDOW_MATRIX (R99). -/
  | setWindowMatrix (slot : SlotId) (tag firstSource lastSource firstMix lastMix echo : Byte) (values : List Word)
  /-- SET_WINDOW_RUN (R179). -/
  | setWindowRun (slot : SlotId) (tag : Byte) (first : Word) (echo : Byte) (values : List Word)
  /-- CLAIM (R156). -/
  | claim (slot : SlotId) (tag domain : Byte)
  /-- RELEASE (R157). -/
  | release (slot : SlotId) (tag domain : Byte)
  /-- FORCE_RELEASE (R158). -/
  | forceRelease (slot : SlotId) (tag domain : Byte)
  /-- CLEAR_TRESPASS (R159). -/
  | clearTrespass (slot : SlotId) (tag domain : Byte)
  /-- BATCH_OPEN (R163). -/
  | batchOpen (slot : SlotId) (tag : Byte)
  /-- BATCH_APPLY (R165). -/
  | batchApply (slot : SlotId) (tag : Byte)
  /-- BATCH_DROP (R167). -/
  | batchDrop (slot : SlotId) (tag : Byte)
  /-- TALK_PRESS (R112). -/
  | talkPress (slot : SlotId) (tag bus : Byte)
  /-- TALK_RELEASE (R114). -/
  | talkRelease (slot : SlotId) (tag bus : Byte)
  /-- REBASE (R78). -/
  | rebase (slot : SlotId) (tag first last column : Byte)
  /-- CLEAR_OVERS (R146). -/
  | clearOvers (slot : SlotId) (tag : Byte)
  /-- PATH_PREFER (R37). -/
  | pathPrefer (slot : SlotId) (tag port : Byte)
  /-- RECALL_SAFE (R102). -/
  | recallSafe (slot : SlotId) (tag : Byte)
  /-- DESCRIBE (R181). -/
  | describe (slot : SlotId) (tag : Byte)
  /-- STORE (R195) with its record type codes. -/
  | store (slot : SlotId) (tag : Byte) (codes : List Byte)
  /-- RESTART (R197). -/
  | restart (slot : SlotId) (tag : Byte)
  /-- METERS_ON (R149). -/
  | metersOn (slot : SlotId) (tag : Byte)
  /-- METERS_OFF (R149). -/
  | metersOff (slot : SlotId) (tag : Byte)
  /-- STATUS_READ (R185). -/
  | statusRead
  /-- REQUEST_WRITE (R185) with the message content the panel writes. -/
  | requestWrite (message : List Byte)
  /-- MESSAGE_READ (R185). -/
  | messageRead
  /-- UNKNOWN_TRANSACTION (R185) with its transaction code. -/
  | unknownTransaction (code : Byte)
  /-- POWER_LOSS (R196). -/
  | powerLoss
deriving DecidableEq, Repr

end Sys2Proof
end

