-- ==== Sys2Proof/Decode.lean ====
section
/-!
DEFINITION. Decoding a command from a table word: spec/opcode_table.json gives no row any bits, so no word spells a command.
-/
namespace Sys2Proof

/-- The command that a word of the table spells: none does. -/
def decodeTableWord (_nbits _w : Nat) : Option Instr := none

end Sys2Proof
end

