-- ==== Sys2Proof/Machine/State.lean ====
section
/-!
DEFINITION. The state of the part, as plain data: every record, list, counter, flag and output the spec names, with its value after a full reset.
-/
namespace Sys2Proof.Machine

/-- The spec gives the part no condition that stops it: failures are state (R4, R54, R196) or result codes (R181), so there is no fault. -/
inductive Fault : Type
deriving DecidableEq, Repr

/-- Why a command has no meaning here. -/
inductive Refusal
  /-- Raised by an arm of `exec` for a row not yet modelled; no arm raises it. Safe: the model stops. -/
  | notModelled (mnemonic : String)
deriving DecidableEq, Repr

/-! ## Families of like things -/

/-- One of each for link ports A to D. -/
structure PerPort (α : Type) where
  a : α
  b : α
  c : α
  d : α
deriving DecidableEq, Repr

/-- One of each for desk slots 1 to 3. -/
structure PerDesk (α : Type) where
  d1 : α
  d2 : α
  d3 : α
deriving DecidableEq, Repr

/-- One of each for slots 0 to 3. -/
structure PerSlot (α : Type) where
  panel : α
  desks : PerDesk α
deriving DecidableEq, Repr

/-- One of each for TB1 and TB2. -/
structure PerBus (α : Type) where
  tb1 : α
  tb2 : α
deriving DecidableEq, Repr

/-- One of each for compensation columns 0 to 3 (R71). -/
structure PerColumn (α : Type) where
  c0 : α
  c1 : α
  c2 : α
  c3 : α
deriving DecidableEq, Repr

/-- A running timer: the frames counted and the length it runs to. -/
structure Timer where
  count : Nat
  limit : Nat
deriving DecidableEq, Repr

/-! ## Link ports (R1) -/

/-- The four port states (R1). -/
inductive PortState | dark | seeking | locked | errored
deriving DecidableEq, Repr

/-- The roles of desk slots (R22). -/
inductive Role | front | monitor | general
deriving DecidableEq, Repr

/-- The port record (R1). -/
structure Port where
  state : PortState
  /-- 0–72, 254 "no light", 255 "monitor failed" (R2). -/
  lightCode : Nat
  /-- Frames since the last light measurement, up to 48 (R2). -/
  lightFrames : Nat
  lockRun : Nat
  /-- Number and identifier of the previous valid frame in SEEKING; read only while the lock run is above 0 (R5). -/
  seekNumber : Word
  seekIdent : DeskId
  identSeen : Option DeskId
  roleSeen : Option Role
  expected : Word
  missingRun : Nat
  mismatchRun : Nat
  windowPos : Nat
  windowCount : Nat
  lastWindowCount : Nat
  lossAge : Nat
  /-- The alignment buffer, in order of storing (R13). -/
  buffer : List StageFrame
  held : Audio
  /-- While the port delivers from its buffer: the last number it delivered (R14). -/
  bufLast : Option Word
  /-- The frame returned at a hitless switch and not yet taken by the slot (R32). -/
  captured : Option StageFrame
  /-- The rest of this frame period brings no delivery from the buffer, since the switch fell in it (R14, R32; log 15). -/
  skip : Bool
  /-- A frame event of this port has been taken in this frame period (log 13). -/
  frameSeen : Bool
deriving DecidableEq, Repr

/-- A port record after a full reset or RESTART (R1). -/
def Port.reset : Port :=
  { state := .dark, lightCode := 254, lightFrames := 0, lockRun := 0, seekNumber := 0, seekIdent := 0, identSeen := none,
    roleSeen := none, expected := 0, missingRun := 0, mismatchRun := 0, windowPos := 0, windowCount := 0,
    lastWindowCount := 0, lossAge := 0, buffer := [], held := Audio.silent, bufLast := none, captured := none,
    skip := false, frameSeen := false }

/-- The admission status of a desk-bound header (R15). -/
inductive Admission | notAdmitted | admitted | unitStarting
deriving DecidableEq, Repr

/-- A desk-bound frame as it is sent, less its frame check (R15 to R17). -/
structure DeskFrame where
  number : Word
  unit : BitVec 4
  slot : Nat
  admission : Admission
  ready : Bool
  inputs : List Sample
  talk1 : Sample
  talk2 : Sample
  lane : List Byte
deriving DecidableEq, Repr

/-- Before the first frame period nothing has been sent: all zero (log 31). -/
def DeskFrame.blank : DeskFrame :=
  { number := 0, unit := 0, slot := 0, admission := .unitStarting, ready := false, inputs := List.replicate 64 0,
    talk1 := 0, talk2 := 0, lane := List.replicate 8 0 }

/-! ## Attachment unit (R22) -/

/-- The states of a desk slot (R22). -/
inductive SlotState | vacant | active | silent
deriving DecidableEq, Repr

/-- The concealment states (R22). -/
inductive Conceal | none | fadingOut | silentGap | fadingIn
deriving DecidableEq, Repr

/-- A desk slot's record in the attachment table (R22). -/
structure Slot where
  state : SlotState
  ident : Option DeskId
  role : Option Role
  /-- Main first, then standby. -/
  bound : List LinkPort
  active : Option LinkPort
  conceal : Conceal
  step : Nat
  origin : Audio
  samples : Audio
  lastTaken : Option Word
  /-- Running only in SILENT (R38, R39). -/
  grace : Option Timer
  switchovers : Nat
  talkClass : Nat
  /-- The slot samples of this frame period have been produced (R30; log 13). -/
  produced : Bool
  /-- The slot has taken its delivery of this frame period (R30; logs 13 and 14). -/
  taken : Bool
deriving DecidableEq, Repr

/-- A desk slot after a full reset or RESTART (R22). -/
def Slot.reset : Slot :=
  { state := .vacant, ident := none, role := none, bound := [], active := none, conceal := .none, step := 0,
    origin := Audio.silent, samples := Audio.silent, lastTaken := none, grace := none, switchovers := 0, talkClass := 0,
    produced := false, taken := false }

/-! ## Answers and the control lane (R20, R21, R172, R181) -/

/-- The result codes of R181. -/
inductive Result
  | done | clamped | queued | granted | notOwner | ownerSilent | claimedByOther | notPermitted | noSuch | badValue | busy | full
  | tooLate | notAvailable | notReady | failed
deriving DecidableEq, Repr

/-- The data an answer carries (R181). -/
inductive AnswerData
  | none
  | values (vs : List Int)
  | counts (applied dropped : Nat)
  | description (unit slot : Nat) (name : List Byte)
deriving DecidableEq, Repr

/-- An answer (R181); `complete` is clear only for a BATCH-APPLY answer not yet completed (R165). -/
structure Answer where
  tag : Byte
  kind : Byte
  result : Result
  data : AnswerData
  complete : Bool
deriving DecidableEq, Repr

/-- The three kinds of message a transmitter sends (R21). -/
inductive MsgClass | answer | meter | digest
deriving DecidableEq, Repr

/-- A message in transmission: its kind, the content bytes still to send and whether its first frame is still to come (R21). -/
structure Sending where
  cls : MsgClass
  rest : List Byte
  first : Bool
deriving DecidableEq, Repr

/-- A desk slot's control-lane transmitter (R21). -/
structure Transmitter where
  sending : Option Sending
  /-- The kind the rotation tries first. -/
  next : MsgClass
  pendingMeter : Option (List Byte)
  pendingDigest : Option (List Byte)
deriving DecidableEq, Repr

/-- The control-lane state of a desk slot: receiver, transmitter, answer queue and requests-dropped flag (R20, R21, R172, R173). -/
structure Lane where
  /-- `none` when idle, else the content bytes of the partial message (R20). -/
  receiver : Option (List Byte)
  tx : Transmitter
  answers : List Answer
  dropped : Bool
deriving DecidableEq, Repr

/-- A lane after a full reset or RESTART (R20, R21, R172, R173). -/
def Lane.reset : Lane :=
  { receiver := none, tx := { sending := none, next := .answer, pendingMeter := none, pendingDigest := none },
    answers := [], dropped := false }

/-! ## Front end (R44, R48, R46) -/

/-- A card record (R44). -/
structure Card where
  present : Bool
  unanswered : Nat
deriving DecidableEq, Repr

/-- A card record after a full reset (R44). -/
def Card.reset : Card := { present := false, unanswered := 0 }

/-- A preamp setting: gain 0–60 dB, pad and phantom (R48). -/
structure Setting where
  gain : Int
  pad : Bool
  phantom : Bool
deriving DecidableEq, Repr

/-- Gain 0 dB, pad off, phantom off (R48, R63). -/
def Setting.rest : Setting := { gain := 0, pad := false, phantom := false }

/-- The link state of a channel (R48). -/
inductive Link | absent | ready | fault
deriving DecidableEq, Repr

/-- The operation of a channel (R48). -/
inductive Operation | idle | queued | muting | inFlight | settling
deriving DecidableEq, Repr

/-- A channel record (R48). A timer is `none` while it is stopped. -/
structure Channel where
  desired : Setting
  applied : Setting
  link : Link
  op : Operation
  sent : Option Setting
  holdOwed : Bool
  latch : Bool
  markerTimer : Option Nat
  holdTimer : Option Nat
  retryTimer : Option Nat
  gate : Nat
  gateOpen : Bool
  /-- The new effective gain is still to be handed over with the next gated sample (R63). -/
  handOver : Bool
deriving DecidableEq, Repr

/-- A channel record after a full reset (R48); gate target 0 is `gateOpen = false`. -/
def Channel.reset : Channel :=
  { desired := Setting.rest, applied := Setting.rest, link := .absent, op := .idle, sent := none, holdOwed := false,
    latch := false, markerTimer := none, holdTimer := none, retryTimer := none, gate := 0, gateOpen := false,
    handOver := false }

/-- The exchange on the card line that awaits its answer (R47). -/
inductive Exchange
  | none
  | setting (input : Fin 64) (carried : Setting)
  | poll (card : Fin 8) (rest : Bool)
deriving DecidableEq, Repr

/-- The card line (R46). -/
structure CardLine where
  slotNumber : Nat
  /-- Frames elapsed in the slot, 0–47. -/
  slotFrame : Nat
  /-- The slot's exchange has begun, or the slot was found idle. -/
  slotTaken : Bool
  exchange : Exchange
  /-- Poll slots begun since the last full reset or RESTART. -/
  pollsBegun : Nat
  /-- The report that every card position has been polled once has been made (R46). -/
  polled : Bool
deriving DecidableEq, Repr

/-- The card line after a full reset (R46). -/
def CardLine.reset : CardLine :=
  { slotNumber := 1, slotFrame := 0, slotTaken := false, exchange := .none, pollsBegun := 0, polled := false }

/-! ## Compensation stage (R71) -/

/-- A cell of the compensation table (R71). -/
structure Cell where
  on : Bool
  eref : Option Int
  target : Int
  current : Int
  count : Nat
  limited : Bool
  /-- The current trim from which a command of its own has taken the step of the frame to be formed (log 3). -/
  undo : Option Int := none
deriving DecidableEq, Repr

/-- A cell after a full reset (R71). -/
def Cell.reset : Cell := { on := false, eref := none, target := 0, current := 0, count := 0, limited := false }

/-- An input's stage gain and its four cells (R71). -/
structure InputComp where
  stageGain : Int
  cells : PerColumn Cell
deriving DecidableEq, Repr

/-- An input's compensation after a full reset (R71). -/
def InputComp.reset : InputComp :=
  { stageGain := 0, cells := { c0 := Cell.reset, c1 := Cell.reset, c2 := Cell.reset, c3 := Cell.reset } }

/-! ## Mix engine (R86, R87, R101) -/

/-- A smoothed level: a crosspoint, a master or an output level (R86, R87, R123). A target of `none` is off. -/
structure Level where
  on : Bool
  target : Option Int
  current : Int
  count : Nat
  /-- The current level from which a command of its own has taken the step of the frame to be formed (log 3). -/
  undo : Option Int := none
deriving DecidableEq, Repr

/-- A level after a full reset (R86, R87, R123). -/
def Level.reset : Level := { on := false, target := none, current := -180, count := 0 }

/-- A mix: its 66 crosspoints and its mix record (R86, R87). -/
structure Mix where
  xps : List Level
  master : Level
  ceiling : Int
  duckTarget : Int
  duck : Int
  release : Nat
  clip : Bool
  /-- The duck reduction from which a command of its own has taken the release step of the frame to be formed (log 3). -/
  duckUndo : Option Int := none
deriving DecidableEq, Repr

/-- A mix after a full reset (R86, R87). -/
def Mix.reset : Mix :=
  { xps := List.replicate 66 Level.reset, master := Level.reset, ceiling := -40, duckTarget := 0, duck := 0, release := 0,
    clip := false }

/-- One mix of the safe copy (R101). -/
structure SafeMix where
  xps : List (Option Int)
  master : Option Int
  ceiling : Int
deriving DecidableEq, Repr

/-- One mix of the default safe copy (R101). -/
def SafeMix.default : SafeMix := { xps := List.replicate 66 none, master := some 0, ceiling := -40 }

/-! ## Talkback (R105) -/

/-- A bus record with the slots' timeout notices for it (R105). -/
structure BusRec where
  talker : Option SlotId
  waiting : List SlotId
  /-- The talk timer with its grant limit in frames (0: no limit); `none` while there is no talker. -/
  timer : Option Timer
  notices : PerSlot Bool
deriving DecidableEq, Repr

/-- A bus record after a full reset or RESTART (R105). -/
def BusRec.reset : BusRec :=
  { talker := none, waiting := [], timer := none,
    notices := { panel := false, desks := { d1 := false, d2 := false, d3 := false } } }

/-! ## Output stage (R123) -/

/-- The overrides (R123). -/
inductive Override | normal | mute | tone
deriving DecidableEq, Repr

/-- The selection states (R126). -/
inductive Selection | primary | toFallback | fallback | toPrimary | noneAvailable
deriving DecidableEq, Repr

/-- An output record (R123). -/
structure Output where
  primary : Nat
  fallback : Option Nat
  override : Override
  level : Level
  selection : Selection
  primaryShare : Nat
  fallbackShare : Nat
  hold : Option Timer
  gate : Nat
  /-- The content is TONE, not PROGRAM. -/
  toneContent : Bool
  phase : Nat
  clip : Bool
deriving DecidableEq, Repr

/-- An output record after a full reset or RESTART (R123). -/
def Output.reset : Output :=
  { primary := 0, fallback := none, override := .normal, level := Level.reset, selection := .noneAvailable,
    primaryShare := 0, fallbackShare := 0, hold := none, gate := 0, toneContent := false, phase := 0, clip := false }

/-! ## Meter unit (R139 to R149) -/

/-- The meter unit's counts, peaks, view clips and output status (R139 to R142, R149). -/
structure Meter where
  periodCount : Word
  /-- Frames formed in the period in progress, 0–480 (R139). -/
  frames : Nat
  /-- Period ends since the last digest cadence, 0–9 (R183). -/
  tenth : Nat
  viewPeaks : List (PerColumn Nat)
  mixPeaks : List Nat
  outPeaks : List Nat
  returnPeaks : PerDesk (List Nat)
  viewClips : List (PerColumn Bool)
  /-- Per output: NONE_AVAILABLE in the most recent frame (R141). -/
  outNone : List Bool
  panelOn : Bool
deriving DecidableEq, Repr

/-- The meter unit after a full reset or RESTART (R139 to R142, R149). -/
def Meter.reset : Meter :=
  { periodCount := 0, frames := 0, tenth := 0,
    viewPeaks := List.replicate 64 { c0 := 0, c1 := 0, c2 := 0, c3 := 0 },
    mixPeaks := List.replicate 24 0, outPeaks := List.replicate 32 0,
    returnPeaks := { d1 := List.replicate 16 0, d2 := List.replicate 16 0, d3 := List.replicate 16 0 },
    viewClips := List.replicate 64 { c0 := false, c1 := false, c2 := false, c3 := false },
    outNone := List.replicate 32 true, panelOn := false }

/-- What has been taken at the meter boundary in progress (R143, R166, R183). -/
structure Boundary where
  /-- The last frame of a meter period has been formed and the next has not. -/
  opened : Bool
  /-- The period end of this boundary has been taken. -/
  ended : Bool
  /-- A digest cadence falls at this boundary and has not been taken. -/
  digestDue : Bool
  /-- Slots that have no batch left to take effect at this boundary: their own has, or it was not SEALED when another's did. -/
  effects : PerSlot Bool
deriving DecidableEq, Repr

/-- No boundary in progress. -/
def Boundary.closed : Boundary :=
  { opened := false, ended := false, digestDue := false,
    effects := { panel := false, desks := { d1 := false, d2 := false, d3 := false } } }

/-- An over set: mix m in bit m − 1, output n in bit n − 1 (R145, R188). -/
structure OverSet where
  mixes : BitVec 24
  outs : BitVec 32
deriving DecidableEq, Repr

/-- The empty over set (R145). -/
def OverSet.empty : OverSet := { mixes := 0, outs := 0 }

/-! ## Claim unit and batches (R151, R162) -/

/-- A domain record (R151). -/
structure Domain where
  owner : Option SlotId
  trespass : Bool
  trespasser : Option SlotId
  count : Nat
deriving DecidableEq, Repr

/-- A domain record after a full reset or RESTART (R151). -/
def Domain.reset : Domain := { owner := none, trespass := false, trespasser := none, count := 0 }

/-- A staged write: parameter index, value as it will be written, domain (R162). -/
structure Staged where
  index : Nat
  value : Int
  domain : Option Nat
deriving DecidableEq, Repr

/-- The batch states (R162). -/
inductive BatchState | none | opened | sealed
deriving DecidableEq, Repr

/-- A batch record (R162). Its apply answer is the uncompleted answer in the slot's answer queue (the panel queue for slot 0). -/
structure Batch where
  state : BatchState
  staged : List Staged
  dropped : Nat
deriving DecidableEq, Repr

/-- A batch record after a full reset or RESTART (R162). -/
def Batch.reset : Batch := { state := .none, staged := [], dropped := 0 }

/-! ## Panel port (R186) -/

/-- A message in the panel queue (R186): reports and digests are held as their bodies. -/
inductive PanelMsg
  | answer (a : Answer)
  | meter (body : List Byte)
  | digest (body : List Byte)
deriving DecidableEq, Repr

/-! ## Configuration unit (R189 to R196) -/

/-- The five record types (R189). -/
inductive RecordType | unit | startChannels | safeMix | outputPatch | stageSettings
deriving DecidableEq, Repr

/-- One of each for the five record types. -/
structure PerType (α : Type) where
  unit : α
  startChannels : α
  safeMix : α
  outputPatch : α
  stageSettings : α
deriving DecidableEq, Repr

/-- What a load found for a type (R191). -/
inductive Verdict | found | damaged | missing
deriving DecidableEq, Repr

/-- A record as it is to be written: its type, its offset and all its bytes (R189, R196). -/
structure StoredRecord where
  type : RecordType
  offset : Nat
  bytes : List Byte
deriving DecidableEq, Repr

/-- A store in progress: the tag of its request, the record being written, those after it and the types written so far (R196). -/
structure StoreJob where
  tag : Byte
  current : StoredRecord
  rest : List StoredRecord
  written : List RecordType
deriving DecidableEq, Repr

/-- The configuration unit (11.0, R191 to R196). -/
structure ConfigUnit where
  status : BitVec 16
  directory : Option (PerType Verdict)
  /-- The stored image: the body of each type's record (R192). -/
  image : PerType (List Byte)
  unitName : List Byte
  loading : Bool
  /-- The load under way, or the last one, follows a full reset, so START_CHANNELS is handed over (R192, R197). -/
  fresh : Bool
  store : Option StoreJob
deriving DecidableEq, Repr

/-- The default body of SAFE_MIX: every crosspoint off (−181), masters 0, ceilings −40 (R190, R192). -/
def defaultSafeBody : List Byte :=
  (List.replicate 1584 [0xFF#8, 0x4B#8]).flatten ++ List.replicate 48 0#8 ++ (List.replicate 24 [0xFF#8, 0xD8#8]).flatten

/-- The default body of OUTPUT_PATCH: mix n for outputs 1–24, none for 25–32; no fallback, level 0, NORMAL (R190, R192). -/
def defaultPatchBody : List Byte :=
  ((List.range 24).map fun n => [0#8, BitVec.ofNat 8 (n + 1), 0#8, 0#8, 0#8, 0#8, 0#8]).flatten ++ List.replicate 56 0#8

/-- The bodies used for a damaged or missing type (R192); STAGE_SETTINGS is class 3, 60 s, 60 × 50 ms, 20 × 100 ms. -/
def defaultImage : PerType (List Byte) :=
  { unit := [], startChannels := List.replicate 192 0#8, safeMix := defaultSafeBody, outputPatch := defaultPatchBody,
    stageSettings := [3#8, 60#8, 60#8, 0#8, 20#8] }

/-- The configuration unit after a full reset or RESTART: the walk begins (R191, R193; image and directory: log 31). -/
def ConfigUnit.reset : ConfigUnit :=
  { status := 0, directory := none, image := defaultImage, unitName := [], loading := true, fresh := true, store := none }

/-! ## The whole part -/

/-- The state of the part. INVENTORY.md names the rule of each field. -/
structure State where
  powered : Bool
  unitNumber : BitVec 4
  ports : PerPort Port
  frameCounter : Word
  sent : PerPort DeskFrame
  slots : PerDesk Slot
  panelClass : Nat
  waitList : List LinkPort
  /-- In milliseconds (R39). -/
  graceTime : Nat
  lanes : PerDesk Lane
  cards : List Card
  channels : List Channel
  cardQueue : List (Fin 64)
  sendList : List (Fin 64)
  line : CardLine
  comp : List InputComp
  mixes : List Mix
  safe : List SafeMix
  buses : PerBus BusRec
  /-- In seconds; 0 is no limit (R115). -/
  talkLimit : Nat
  outputs : List Output
  /-- In milliseconds (R123). -/
  revertTime : Nat
  /-- Start-up is complete (R123, R194). -/
  started : Bool
  stageOut : List Sample
  meter : Meter
  boundary : Boundary
  overs : PerSlot OverSet
  domains : List Domain
  batches : PerSlot Batch
  panelQueue : List PanelMsg
  panelReserved : Nat
  panelReturn : List Byte
  config : ConfigUnit
  memory : List Host.Cell
  free : Nat
  pending : List Instr
deriving DecidableEq, Repr

/-- The same in each of the four. -/
def PerPort.all {α : Type} (x : α) : PerPort α := { a := x, b := x, c := x, d := x }

/-- The same in each of the three. -/
def PerDesk.all {α : Type} (x : α) : PerDesk α := { d1 := x, d2 := x, d3 := x }

/-- The same in each of the four. -/
def PerSlot.all {α : Type} (x : α) : PerSlot α := { panel := x, desks := PerDesk.all x }

/-- The part right after a full reset: every block at its full-reset values (R194). The straps read 0 (log 6) and the
configuration memory is blank (log 7). -/
def State.reset : State :=
  { powered := true, unitNumber := 0, ports := PerPort.all Port.reset, frameCounter := 0,
    sent := PerPort.all DeskFrame.blank, slots := PerDesk.all Slot.reset, panelClass := 3, waitList := [],
    graceTime := 3000, lanes := PerDesk.all Lane.reset, cards := List.replicate 8 Card.reset,
    channels := List.replicate 64 Channel.reset, cardQueue := [], sendList := [], line := CardLine.reset,
    comp := List.replicate 64 InputComp.reset, mixes := List.replicate 24 Mix.reset,
    safe := List.replicate 24 SafeMix.default, buses := { tb1 := BusRec.reset, tb2 := BusRec.reset }, talkLimit := 60,
    outputs := List.replicate 32 Output.reset, revertTime := 2000, started := false, stageOut := List.replicate 32 0,
    meter := Meter.reset, boundary := Boundary.closed, overs := PerSlot.all OverSet.empty,
    domains := List.replicate 16 Domain.reset, batches := PerSlot.all Batch.reset, panelQueue := [], panelReserved := 0,
    panelReturn := [], config := ConfigUnit.reset, memory := [], free := 0, pending := [] }

end Sys2Proof.Machine
end

