-- ==== Sys2Proof/Machine/Ops.lean ====
section
/-!
DEFINITION. Named operations over registers, records, lists, bytes, checks and the configuration memory, shared by every block.
-/
namespace Sys2Proof

/-! ## Names and numbers -/

/-- Ports A to D, in order. -/
def LinkPort.all : List LinkPort := [.a, .b, .c, .d]

/-- Desk slots 1 to 3, in order. -/
def Desk.all : List Desk := [.d1, .d2, .d3]

/-- Slots 0 to 3, in order. -/
def SlotId.all : List SlotId := [.panel, .desk .d1, .desk .d2, .desk .d3]

/-- TB1 and TB2. -/
def Bus.all : List Bus := [.tb1, .tb2]

/-- A desk slot's number (00_scope, Numbering). -/
def Desk.number : Desk → Nat
  | .d1 => 1
  | .d2 => 2
  | .d3 => 3

/-- A slot's number (00_scope, Numbering). -/
def SlotId.number : SlotId → Nat
  | .panel => 0
  | .desk d => d.number

/-- The slot with a number, if there is one. -/
def SlotId.ofNumber : Nat → Option SlotId
  | 0 => some .panel
  | 1 => some (.desk .d1)
  | 2 => some (.desk .d2)
  | 3 => some (.desk .d3)
  | _ => none

/-- The compensation column of a desk slot: the one with its number (R77). -/
def Desk.column : Desk → Fin 4
  | .d1 => 1
  | .d2 => 2
  | .d3 => 3

/-- Port codes 0 to 3 for A to D (R188). -/
def LinkPort.code : LinkPort → Nat
  | .a => 0
  | .b => 1
  | .c => 2
  | .d => 3

/-- The port with a code, if there is one (R188). -/
def LinkPort.ofCode : Nat → Option LinkPort
  | 0 => some .a
  | 1 => some .b
  | 2 => some .c
  | 3 => some .d
  | _ => none

/-- Apply a function to each of the 17 samples. -/
def Audio.map (f : Sample → Sample) (x : Audio) : Audio := { returns := x.returns.map f, talk := f x.talk }

end Sys2Proof

namespace Sys2Proof.Machine

/-! ## Reading and writing one of several -/

/-- The record of one port. -/
def PerPort.get {α : Type} (t : PerPort α) : LinkPort → α
  | .a => t.a
  | .b => t.b
  | .c => t.c
  | .d => t.d

/-- Replace the record of one port. -/
def PerPort.set {α : Type} (t : PerPort α) (p : LinkPort) (x : α) : PerPort α :=
  match p with
  | .a => { t with a := x }
  | .b => { t with b := x }
  | .c => { t with c := x }
  | .d => { t with d := x }

/-- Apply a function to each port's record. -/
def PerPort.map {α β : Type} (f : LinkPort → α → β) (t : PerPort α) : PerPort β :=
  { a := f .a t.a, b := f .b t.b, c := f .c t.c, d := f .d t.d }

/-- The record of one desk slot. -/
def PerDesk.get {α : Type} (t : PerDesk α) : Desk → α
  | .d1 => t.d1
  | .d2 => t.d2
  | .d3 => t.d3

/-- Replace the record of one desk slot. -/
def PerDesk.set {α : Type} (t : PerDesk α) (d : Desk) (x : α) : PerDesk α :=
  match d with
  | .d1 => { t with d1 := x }
  | .d2 => { t with d2 := x }
  | .d3 => { t with d3 := x }

/-- Apply a function to each desk slot's record. -/
def PerDesk.map {α β : Type} (f : Desk → α → β) (t : PerDesk α) : PerDesk β :=
  { d1 := f .d1 t.d1, d2 := f .d2 t.d2, d3 := f .d3 t.d3 }

/-- The record of one slot. -/
def PerSlot.get {α : Type} (t : PerSlot α) : SlotId → α
  | .panel => t.panel
  | .desk d => t.desks.get d

/-- Replace the record of one slot. -/
def PerSlot.set {α : Type} (t : PerSlot α) (sl : SlotId) (x : α) : PerSlot α :=
  match sl with
  | .panel => { t with panel := x }
  | .desk d => { t with desks := t.desks.set d x }

/-- The record of one bus. -/
def PerBus.get {α : Type} (t : PerBus α) : Bus → α
  | .tb1 => t.tb1
  | .tb2 => t.tb2

/-- Replace the record of one bus. -/
def PerBus.set {α : Type} (t : PerBus α) (b : Bus) (x : α) : PerBus α :=
  match b with
  | .tb1 => { t with tb1 := x }
  | .tb2 => { t with tb2 := x }

/-- The entry of one column. -/
def PerColumn.get {α : Type} (t : PerColumn α) (c : Fin 4) : α :=
  match c with
  | 0 => t.c0
  | 1 => t.c1
  | 2 => t.c2
  | 3 => t.c3

/-- Replace the entry of one column. -/
def PerColumn.set {α : Type} (t : PerColumn α) (c : Fin 4) (x : α) : PerColumn α :=
  match c with
  | 0 => { t with c0 := x }
  | 1 => { t with c1 := x }
  | 2 => { t with c2 := x }
  | 3 => { t with c3 := x }

/-- Apply a function to each column's entry. -/
def PerColumn.map {α β : Type} (f : Fin 4 → α → β) (t : PerColumn α) : PerColumn β :=
  { c0 := f 0 t.c0, c1 := f 1 t.c1, c2 := f 2 t.c2, c3 := f 3 t.c3 }

/-- The entry of one record type. -/
def PerType.get {α : Type} (t : PerType α) : RecordType → α
  | .unit => t.unit
  | .startChannels => t.startChannels
  | .safeMix => t.safeMix
  | .outputPatch => t.outputPatch
  | .stageSettings => t.stageSettings

/-- Replace the entry of one record type. -/
def PerType.set {α : Type} (t : PerType α) (r : RecordType) (x : α) : PerType α :=
  match r with
  | .unit => { t with unit := x }
  | .startChannels => { t with startChannels := x }
  | .safeMix => { t with safeMix := x }
  | .outputPatch => { t with outputPatch := x }
  | .stageSettings => { t with stageSettings := x }

/-- Apply a function to each record type's entry. -/
def PerType.map {α β : Type} (f : RecordType → α → β) (t : PerType α) : PerType β :=
  { unit := f .unit t.unit, startChannels := f .startChannels t.startChannels, safeMix := f .safeMix t.safeMix,
    outputPatch := f .outputPatch t.outputPatch, stageSettings := f .stageSettings t.stageSettings }

/-- The five record types by type code order 1 to 5 (R189). -/
def RecordType.all : List RecordType := [.unit, .startChannels, .safeMix, .outputPatch, .stageSettings]

/-! ## Lists of fixed length -/

/-- Entry `i` of a list, counted from 0, or `x` past its end. -/
def nth {α : Type} (l : List α) (i : Nat) (x : α) : α := l.getD i x

/-- The list with its entry `i` changed. -/
def modNth {α : Type} (l : List α) (i : Nat) (f : α → α) : List α := l.modify i f

/-- Apply a function to every entry together with its place, counted from `i`. -/
def mapFrom {α β : Type} (f : Nat → α → β) : Nat → List α → List β
  | _, [] => []
  | i, x :: xs => f i x :: mapFrom f (i + 1) xs

/-- Sum of a list of integers. -/
def sumInts : List Int → Int
  | [] => 0
  | x :: xs => x + sumInts xs

/-- Take each of a list of things in turn. -/
def State.foldOver {α : Type} (f : α → State → State) : List α → State → State
  | [], s => s
  | x :: xs, s => State.foldOver f xs (f x s)

/-! ## Records of the state -/

/-- A port's record. -/
def State.port (s : State) (p : LinkPort) : Port := s.ports.get p

/-- Change a port's record. -/
def State.modPort (s : State) (p : LinkPort) (f : Port → Port) : State := { s with ports := s.ports.set p (f (s.ports.get p)) }

/-- A desk slot's record. -/
def State.slot (s : State) (d : Desk) : Slot := s.slots.get d

/-- Change a desk slot's record. -/
def State.modSlot (s : State) (d : Desk) (f : Slot → Slot) : State := { s with slots := s.slots.set d (f (s.slots.get d)) }

/-- A desk slot's control lane. -/
def State.lane (s : State) (d : Desk) : Lane := s.lanes.get d

/-- Change a desk slot's control lane. -/
def State.modLane (s : State) (d : Desk) (f : Lane → Lane) : State := { s with lanes := s.lanes.set d (f (s.lanes.get d)) }

/-- An input's channel record. -/
def State.channel (s : State) (i : Nat) : Channel := nth s.channels i Channel.reset

/-- Change an input's channel record. -/
def State.modChannel (s : State) (i : Nat) (f : Channel → Channel) : State := { s with channels := modNth s.channels i f }

/-- A card record. -/
def State.card (s : State) (c : Nat) : Card := nth s.cards c Card.reset

/-- Change a card record. -/
def State.modCard (s : State) (c : Nat) (f : Card → Card) : State := { s with cards := modNth s.cards c f }

/-- An input's compensation. -/
def State.inputComp (s : State) (i : Nat) : InputComp := nth s.comp i InputComp.reset

/-- Change an input's compensation. -/
def State.modComp (s : State) (i : Nat) (f : InputComp → InputComp) : State := { s with comp := modNth s.comp i f }

/-- A cell of the compensation table. -/
def State.cell (s : State) (i : Nat) (c : Fin 4) : Cell := (s.inputComp i).cells.get c

/-- Change a cell of the compensation table, given the input's stage gain. -/
def State.modCell (s : State) (i : Nat) (c : Fin 4) (f : Int → Cell → Cell) : State :=
  s.modComp i fun ic => { ic with cells := ic.cells.set c (f ic.stageGain (ic.cells.get c)) }

/-- A mix. -/
def State.mix (s : State) (m : Nat) : Mix := nth s.mixes m Mix.reset

/-- Change a mix. -/
def State.modMix (s : State) (m : Nat) (f : Mix → Mix) : State := { s with mixes := modNth s.mixes m f }

/-- A crosspoint of a mix. -/
def Mix.xp (m : Mix) (src : Nat) : Level := nth m.xps src Level.reset

/-- Change a crosspoint of a mix. -/
def Mix.modXp (m : Mix) (src : Nat) (f : Level → Level) : Mix := { m with xps := modNth m.xps src f }

/-- An output record. -/
def State.output (s : State) (o : Nat) : Output := nth s.outputs o Output.reset

/-- Change an output record. -/
def State.modOutput (s : State) (o : Nat) (f : Output → Output) : State := { s with outputs := modNth s.outputs o f }

/-- A talk bus. -/
def State.bus (s : State) (b : Bus) : BusRec := s.buses.get b

/-- Change a talk bus. -/
def State.modBus (s : State) (b : Bus) (f : BusRec → BusRec) : State := { s with buses := s.buses.set b (f (s.buses.get b)) }

/-- A domain record. -/
def State.domain (s : State) (n : Nat) : Domain := nth s.domains n Domain.reset

/-- Change a domain record. -/
def State.modDomain (s : State) (n : Nat) (f : Domain → Domain) : State := { s with domains := modNth s.domains n f }

/-- A slot's batch record. -/
def State.batch (s : State) (sl : SlotId) : Batch := s.batches.get sl

/-- Replace a slot's batch record. -/
def State.setBatch (s : State) (sl : SlotId) (b : Batch) : State := { s with batches := s.batches.set sl b }

/-- The state of a slot: the panel is always ACTIVE (R23). -/
def State.slotState (s : State) : SlotId → SlotState
  | .panel => .active
  | .desk d => (s.slot d).state

/-- The talk class of a slot (R43, R23). -/
def State.talkClassOf (s : State) : SlotId → Nat
  | .panel => s.panelClass
  | .desk d => (s.slot d).talkClass

/-! ## The unpowered part -/

/-- Every meaning but FULL_RESET's: a part without power does nothing (R196; log 5), a powered one takes the event. -/
def live (f : State → State) (s : State) : Host.Outcome State Fault Refusal := if s.powered then .next (f s) else .next s

/-! ## Bytes, words and byte order -/

/-- A non-negative number as two bytes, most significant first (R188). -/
def be16 (n : Nat) : List Byte := [BitVec.ofNat 8 (n / 256), BitVec.ofNat 8 n]

/-- A number as four bytes, most significant first (R188). -/
def be32 (n : Nat) : List Byte := be16 (n / 65536) ++ be16 n

/-- A signed value as two bytes, two's complement, most significant first (R175, R188). -/
def be16i (v : Int) : List Byte := be16 (BitVec.ofInt 16 v).toNat

/-- A sample as three bytes, two's complement, most significant first (R17). -/
def be24i (v : Sample) : List Byte :=
  let n := (BitVec.ofInt 24 v).toNat
  [BitVec.ofNat 8 (n / 65536), BitVec.ofNat 8 (n / 256), BitVec.ofNat 8 n]

/-- A desk identifier as six bytes, most significant first (R17). -/
def be48 (x : DeskId) : List Byte := be16 (x.toNat / 4294967296) ++ be32 x.toNat

/-- Two bytes, most significant first, as a word. -/
def wordOf (hi lo : Byte) : Word := hi ++ lo

/-- A bit as a byte. -/
def flagByte (b : Bool) : Byte := if b then 1 else 0

/-- Pairs of bytes as words, most significant byte first; a last byte without a partner is left out. -/
def wordsOf : List Byte → List Word
  | hi :: lo :: rest => wordOf hi lo :: wordsOf rest
  | _ => []

/-- Three bytes as a sample (R17). -/
def sampleOf (x y z : Byte) : Sample := (x ++ y ++ z : BitVec 24).toInt

/-- Runs of three bytes as samples (R17). -/
def samplesOf : List Byte → List Sample
  | x :: y :: z :: rest => sampleOf x y z :: samplesOf rest
  | _ => []

/-! ## Cyclic redundancy checks (R18, R19) -/

/-- One bit of a check, most significant bit first. -/
def crcBit {w : Nat} (poly crc : BitVec w) (bit : Bool) : BitVec w :=
  if crc.msb != bit then (crc <<< 1) ^^^ poly else crc <<< 1

/-- One byte of a check, most significant bit first. -/
def crcByte {w : Nat} (poly crc : BitVec w) (x : Byte) : BitVec w :=
  crcBit poly (crcBit poly (crcBit poly (crcBit poly (crcBit poly (crcBit poly (crcBit poly (crcBit poly crc
    (x.getLsbD 7)) (x.getLsbD 6)) (x.getLsbD 5)) (x.getLsbD 4)) (x.getLsbD 3)) (x.getLsbD 2)) (x.getLsbD 1)) (x.getLsbD 0)

/-- A check run over bytes in the order sent. -/
def crcRun {w : Nat} (poly : BitVec w) : BitVec w → List Byte → BitVec w
  | crc, [] => crc
  | crc, x :: xs => crcRun poly (crcByte poly crc x) xs

/-- The frame check: generator 04C11DB7h, initial FFFFFFFFh, final inversion (R18). -/
def frameCheck (bytes : List Byte) : BitVec 32 := ~~~ crcRun 0x04C11DB7#32 0xFFFFFFFF#32 bytes

/-- The message check: generator 1021h, initial FFFFh, no inversion (R19). -/
def messageCheck (bytes : List Byte) : BitVec 16 := crcRun 0x1021#16 0xFFFF#16 bytes

/-! ## Configuration memory (R189; log 7) -/

/-- What a byte of the configuration memory that nothing has written reads as: FFh, an erased memory (DESIGN CHOICE, log 7). -/
def blankByte : Byte := 0xFF#8

/-- The byte at an offset. -/
def memRead (m : List Host.Cell) (a : Nat) : Byte :=
  match m with
  | [] => blankByte
  | (k, v) :: rest => if k = a then v else memRead rest a

/-- The offsets of the configuration memory are 0 to 65,535 (R189). -/
def memorySize : Nat := 65536

/-- Put a byte in the list, keeping the canonical form: offsets rising, no entry that reads as an unlisted one. -/
def memPut (m : List Host.Cell) (a : Nat) (v : Byte) : List Host.Cell :=
  match m with
  | [] => if v = blankByte then [] else [(a, v)]
  | (k, w) :: rest =>
    if a < k then (if v = blankByte then (k, w) :: rest else (a, v) :: (k, w) :: rest)
    else if a = k then (if v = blankByte then rest else (a, v) :: rest)
    else (k, w) :: memPut rest a v

/-- Write a byte; there is none at an offset the memory does not have. -/
def memWrite (m : List Host.Cell) (a : Nat) (v : Byte) : List Host.Cell := if a < memorySize then memPut m a v else m

/-- The `n` bytes from an offset on. -/
def memReadBlock (m : List Host.Cell) (a : Nat) : Nat → List Byte
  | 0 => []
  | n + 1 => memRead m a :: memReadBlock m (a + 1) n

/-- Write bytes from an offset on. -/
def memWriteBlock (m : List Host.Cell) (a : Nat) : List Byte → List Host.Cell
  | [] => m
  | v :: vs => memWriteBlock (memWrite m a v) (a + 1) vs

/-- Entries from an offset on: strictly rising, below 65,536, none blank. -/
def Memory.wfFrom (low : Nat) : List Host.Cell → Bool
  | [] => true
  | (k, v) :: rest => decide (low ≤ k) && decide (k < memorySize) && decide (v ≠ blankByte) && Memory.wfFrom (k + 1) rest

/-- The canonical form of the configuration memory. -/
def Memory.wf (m : List Host.Cell) : Bool := Memory.wfFrom 0 m

/-! ## Samples -/

/-- The lowest and the highest 24-bit sample; the highest is full scale (00_scope). -/
def sampleMin : Int := -8388608
def fullScale : Int := 8388607

end Sys2Proof.Machine
end

