-- ==== Sys2Proof/Machine/Gain.lean ====
section
/-!
DEFINITION. The level arithmetic of the part, saturation and the meter scale (04_gain_arithmetic_and_compensation.md, 4.1 and 4.3).
-/
namespace Sys2Proof.Machine

/-- The step multipliers M[0] to M[11] (R66). -/
def stepMultipliers : List Int := [65536, 69419, 73533, 77890, 82505, 87394, 92572, 98057, 103868, 110022, 116541, 123447]

/-- A level of `g` hdB applied to an integer sample: the quotient (x × M[r] + 2^(s−1)) / 2^s rounded toward minus infinity,
with k = ⌊g / 12⌋, r = g − 12k and s = 16 − k (R66, R67). Every intermediate is exact (R69). -/
def applyLevel (g : Int) (x : Sample) : Sample :=
  let s := (16 - g / 12).toNat
  (x * nth stepMultipliers (g % 12).toNat 0 + 2 ^ (s - 1)) / 2 ^ s

/-- Saturation to 24 bits (R70). -/
def saturate (x : Sample) : Sample := if x > fullScale then fullScale else if x < sampleMin then sampleMin else x

/-- Saturation changes the value: the clip indication of the stream is set (R70). -/
def clips (x : Sample) : Bool := decide (saturate x ≠ x)

/-- A sample times a share, truncated toward zero (R33, R45, R134). -/
def share (x : Sample) (n whole : Nat) : Sample := (x * (n : Int)).tdiv (whole : Int)

/-- Threshold T`n` of the meter scale: full scale with a level of −`n` hdB (R83). -/
def threshold (n : Nat) : Int := applyLevel (-(n : Int)) fullScale

/-- The least of the levels `n`, `n + 1`, … of the next `k` whose threshold the peak reaches, or 180. -/
def levelCodeFrom (p : Nat) (n : Nat) : Nat → Nat
  | 0 => 180
  | k + 1 => if threshold n ≤ (p : Int) then n else levelCodeFrom p (n + 1) k

/-- The level code of a peak: the smallest `n` from 0 to 180 with p ≥ T`n`, and 180 when there is none (R84). -/
def levelCode (p : Nat) : Nat := levelCodeFrom p 0 181

/-- The magnitude of a sample (R140). -/
def magnitude (x : Sample) : Nat := x.natAbs

/-- Move an integer 1 toward another. -/
def toward (target current : Int) : Int := if current < target then current + 1 else if target < current then current - 1 else current

end Sys2Proof.Machine
end

