-- ==== Sys2Proof/Machine/Flags.lean ====
section
/-!
DEFINITION. Every flag and status that is computed from other state: LOW_LIGHT, ready and attention, the channel summary, ALL_GOOD, the configuration flags.
-/
namespace Sys2Proof.Machine

/-- LOW_LIGHT: set while the light code is 48 or higher (R3). -/
def Port.lowLight (p : Port) : Bool := decide (48 ≤ p.lightCode)

/-- The port carries frames: LOCKED or ERRORED. -/
def Port.usable (p : Port) : Bool := decide (p.state = .locked ∨ p.state = .errored)

/-- The effective gain of a setting: gain − 20 × pad (R48). -/
def Setting.effective (x : Setting) : Int := x.gain - (if x.pad then 20 else 0)

/-- Places of the panel queue in use: the messages it holds and the places reserved (R186). -/
def State.panelPlaces (s : State) : Nat := s.panelQueue.length + s.panelReserved

/-- The panel port is ready: the panel queue has room (R185, R186). -/
def State.panelReady (s : State) : Bool := decide (s.panelPlaces < 32)

/-- The message is an apply answer not yet completed (R186). -/
def PanelMsg.uncompleted : PanelMsg → Bool
  | .answer a => !a.complete
  | .meter _ => false
  | .digest _ => false

/-- The messages the panel can read now: those before the first uncompleted apply answer (R185, R186; DEDUCED, log 28). -/
def State.panelReadable (s : State) : Nat := (s.panelQueue.takeWhile fun m => !m.uncompleted).length

/-- The attention line is asserted while the head message can be read (R186). -/
def State.attention (s : State) : Bool := decide (0 < s.panelReadable)

/-- The status byte of the panel port (R185). -/
def State.statusByte (s : State) : Byte :=
  BitVec.ofNat 8 ((if s.panelReady then 128 else 0) + (if s.started then 64 else 0) + s.panelReadable)

/-- A desk slot's answer queue is ready: it holds fewer than 32 answers (R15, R172). -/
def Lane.ready (l : Lane) : Bool := decide (l.answers.length < 32)

/-- Link state codes of R176. -/
def Link.code : Link → Nat
  | .absent => 0
  | .ready => 1
  | .fault => 2

/-- Operation codes of R176. -/
def Operation.code : Operation → Nat
  | .idle => 0
  | .queued => 1
  | .muting => 2
  | .inFlight => 3
  | .settling => 4

/-- The channel state summary (R176). -/
def Channel.summary (c : Channel) : Nat := c.link.code + 4 * c.op.code + (if c.latch then 32 else 0)

/-- Channels 8c to 8c + 7 of a card counted from 0. -/
def State.cardChannels (s : State) (c : Nat) : List Channel := (s.channels.drop (8 * c)).take 8

/-- ALL_GOOD: clear while any PRESENT card has a channel in FAULT or with its phantom fault latch set (R64). -/
def State.allGood (s : State) : Bool :=
  (List.range 8).all fun c => !(s.card c).present || (s.cardChannels c).all fun ch => decide (ch.link ≠ .fault) && !ch.latch

/-- The place of a record type: its code less 1 (R189, R193). -/
def RecordType.place : RecordType → Nat
  | .unit => 0
  | .startChannels => 1
  | .safeMix => 2
  | .outputPatch => 3
  | .stageSettings => 4

/-- Bit 10 of the configuration status (R193). -/
def chainBrokenBit : Nat := 10
/-- Bit 11 of the configuration status (R193). -/
def storeActiveBit : Nat := 11
/-- Bit 12 of the configuration status (R193). -/
def storeFailedBit : Nat := 12
/-- Bit 13 of the configuration status (R193). -/
def loadedBit : Nat := 13
/-- DAMAGED, type t in bit t − 1 (R193). -/
def damagedBit (r : RecordType) : Nat := r.place
/-- MISSING, type t in bit t + 4 (R193). -/
def missingBit (r : RecordType) : Nat := r.place + 5

/-- A bit set. -/
def setBit {w : Nat} (x : BitVec w) (i : Nat) : BitVec w := x ||| (1#w <<< i)

/-- A bit cleared. -/
def clearBit {w : Nat} (x : BitVec w) (i : Nat) : BitVec w := x &&& ~~~ (1#w <<< i)

end Sys2Proof.Machine
end

