-- ==== Sys2Proof/Machine/Operands.lean ====
section
/-!
DEFINITION. Every operand form: frame layouts, message framing and layouts, kinds and result codes, source codes, and the parameter map with its domains, value checks and clamps.
-/
namespace Sys2Proof.Machine

/-! ## Frames (R17, R18) -/

/-- Admission status codes (R17). -/
def Admission.code : Admission → Nat
  | .notAdmitted => 0
  | .admitted => 1
  | .unitStarting => 2

/-- The 210 content bytes of a desk-bound frame that its check covers (R17). -/
def DeskFrame.content (f : DeskFrame) : List Byte :=
  be16 f.number.toNat ++ [BitVec.ofNat 8 (f.unit.toNat * 16 + f.slot * 4 + f.admission.code), flagByte f.ready] ++
    (f.inputs.map be24i).flatten ++ be24i f.talk1 ++ be24i f.talk2 ++ f.lane

/-- A desk-bound frame's 214 bytes as sent, after the marker (R17, R18). -/
def DeskFrame.bytes (f : DeskFrame) : List Byte := f.content ++ be32 (frameCheck f.content).toNat

/-- The 68 content bytes of a stage-bound frame that its check covers (R17). -/
def stageContent (f : StageFrame) : List Byte :=
  be16 f.number.toNat ++ be48 f.ident ++ [f.roleCode.zeroExtend 8] ++ (f.audio.returns.map be24i).flatten ++
    be24i f.audio.talk ++ f.lane

/-- A stage-bound frame's 72 bytes as a console sends it (R17, R18). -/
def stageBytes (f : StageFrame) : List Byte := stageContent f ++ be32 (frameCheck (stageContent f)).toNat

/-- The check a stage-bound frame carries equals the check over the 68 bytes before it (R18). -/
def stageCheckPasses (bytes : List Byte) : Bool :=
  decide (bytes.length = 72) && decide (bytes.drop 68 = be32 (frameCheck (bytes.take 68)).toNat)

/-- The content of a stage-bound frame read from its bytes; bits the layout does not assign are ignored (R17). -/
def stageParse (bytes : List Byte) : StageFrame :=
  let at' := fun i => nth bytes i 0
  { number := wordOf (at' 0) (at' 1),
    ident := at' 2 ++ at' 3 ++ at' 4 ++ at' 5 ++ at' 6 ++ at' 7,
    roleCode := (at' 8).setWidth 2,
    audio := { returns := samplesOf ((bytes.drop 9).take 48), talk := sampleOf (at' 57) (at' 58) (at' 59) },
    lane := (bytes.drop 60).take 8 }

/-- How a frame period of a port ends, by what stands at the expected position (1.3): no marker, a frame whose check fails, or a
valid frame. The row of the table that the period is. -/
def periodCommand (p : LinkPort) (found : Option (List Byte)) (windowFirst : Bool) : Instr :=
  match found with
  | none => .missingFrame p windowFirst
  | some bytes => if stageCheckPasses bytes then .validFrame p (stageParse bytes) windowFirst else .crcFailedFrame p

/-- The role a role code asks for; code 3 is taken as GENERAL (R5, R17). -/
def roleOfCode (r : BitVec 2) : Role := if r = 0 then .front else if r = 1 then .monitor else .general

/-! ## Control-lane framing (R19 to R21) -/

/-- Lane code IDLE (R17). -/
def laneIdle : Byte := 0x00#8
/-- Lane code FIRST (R17). -/
def laneFirst : Byte := 0x01#8
/-- Lane code NEXT (R17). -/
def laneNext : Byte := 0x02#8

/-- The content bytes of a message: kind, tag, body length, body, message check (R17, R19). -/
def messageContent (kind tag : Byte) (body : List Byte) : List Byte :=
  let m := kind :: tag :: (be16 body.length ++ body)
  m ++ be16 (messageCheck m).toNat

/-- The body length a message's first four content bytes give (R17, R20). -/
def bodyLength (content : List Byte) : Nat := (wordOf (nth content 2 0) (nth content 3 0)).toNat

/-- A whole message read from its content: kind, tag and body, if the length is at most 1,023, all 6 + L bytes are there and the
check passes (R19, R20, R185). -/
def messageParse (content : List Byte) : Option (Byte × Byte × List Byte) :=
  let len := bodyLength content
  let m := content.take (4 + len)
  if 4 ≤ content.length ∧ len ≤ 1023 ∧ 6 + len ≤ content.length ∧
      (content.drop (4 + len)).take 2 = be16 (messageCheck m).toNat then
    some (nth content 0 0, nth content 1 0, m.drop 4)
  else none

/-! ## Kinds and result codes (R181, R188) -/

/-- Message kind codes (R188). -/
def kindGet : Byte := 0x10#8
def kindSet : Byte := 0x11#8
def kindSetWindow : Byte := 0x12#8
def kindClaim : Byte := 0x20#8
def kindRelease : Byte := 0x21#8
def kindForceRelease : Byte := 0x22#8
def kindClearTrespass : Byte := 0x23#8
def kindBatchOpen : Byte := 0x28#8
def kindBatchApply : Byte := 0x29#8
def kindBatchDrop : Byte := 0x2A#8
def kindTalkPress : Byte := 0x30#8
def kindTalkRelease : Byte := 0x31#8
def kindRebase : Byte := 0x38#8
def kindClearOvers : Byte := 0x39#8
def kindPathPrefer : Byte := 0x3A#8
def kindRecallSafe : Byte := 0x3B#8
def kindDescribe : Byte := 0x40#8
def kindStore : Byte := 0x48#8
def kindRestart : Byte := 0x49#8
def kindMetersOn : Byte := 0x4A#8
def kindMetersOff : Byte := 0x4B#8
def kindAnswer : Byte := 0x80#8
def kindDigest : Byte := 0x81#8
def kindMeterReport : Byte := 0x82#8

/-- The request kinds (R188). -/
def requestKinds : List Byte :=
  [kindGet, kindSet, kindSetWindow, kindClaim, kindRelease, kindForceRelease, kindClearTrespass, kindBatchOpen, kindBatchApply,
    kindBatchDrop, kindTalkPress, kindTalkRelease, kindRebase, kindClearOvers, kindPathPrefer, kindRecallSafe, kindDescribe,
    kindStore, kindRestart, kindMetersOn, kindMetersOff]

/-- Result codes (R181). -/
def Result.code : Result → Nat
  | .done => 0
  | .clamped => 1
  | .queued => 2
  | .granted => 3
  | .notOwner => 16
  | .ownerSilent => 17
  | .claimedByOther => 18
  | .notPermitted => 19
  | .noSuch => 20
  | .badValue => 21
  | .busy => 22
  | .full => 23
  | .tooLate => 24
  | .notAvailable => 25
  | .notReady => 26
  | .failed => 27

/-- The data of an answer as bytes (R181, R188): part code 6424 and format version 1 open a description. -/
def AnswerData.bytes : AnswerData → List Byte
  | .none => []
  | .values vs => (vs.map be16i).flatten
  | .counts applied dropped => be16 applied ++ be16 dropped
  | .description unit slot name =>
    be16 6424 ++ [1#8, BitVec.ofNat 8 unit, BitVec.ofNat 8 slot, BitVec.ofNat 8 name.length] ++ name

/-- The content of an answer message (R181, R188). -/
def Answer.content (a : Answer) : List Byte :=
  messageContent kindAnswer a.tag (a.kind :: BitVec.ofNat 8 a.result.code :: a.data.bytes)

/-- The content of a panel message; reports and digests carry a tag of 0 (R147, R188). -/
def PanelMsg.content : PanelMsg → List Byte
  | .answer a => a.content
  | .meter body => messageContent kindMeterReport 0 body
  | .digest body => messageContent kindDigest 0 body

/-! ## Requests (R188) -/

/-- A request as its kind's layout gives it. -/
inductive Request
  /-- A kind that is not one of R188's (R171, check 3). -/
  | unknown (kind : Byte)
  /-- A body that does not fit its kind (R171, check 4), or a SET-WINDOW form other than 0 or 1 (R179). -/
  | badBody (kind : Byte)
  | get (first count : Nat)
  | set (index : Nat) (value : Int) (echo : Nat)
  | windowMatrix (firstSource lastSource firstMix lastMix echo : Nat) (values : List Int)
  | windowRun (first echo : Nat) (values : List Int)
  | claim (domain : Nat)
  | release (domain : Nat)
  | forceRelease (domain : Nat)
  | clearTrespass (domain : Nat)
  | batchOpen
  | batchApply
  | batchDrop
  | talkPress (bus : Nat)
  | talkRelease (bus : Nat)
  | rebase (first last column : Nat)
  | clearOvers
  | pathPrefer (port : Nat)
  | recallSafe
  | describe
  | store (codes : List Nat)
  | restart
  | metersOn
  | metersOff
deriving DecidableEq, Repr

/-- The kind code of a request (R188). -/
def Request.kind : Request → Byte
  | .unknown k => k
  | .badBody k => k
  | .get .. => kindGet
  | .set .. => kindSet
  | .windowMatrix .. => kindSetWindow
  | .windowRun .. => kindSetWindow
  | .claim _ => kindClaim
  | .release _ => kindRelease
  | .forceRelease _ => kindForceRelease
  | .clearTrespass _ => kindClearTrespass
  | .batchOpen => kindBatchOpen
  | .batchApply => kindBatchApply
  | .batchDrop => kindBatchDrop
  | .talkPress _ => kindTalkPress
  | .talkRelease _ => kindTalkRelease
  | .rebase .. => kindRebase
  | .clearOvers => kindClearOvers
  | .pathPrefer _ => kindPathPrefer
  | .recallSafe => kindRecallSafe
  | .describe => kindDescribe
  | .store _ => kindStore
  | .restart => kindRestart
  | .metersOn => kindMetersOn
  | .metersOff => kindMetersOff

/-- FORCE-RELEASE, STORE, RESTART, METERS-ON and METERS-OFF are the panel's alone (R171, check 5). -/
def Request.panelOnly : Request → Bool
  | .forceRelease _ => true
  | .store _ => true
  | .restart => true
  | .metersOn => true
  | .metersOff => true
  | _ => false

/-- A request whose body is one byte. -/
def parseOne (kind : Byte) (f : Nat → Request) : List Byte → Request
  | [x] => f x.toNat
  | _ => .badBody kind

/-- A request whose body is empty. -/
def parseEmpty (kind : Byte) (r : Request) : List Byte → Request
  | [] => r
  | _ => .badBody kind

/-- The values of a window: whole 2-byte values (R171, R188). -/
def parseValues (kind : Byte) (f : List Int → Request) (bytes : List Byte) : Request :=
  if bytes.length % 2 = 0 then f ((wordsOf bytes).map BitVec.toInt) else .badBody kind

/-- The body of a SET-WINDOW: form 0 or form 1 (R179, R188). -/
def parseWindow : List Byte → Request
  | form :: rest =>
    if form = 0 then
      match rest with
      | s1 :: s2 :: m1 :: m2 :: e :: vs =>
        parseValues kindSetWindow (.windowMatrix s1.toNat s2.toNat m1.toNat m2.toNat e.toNat) vs
      | _ => .badBody kindSetWindow
    else if form = 1 then
      match rest with
      | hi :: lo :: e :: vs => parseValues kindSetWindow (.windowRun (wordOf hi lo).toNat e.toNat) vs
      | _ => .badBody kindSetWindow
    else .badBody kindSetWindow
  | [] => .badBody kindSetWindow

/-- The body of a GET (R188). -/
def parseGet : List Byte → Request
  | [hi, lo, n] => .get (wordOf hi lo).toNat n.toNat
  | _ => .badBody kindGet

/-- The body of a SET (R188). -/
def parseSet : List Byte → Request
  | [ih, il, vh, vl, e] => .set (wordOf ih il).toNat (wordOf vh vl).toInt e.toNat
  | _ => .badBody kindSet

/-- The body of a REBASE (R188). -/
def parseRebase : List Byte → Request
  | [x, y, z] => .rebase x.toNat y.toNat z.toNat
  | _ => .badBody kindRebase

/-- The body of a STORE: 1 to 8 type codes (R188). -/
def parseStore (codes : List Byte) : Request :=
  if 1 ≤ codes.length ∧ codes.length ≤ 8 then .store (codes.map BitVec.toNat) else .badBody kindStore

/-- A request read from a message's kind and body (R171, R188). -/
def requestParse (kind : Byte) (body : List Byte) : Request :=
  if kind = kindGet then parseGet body
  else if kind = kindSet then parseSet body
  else if kind = kindSetWindow then parseWindow body
  else if kind = kindClaim then parseOne kind .claim body
  else if kind = kindRelease then parseOne kind .release body
  else if kind = kindForceRelease then parseOne kind .forceRelease body
  else if kind = kindClearTrespass then parseOne kind .clearTrespass body
  else if kind = kindBatchOpen then parseEmpty kind .batchOpen body
  else if kind = kindBatchApply then parseEmpty kind .batchApply body
  else if kind = kindBatchDrop then parseEmpty kind .batchDrop body
  else if kind = kindTalkPress then parseOne kind .talkPress body
  else if kind = kindTalkRelease then parseOne kind .talkRelease body
  else if kind = kindRebase then parseRebase body
  else if kind = kindClearOvers then parseEmpty kind .clearOvers body
  else if kind = kindPathPrefer then parseOne kind .pathPrefer body
  else if kind = kindRecallSafe then parseEmpty kind .recallSafe body
  else if kind = kindDescribe then parseEmpty kind .describe body
  else if kind = kindStore then parseStore body
  else if kind = kindRestart then parseEmpty kind .restart body
  else if kind = kindMetersOn then parseEmpty kind .metersOn body
  else if kind = kindMetersOff then parseEmpty kind .metersOff body
  else .unknown kind

/-! ## Sources (R124) -/

/-- A source of the output stage; mixes, inputs and returns count from 0 here. -/
inductive Source
  | none
  | mix (m : Nat)
  | input (n : Nat)
  | ret (d : Desk) (n : Nat)
  | bus (b : Bus)
deriving DecidableEq, Repr

/-- The source a code names, if the code is in the table of R124. -/
def sourceOf (code : Nat) : Option Source :=
  if code = 0 then some .none
  else if code ≤ 24 then some (.mix (code - 1))
  else if 101 ≤ code ∧ code ≤ 164 then some (.input (code - 101))
  else if 201 ≤ code ∧ code ≤ 216 then some (.ret .d1 (code - 201))
  else if 301 ≤ code ∧ code ≤ 316 then some (.ret .d2 (code - 301))
  else if 401 ≤ code ∧ code ≤ 416 then some (.ret .d3 (code - 401))
  else if code = 501 then some (.bus .tb1)
  else if code = 502 then some (.bus .tb2)
  else Option.none

/-- The desk slot whose return a code names (R124). -/
def returnDesk (code : Nat) : Option Desk :=
  match sourceOf code with
  | some (.ret d _) => some d
  | _ => Option.none

/-- Primary and fallback would be two returns of one desk slot, which a write may not leave (R124). -/
def pairRefused (primary fallback : Nat) : Bool := (returnDesk primary).isSome && decide (returnDesk primary = returnDesk fallback)

/-- The code of return 1 of a desk slot (R124). -/
def returnBase : Desk → Nat
  | .d1 => 201
  | .d2 => 301
  | .d3 => 401

/-- The code of input 1 (R124). -/
def inputBase : Nat := 101

/-! ## The parameter map (R175) -/

/-- A parameter of the map; inputs, sources, mixes and outputs count from 0 here. -/
inductive Param
  | gain (i : Nat)
  | pad (i : Nat)
  | phantom (i : Nat)
  | ownMode (i : Nat)
  | engineMode (i : Nat)
  | ownEref (i : Nat)
  | engineEref (i : Nat)
  | ownTrim (i : Nat)
  | engineTrim (i : Nat)
  | appliedGain (i : Nat)
  | summary (i : Nat)
  | crosspoint (source mix : Nat)
  | master (m : Nat)
  | ceiling (m : Nat)
  | primary (o : Nat)
  | fallback (o : Nat)
  | outLevel (o : Nat)
  | override (o : Nat)
  | talkClass (slot : SlotId)
  | talkLimit
  | graceTime
  | revertTime
deriving DecidableEq, Repr

/-- The parameter of an index, if the index exists (R175). -/
def paramOf (i : Nat) : Option Param :=
  if i < 64 then some (.gain i)
  else if i < 128 then some (.pad (i - 64))
  else if i < 192 then some (.phantom (i - 128))
  else if i < 256 then some (.ownMode (i - 192))
  else if i < 320 then some (.engineMode (i - 256))
  else if i < 384 then some (.ownEref (i - 320))
  else if i < 448 then some (.engineEref (i - 384))
  else if i < 512 then some (.ownTrim (i - 448))
  else if i < 576 then some (.engineTrim (i - 512))
  else if i < 640 then some (.appliedGain (i - 576))
  else if i < 704 then some (.summary (i - 640))
  else if 1024 ≤ i ∧ i < 2608 then some (.crosspoint ((i - 1024) / 24) ((i - 1024) % 24))
  else if 2700 ≤ i ∧ i < 2724 then some (.master (i - 2700))
  else if 2730 ≤ i ∧ i < 2754 then some (.ceiling (i - 2730))
  else if 2800 ≤ i ∧ i < 2832 then some (.primary (i - 2800))
  else if 2840 ≤ i ∧ i < 2872 then some (.fallback (i - 2840))
  else if 2880 ≤ i ∧ i < 2912 then some (.outLevel (i - 2880))
  else if 2920 ≤ i ∧ i < 2952 then some (.override (i - 2920))
  else if 3000 ≤ i ∧ i < 3004 then (SlotId.ofNumber (i - 3000)).map .talkClass
  else if i = 3010 then some .talkLimit
  else if i = 3011 then some .graceTime
  else if i = 3012 then some .revertTime
  else none

/-- Read-only parameters (R175). -/
def Param.readOnly : Param → Bool
  | .ownEref _ => true
  | .engineEref _ => true
  | .ownTrim _ => true
  | .engineTrim _ => true
  | .appliedGain _ => true
  | .summary _ => true
  | _ => false

/-- Own-column parameters, refused to the panel (R79, R175). -/
def Param.panelRefused : Param → Bool
  | .ownMode _ => true
  | .ownEref _ => true
  | .ownTrim _ => true
  | _ => false

/-- The parameters of the mix engine: crosspoints, masters and ceilings (R86, R87). -/
def Param.inMatrix : Param → Bool
  | .crosspoint _ _ => true
  | .master _ => true
  | .ceiling _ => true
  | _ => false

/-- The domain of a mix counted from 0: mixes 1–4 are domain 8 (R152). -/
def mixDomain (m : Nat) : Nat := 8 + m / 4

/-- The domain a write of the parameter is tested against, if any (R152). -/
def Param.domain : Param → Option Nat
  | .gain i => some (i / 8)
  | .pad i => some (i / 8)
  | .phantom i => some (i / 8)
  | .engineMode _ => some 15
  | .crosspoint _ m => some (mixDomain m)
  | .master m => some (mixDomain m)
  | .ceiling m => some (mixDomain m)
  | .primary _ => some 14
  | .fallback _ => some 14
  | .outLevel _ => some 14
  | .override _ => some 14
  | .talkClass _ => some 14
  | .talkLimit => some 14
  | .graceTime => some 14
  | .revertTime => some 14
  | .ownMode _ => none
  | .ownEref _ => none
  | .engineEref _ => none
  | .ownTrim _ => none
  | .engineTrim _ => none
  | .appliedGain _ => none
  | .summary _ => none

/-- A value in a closed range. -/
def within (lo hi v : Int) : Bool := decide (lo ≤ v) && decide (v ≤ hi)

/-- A source code the output stage knows (R124). -/
def sourceKnown (v : Int) : Bool := decide (0 ≤ v) && (sourceOf v.toNat).isSome

/-- Values the owning block accepts whatever the state; any other is BAD_VALUE (R154 step 2; R50, R77, R118, R120, R124, R131,
R134, R180). Gains, levels and ceilings accept every value and clamp it. -/
def Param.valueOk (p : Param) (v : Int) : Bool :=
  match p with
  | .pad _ => within 0 1 v
  | .phantom _ => within 0 1 v
  | .ownMode _ => within 0 1 v
  | .engineMode _ => within 0 1 v
  | .primary _ => sourceKnown v
  | .fallback _ => sourceKnown v
  | .override _ => within 0 2 v
  | .talkClass _ => within 0 3 v
  | .talkLimit => within 0 255 v
  | .graceTime => within 5 200 v
  | .revertTime => within 0 300 v
  | _ => true

/-- A value brought into a closed range. -/
def clampTo (lo hi v : Int) : Int := if v < lo then lo else if hi < v then hi else v

/-- A level value as it is stored: −181 for off, at most +20 (R88, R133). -/
def levelStored (v : Int) : Int := if v ≤ -181 then -181 else if 20 < v then 20 else v

/-- The value as the owning block stores it: decoded and clamped (R50, R88, R89, R133). -/
def Param.stored (p : Param) (v : Int) : Int :=
  match p with
  | .gain _ => clampTo 0 60 v
  | .crosspoint _ _ => levelStored v
  | .master _ => levelStored v
  | .ceiling _ => clampTo (-180) 0 v
  | .outLevel _ => levelStored v
  | _ => v

/-- The write is answered CLAMPED: a value brought into range. Off written below −181 is not a clamp (R50, R88, R89, R133). -/
def Param.clamps (p : Param) (v : Int) : Bool :=
  match p with
  | .gain _ => !within 0 60 v
  | .crosspoint _ _ => decide (20 < v)
  | .master _ => decide (20 < v)
  | .ceiling _ => !within (-180) 0 v
  | .outLevel _ => decide (20 < v)
  | _ => false

/-- A stored level value as a target: −181 is off (R88). -/
def targetOf (v : Int) : Option Int := if v ≤ -181 then none else some v

/-- A target as a parameter value: off reads −181 (R90). -/
def targetValue (t : Option Int) : Int := t.getD (-181)

/-- Override codes (R134). -/
def Override.code : Override → Int
  | .normal => 0
  | .mute => 1
  | .tone => 2

/-- The override of a code; called for 0 to 2. -/
def overrideOf (v : Int) : Override := if v = 1 then .mute else if v = 2 then .tone else .normal

end Sys2Proof.Machine
end

