-- ==== Sys2Proof/Machine/Compensation.lean ====
section
/-!
DEFINITION. The compensation stage (04_gain_arithmetic_and_compensation.md, 4.2): trim targets, ramps, marker steps, mode writes, REBASE and the forming of the views.
-/
namespace Sys2Proof.Machine

/-- The trim a cell in mode ON wants: 2 × (Eref − E) hdB (R73). -/
def wantedTrim (eref e : Int) : Int := 2 * (eref - e)

/-- A trim clamped to −36..+36 (R73). -/
def clampTrim (v : Int) : Int := clampTo (-36) 36 v

/-- The cell's current trim differs from its target (R71). -/
def Cell.ramping (c : Cell) : Bool := decide (c.current ≠ c.target)

/-- The next frame's count would reach 8, so that the trim moves (R75). -/
def Cell.stepDue (c : Cell) : Bool := c.ramping && decide (8 ≤ c.count + 1)

/-- A cell as it was before a command of its own took the step of the frame to be formed (log 3). -/
def Cell.settled (c : Cell) : Cell :=
  match c.undo with
  | some v => { c with current := v, count := 7, undo := none }
  | none => c

/-- One frame of a cell's ramp (R75). -/
def Cell.ramp (c : Cell) : Cell :=
  if c.ramping then
    (if c.count + 1 < 8 then { c with count := c.count + 1 } else { c with current := toward c.target c.current, count := 0 })
  else { c with count := 0 }

/-- A new stage gain comes with an input's sample; a step the cell has taken ahead of its frame is taken back first (R76; log 3). -/
def Cell.newGain (e : Int) (c : Cell) : Cell :=
  match c.on, c.eref with
  | true, some r =>
    let t' := clampTrim (wantedTrim r e)
    let c0 := c.settled
    let cur := if c0.ramping then clampTrim (c0.current + (t' - c0.target)) else t'
    { c0 with target := t', current := cur, count := if cur = t' then 0 else c0.count, limited := decide (wantedTrim r e ≠ t') }
  | _, _ => c

/-- The input's stage gain becomes E in all four columns; a value equal to the one held changes nothing (R72, R76). -/
def InputComp.newGain (e : Int) (ic : InputComp) : InputComp :=
  if ic.stageGain = e then ic else { stageGain := e, cells := ic.cells.map fun _ c => c.newGain e }

/-- A trim ramping to a target of 0 keeps its count unless it is there already (R75; log 3). -/
def Cell.toZero (c : Cell) : Cell :=
  { c.settled with target := 0, limited := false, count := if c.settled.current = 0 then 0 else c.settled.count }

/-- A write of a cell's mode (R77). -/
def Cell.setMode (on : Bool) (stageGain : Int) (c : Cell) : Cell :=
  if on = c.on then c
  else if on then { c.toZero with on := true, eref := some stageGain } else { c.toZero with on := false, eref := none }

/-- REBASE of a cell: only an ON cell is recaptured (R78). -/
def Cell.rebase (stageGain : Int) (c : Cell) : Cell := if c.on then { c.toZero with eref := some stageGain } else c

/-- REBASE of one cell of an input. -/
def InputComp.rebase (col : Fin 4) (ic : InputComp) : InputComp :=
  { ic with cells := ic.cells.set col ((ic.cells.get col).rebase ic.stageGain) }

/-- REBASE of the inputs from the first to the last, counted from 1 (R78). -/
def State.rebaseInputs (col : Fin 4) (first last : Nat) (s : State) : State :=
  let f := fun i (ic : InputComp) => if first ≤ i ∧ i ≤ last then ic.rebase col else ic
  { s with comp := mapFrom f 1 s.comp }

/-- Every cell of a column becomes OFF at once (R80). -/
def State.resetColumn (col : Fin 4) (s : State) : State :=
  { s with comp := s.comp.map fun ic => { ic with cells := ic.cells.set col Cell.reset } }

/-- A view's sample before saturation: the current trim applied to the gated sample (R74 step 3). -/
def Cell.view (c : Cell) (gated : Sample) : Sample := applyLevel c.current gated

/-- The compensation of an input in a frame (R74): a gain handed over with the sample, then the ramps. -/
def InputComp.advance (handed : Option Int) (ic : InputComp) : InputComp :=
  let ic1 := match handed with
    | some e => ic.newGain e
    | none => ic
  { ic1 with cells := ic1.cells.map fun _ c => c.settled.ramp }

/-- The four views of an input from its gated sample, before saturation (R74). -/
def InputComp.views (gated : Sample) (ic : InputComp) : PerColumn Sample := ic.cells.map fun _ c => c.view gated

/-- A cell that takes the step of the frame to be formed ahead of it, keeping what it stepped from (log 3). -/
def Cell.stepEarly (c : Cell) : Cell := if c.stepDue ∧ c.undo = none then { c.ramp with undo := some c.current } else c

/-- TRIM_RAMP_STEP (R75): the step of a cell whose count reaches 8 in this frame, taken ahead of the frame (log 3). -/
def State.trimRampStep (i : Fin 64) (col : Fin 4) (s : State) : State := s.modCell i col fun _ c => c.stepEarly

/-- TRIM_RAMP_STEP (R75). -/
def execTrimRampStep (i : Fin 64) (col : Fin 4) (s : State) : Host.Outcome State Fault Refusal := live (State.trimRampStep i col) s

end Sys2Proof.Machine
end

