-- ==== Sys2Proof/Machine/Levels.lean ====
section
/-!
DEFINITION. The smoothed level shared by crosspoints, masters and output levels: writes (R88) and ramps (R91).
-/
namespace Sys2Proof.Machine

/-- Where an ON level is ramping to: its target, or −180 when the target is off (R86). -/
def Level.rampEnd (l : Level) : Int := l.target.getD (-180)

/-- The level is ON and its current level differs from its ramp end (R86). -/
def Level.ramping (l : Level) : Bool := l.on && decide (l.current ≠ l.rampEnd)

/-- A level as it was before a command of its own took the step of the frame to be formed (log 3). -/
def Level.settled (l : Level) : Level :=
  match l.undo with
  | some v => { l with on := true, current := v, count := 7, undo := none }
  | none => l

/-- A decoded value written to a level; a step the level has taken ahead of its frame is taken back first (R88; log 3). -/
def Level.write (t : Option Int) (l : Level) : Level :=
  let l0 := l.settled
  match t with
  | some v =>
    if l0.on then { l0 with target := some v, count := if v = l0.current then 0 else l0.count }
    else { on := true, target := some v, current := -180, count := 0 }
  | none =>
    if l0.on then
      if l0.current = -180 then { on := false, target := none, current := -180, count := 0 } else { l0 with target := none }
    else l0

/-- A level of a target set directly, without a ramp (R103, R137). -/
def Level.direct : Option Int → Level
  | some v => { on := true, target := some v, current := v, count := 0 }
  | none => Level.reset

/-- One hdB toward the ramp end, with the count back at 0; a level that reaches −180 with target off turns OFF (R91). -/
def Level.move (l : Level) : Level :=
  let cur := toward l.rampEnd l.current
  if l.target = none ∧ cur = -180 then { on := false, target := none, current := -180, count := 0 }
  else { l with current := cur, count := 0 }

/-- One frame of a level's ramp (R91). -/
def Level.ramp (l : Level) : Level :=
  if l.ramping then (if l.count + 1 < 8 then { l with count := l.count + 1 } else l.move) else { l with count := 0 }

/-- A level that takes the step of the frame to be formed ahead of it, keeping what it stepped from (log 3). -/
def Level.stepEarly (l : Level) : Level :=
  if l.ramping ∧ 8 ≤ l.count + 1 ∧ l.undo = none then { l.ramp with undo := some l.current } else l

/-- A level applied to a sample; an OFF level gives exactly zero (R68, R93, R133). -/
def Level.apply (l : Level) (x : Sample) : Sample := if l.on then applyLevel l.current x else 0

end Sys2Proof.Machine
end

