-- ==== Sys2Proof/Machine/Outputs.lean ====
section
/-!
DEFINITION. The output stage (07_stage_outputs_and_fallback.md): availability, selection, revert hold, patch writes, overrides, the tone and the forming of an output.
-/
namespace Sys2Proof.Machine

/-! ## Availability and selection (R125 to R131) -/

/-- A source is available (R125). -/
def State.sourceAvailable (s : State) : Source → Bool
  | .none => false
  | .mix _ => true
  | .bus _ => true
  | .input n => decide ((s.channel n).link ≠ .absent)
  | .ret d _ => decide ((s.slot d).state = .active)

/-- The source of a code is available; a code that names none is not (R125). -/
def State.available (s : State) (code : Nat) : Bool :=
  match sourceOf code with
  | some src => s.sourceAvailable src
  | none => false

/-- A fallback is available; an absent one is not (R125). -/
def State.fallbackAvailable (s : State) (o : Output) : Bool :=
  match o.fallback with
  | some code => s.available code
  | none => false

/-- The output's answer to "primary lost" (R128). -/
def Output.primaryLost (fallbackAvail : Bool) (o : Output) : Output :=
  match o.selection with
  | .primary => { o with selection := if fallbackAvail then .toFallback else .noneAvailable }
  | .toPrimary => { o with selection := if fallbackAvail then .toFallback else .noneAvailable }
  | .toFallback => { o with hold := none }
  | .fallback => { o with hold := none }
  | .noneAvailable => o

/-- The output's answer to "primary regained", with the revert hold time in force in ms (R129, R131). -/
def Output.primaryRegained (revertMs : Nat) (o : Output) : Output :=
  let held := if revertMs = 0 then { o with selection := .toPrimary } else { o with hold := some { count := 0, limit := revertMs * 48 } }
  match o.selection with
  | .toFallback => held
  | .fallback => held
  | .noneAvailable => { o with selection := .toPrimary }
  | .primary => o
  | .toPrimary => o

/-- The output's answer to "fallback lost" (R130). -/
def Output.fallbackLost (o : Output) : Output :=
  let out := match o.hold with
    | some _ => { o with hold := none, selection := .toPrimary }
    | none => { o with selection := .noneAvailable }
  match o.selection with
  | .toFallback => out
  | .fallback => out
  | .primary => o
  | .toPrimary => o
  | .noneAvailable => o

/-- The output's answer to "fallback regained" (R130). -/
def Output.fallbackRegained (o : Output) : Output :=
  match o.selection with
  | .noneAvailable => { o with selection := .toFallback }
  | .primary => o
  | .toPrimary => o
  | .toFallback => o
  | .fallback => o

/-- The source of a code has become unavailable: each output whose primary or fallback it is takes the event, as a primary first
(R125; order within one output: log 25). -/
def State.sourceLost (code : Nat) (s : State) : State :=
  { s with outputs := s.outputs.map fun o =>
      let o1 := if o.primary = code then o.primaryLost (s.fallbackAvailable o) else o
      if o.fallback = some code then o1.fallbackLost else o1 }

/-- The source of a code has become available (R125; order within one output: log 25). -/
def State.sourceRegained (code : Nat) (s : State) : State :=
  { s with outputs := s.outputs.map fun o =>
      let o1 := if o.primary = code then o.primaryRegained s.revertTime else o
      if o.fallback = some code then o1.fallbackRegained else o1 }

/-- A desk slot's 16 returns have become unavailable: one event each (R125). -/
def State.returnsLost (d : Desk) (s : State) : State := State.foldOver (fun n s => s.sourceLost (returnBase d + n)) (List.range 16) s

/-- A desk slot's 16 returns have become available: one event each (R125). -/
def State.returnsRegained (d : Desk) (s : State) : State :=
  State.foldOver (fun n s => s.sourceRegained (returnBase d + n)) (List.range 16) s

/-- The state whose condition in R126 the pair of sources meets, with no revert hold running (R126, R132). -/
def Output.selectAfresh (primaryAvail fallbackAvail : Bool) (o : Output) : Output :=
  let sel : Selection :=
    if primaryAvail then (if o.primaryShare = 240 ∧ o.fallbackShare = 0 then .primary else .toPrimary)
    else if fallbackAvail then (if o.primaryShare = 0 ∧ o.fallbackShare = 240 then .fallback else .toFallback)
    else .noneAvailable
  { o with selection := sel, hold := none }

/-- The targets of the two shares in a selection state (R126). -/
def Selection.targets : Selection → Nat × Nat
  | .primary => (240, 0)
  | .toPrimary => (240, 0)
  | .toFallback => (0, 240)
  | .fallback => (0, 240)
  | .noneAvailable => (0, 0)

/-- A count moved 1 toward its target. -/
def stepNat (target n : Nat) : Nat := if n < target then n + 1 else if target < n then n - 1 else n

/-- Both shares have reached their targets. -/
def Output.sharesArrived (o : Output) : Bool :=
  decide (o.primaryShare = o.selection.targets.1) && decide (o.fallbackShare = o.selection.targets.2)

/-- One frame of the crossfade (R127). -/
def Output.moveShares (o : Output) : Output :=
  { o with primaryShare := stepNat o.selection.targets.1 o.primaryShare,
           fallbackShare := stepNat o.selection.targets.2 o.fallbackShare }

/-- CROSSFADE_END: with both shares at their targets TO_FALLBACK becomes FALLBACK and TO_PRIMARY becomes PRIMARY (R127). -/
def Output.crossfadeEnd (o : Output) : Output :=
  if o.sharesArrived then
    match o.selection with
    | .toFallback => { o with selection := .fallback }
    | .toPrimary => { o with selection := .primary }
    | .primary => o
    | .fallback => o
    | .noneAvailable => o
  else o

/-- REVERT_HOLD_EXPIRY: a hold that has reached its length ends in TO_PRIMARY (R131). -/
def Output.holdExpiry (o : Output) : Output :=
  match o.hold with
  | some t => if t.limit ≤ t.count then { o with hold := none, selection := .toPrimary } else o
  | none => o

/-- A running timer counts a frame and stays at its length. -/
def Timer.tick (t : Timer) : Timer := if t.count < t.limit then { t with count := t.count + 1 } else t

/-! ## Patch writes (R132 to R134) -/

/-- A write of an output's primary source that passed its checks (R132). -/
def State.writePrimary (o code : Nat) (s : State) : State :=
  if (s.output o).primary = code then s
  else s.modOutput o fun r =>
    let r' := { r with primary := code }
    r'.selectAfresh (s.available code) (s.fallbackAvailable r')

/-- A write of an output's fallback source that passed its checks; 0 makes it absent (R124, R132). -/
def State.writeFallback (o code : Nat) (s : State) : State :=
  let f : Option Nat := if code = 0 then none else some code
  if (s.output o).fallback = f then s
  else s.modOutput o fun r =>
    let r' := { r with fallback := f }
    r'.selectAfresh (s.available r.primary) (s.fallbackAvailable r')

/-- The pairing check of a write of a primary or fallback against the record as it stands (R124, R132). -/
def Output.pairOk (o : Output) (isPrimary : Bool) (code : Nat) : Bool :=
  !(if isPrimary then pairRefused code (o.fallback.getD 0) else pairRefused o.primary code)

/-! ## Override stage and tone (R134, R135) -/

/-- The first quarter of the tone cycle: 838,861 × sin(2πn/48) for n = 0 to 12, rounded, halves away from zero (R135). -/
def toneQuarter : List Int := [0, 109493, 217113, 321018, 419431, 510666, 593164, 665513, 726475, 775007, 810278, 831684, 838861]

/-- The tone sample at a phase (R135): the quarter read forward, backward and negated. -/
def toneSample (n : Nat) : Sample :=
  let k := n % 48
  if k ≤ 12 then nth toneQuarter k 0
  else if k ≤ 24 then nth toneQuarter (24 - k) 0
  else if k ≤ 36 then -nth toneQuarter (k - 24) 0
  else -nth toneQuarter (48 - k) 0

/-- The content matches the override; a MUTE keeps its content (R134). -/
def Output.contentMatches (o : Output) : Bool :=
  match o.override with
  | .normal => !o.toneContent
  | .tone => o.toneContent
  | .mute => true

/-- The gate's target in a frame (R134 step 1). -/
def Output.gateTarget (started : Bool) (o : Output) : Nat :=
  if started = false ∨ o.override = .mute ∨ o.contentMatches = false then 0 else 64

/-- Content change with the gate shut (R134 step 3). -/
def Output.changeContent (o : Output) : Output :=
  if o.gate = 0 ∧ o.contentMatches = false then
    match o.override with
    | .tone => { o with toneContent := true, phase := 0 }
    | .normal => { o with toneContent := false }
    | .mute => o
  else o

/-- The override stage in a frame: the record after it and the gated sample (R134). -/
def Output.overrideStage (started : Bool) (program : Sample) (o : Output) : Output × Sample :=
  let o1 := { o with gate := stepNat (o.gateTarget started) o.gate }
  let o2 := o1.changeContent
  let content := if o2.toneContent then toneSample o2.phase else program
  let o3 := if o2.toneContent then { o2 with phase := (o2.phase + 1) % 48 } else o2
  (o3, share content o3.gate 64)

/-- The selected sample (R126). -/
def Output.selected (primarySample fallbackSample : Sample) (o : Output) : Sample :=
  (primarySample * (o.primaryShare : Int) + fallbackSample * (o.fallbackShare : Int)).tdiv 240

/-- An output in a frame: shares, selection, level, override stage, saturation (R136). -/
def Output.form (started : Bool) (primarySample fallbackSample : Sample) (o : Output) : Output × Sample :=
  let o1 := o.moveShares
  let sel := o1.selected primarySample fallbackSample
  let o2 := { o1 with level := o1.level.settled.ramp }
  let st := o2.overrideStage started (o2.level.apply sel)
  ({ st.1 with clip := st.1.clip || clips st.2 }, saturate st.2)

/-! ## Stored patch (R137, R190) -/

/-- An output set directly from a patch entry, without ramps, its selection from availability (R137). -/
def State.setPatch (o primary : Nat) (fallback : Option Nat) (level : Option Int) (ov : Override) (s : State) : State :=
  s.modOutput o fun r =>
    let r' := { r with primary := primary, fallback := fallback, override := ov, level := Level.direct level, hold := none }
    let pa := s.available primary
    let fa := s.fallbackAvailable r'
    { r' with
      selection := if pa then .primary else if fa then .fallback else .noneAvailable,
      primaryShare := if pa then 240 else 0,
      fallbackShare := if pa then 0 else if fa then 240 else 0 }

/-! ## Commands -/

/-- CROSSFADE_END (R127). -/
def execCrossfadeEnd (o : Fin 32) (s : State) : Host.Outcome State Fault Refusal :=
  live (fun s => s.modOutput o Output.crossfadeEnd) s

/-- REVERT_HOLD_EXPIRY (R131). -/
def execRevertHoldExpiry (o : Fin 32) (s : State) : Host.Outcome State Fault Refusal :=
  live (fun s => s.modOutput o Output.holdExpiry) s

end Sys2Proof.Machine
end

