-- ==== Sys2Proof/Config.lean ====
section
/-!
DEFINITION. The free values: what the spec leaves open while the part goes on. None has a body, so nothing can be proved of a value of one.
-/
namespace Sys2Proof

/-- How many bytes of the record being written had reached the configuration memory when a store was cut short, by the
`n`th free value drawn (R196, R197: "left as it stands"). Taken modulo the record's length plus one. DESIGN CHOICE, log 8. -/
opaque Config.storeReached : Nat → Nat

/-- A byte the spec sends but gives no value for: `n` numbers the draw, `j` the byte within it. DESIGN CHOICE, log 27. -/
opaque Config.unstatedByte : Nat → Nat → Byte

end Sys2Proof
end

