-- ==== Sys2Proof/Machine/Answers.lean ====
section
/-!
DEFINITION. Answer queues, the panel queue and the control-lane transmitter (R21, R172, R174, R186).
-/
namespace Sys2Proof.Machine

/-! ## Placing and completing answers -/

/-- An answer joins the end of its slot's queue (R172, R186). -/
def State.pushAnswer (sl : SlotId) (a : Answer) (s : State) : State :=
  match sl with
  | .panel => { s with panelQueue := s.panelQueue ++ [.answer a] }
  | .desk d => s.modLane d fun l => { l with answers := l.answers ++ [a] }

/-- The first uncompleted apply answer of a list is completed in its place (R165, R166, R168). -/
def completeIn (r : Result) (applied dropped : Nat) : List Answer → List Answer
  | [] => []
  | a :: rest =>
    if a.complete then a :: completeIn r applied dropped rest
    else { a with result := r, data := .counts applied dropped, complete := true } :: rest

/-- The same in the panel queue (R186). -/
def completePanel (r : Result) (applied dropped : Nat) : List PanelMsg → List PanelMsg
  | [] => []
  | m :: rest =>
    match m with
    | .answer a =>
      if a.complete then m :: completePanel r applied dropped rest
      else .answer { a with result := r, data := .counts applied dropped, complete := true } :: rest
    | .meter _ => m :: completePanel r applied dropped rest
    | .digest _ => m :: completePanel r applied dropped rest

/-- A slot's uncompleted apply answer is completed. -/
def State.completeApply (sl : SlotId) (r : Result) (applied dropped : Nat) (s : State) : State :=
  match sl with
  | .panel => { s with panelQueue := completePanel r applied dropped s.panelQueue }
  | .desk d => s.modLane d fun l => { l with answers := completeIn r applied dropped l.answers }

/-! ## Reports in the panel queue (R150, R186) -/

/-- A report or digest takes the place of one of its kind, if the queue holds one (R150, R186). -/
def replaceIn (isKind : PanelMsg → Bool) (m : PanelMsg) : List PanelMsg → Option (List PanelMsg)
  | [] => none
  | x :: rest => if isKind x then some (m :: rest) else (replaceIn isKind m rest).map (x :: ·)

/-- A report or digest offered to the panel queue: in place of an unread one, else at the end if there is room, else discarded. -/
def State.offerPanel (isKind : PanelMsg → Bool) (m : PanelMsg) (s : State) : State :=
  match replaceIn isKind m s.panelQueue with
  | some q => { s with panelQueue := q }
  | none => if s.panelReady then { s with panelQueue := s.panelQueue ++ [m] } else s

/-- A meter report. -/
def PanelMsg.isMeter : PanelMsg → Bool
  | .meter _ => true
  | .answer _ => false
  | .digest _ => false

/-- A digest. -/
def PanelMsg.isDigest : PanelMsg → Bool
  | .digest _ => true
  | .answer _ => false
  | .meter _ => false

/-! ## The control-lane transmitter (R21, R174) -/

/-- The kind that follows in the rotation answers, meter reports, digests (R21). -/
def MsgClass.following : MsgClass → MsgClass
  | .answer => .meter
  | .meter => .digest
  | .digest => .answer

/-- The content of the message of a kind that waits, if one does: a complete answer at the head of the queue, the pending meter
report or the pending digest (R21, R172). -/
def Lane.waiting (l : Lane) : MsgClass → Option (List Byte)
  | .answer =>
    match l.answers with
    | a :: _ => if a.complete then some a.content else none
    | [] => none
  | .meter => l.tx.pendingMeter.map (messageContent kindMeterReport 0)
  | .digest => l.tx.pendingDigest.map (messageContent kindDigest 0)

/-- Start sending a message of a kind; a report or digest is no longer pending. -/
def Lane.start (l : Lane) (c : MsgClass) (content : List Byte) : Lane :=
  { l with tx := { l.tx with
      sending := some { cls := c, rest := content, first := true },
      pendingMeter := if c = .meter then none else l.tx.pendingMeter,
      pendingDigest := if c = .digest then none else l.tx.pendingDigest } }

/-- A free transmitter starts the next message in rotation, passing over kinds with nothing waiting (R21). -/
def Lane.pick (l : Lane) : Lane :=
  match l.tx.sending with
  | some _ => l
  | none =>
    let c1 := l.tx.next
    let c2 := c1.following
    let c3 := c2.following
    match l.waiting c1 with
    | some m => l.start c1 m
    | none =>
      match l.waiting c2 with
      | some m => l.start c2 m
      | none =>
        match l.waiting c3 with
        | some m => l.start c3 m
        | none => l

/-- Seven content bytes, the last of a message filled with zero (1.6, R21). -/
def laneBytes (code : Byte) (rest : List Byte) : List Byte := code :: ((rest.take 7) ++ List.replicate (7 - rest.length) 0)

/-- One frame of the transmitter: the lane after it and the eight bytes sent. A message whose last frame has been sent ends, and an
answer then leaves the queue (R21, R172; rotation: log 36). -/
def Lane.send (l : Lane) : Lane × List Byte :=
  let l1 := l.pick
  match l1.tx.sending with
  | none => (l1, laneBytes laneIdle [])
  | some m =>
    let bytes := laneBytes (if m.first then laneFirst else laneNext) m.rest
    if m.rest.length ≤ 7 then
      ({ l1 with tx := { l1.tx with sending := none, next := m.cls.following },
                 answers := if m.cls = .answer then l1.answers.drop 1 else l1.answers }, bytes)
    else ({ l1 with tx := { l1.tx with sending := some { m with rest := m.rest.drop 7, first := false } } }, bytes)

/-- The lane of a slot in a frame: only an ACTIVE slot's transmitter sends (R174). -/
def Lane.frame (active : Bool) (l : Lane) : Lane × List Byte := if active then l.send else (l, laneBytes laneIdle [])

/-- The slot goes SILENT: a message under way is abandoned; an answer stays in its queue, a report or digest is discarded, what is
pending stays (R174). The receiver drops a partial message (R38). -/
def Lane.silence (l : Lane) : Lane := { l with receiver := none, tx := { l.tx with sending := none } }

/-- The slot becomes VACANT: receiver idle, nothing in transmission or pending, no answers, flag clear (R20, R21, R172, R173). The
rotation stands. -/
def Lane.vacate (l : Lane) : Lane :=
  { receiver := none, tx := { l.tx with sending := none, pendingMeter := none, pendingDigest := none }, answers := [],
    dropped := false }

end Sys2Proof.Machine
end

