-- ==== Sys2Proof/Machine/Claims.lean ====
section
/-!
DEFINITION. The claim unit and the batch records (09_domains_claims_and_batches.md): rights, trespass, claims, staging and the batch requests.
-/
namespace Sys2Proof.Machine

/-! ## Rights and trespass (R153 to R155) -/

/-- The rights test: `none` when passed, else the code it fails with (R153). -/
def State.rightsTest (sl : SlotId) (dom : Nat) (s : State) : Option Result :=
  if s.slotState sl ≠ .active then some .notAvailable
  else
    match (s.domain dom).owner with
    | none => none
    | some o => if o = sl then none else if s.slotState o = .active then some .notOwner else some .ownerSilent

/-- A refusal that is a trespass (R153). -/
def Result.isTrespass : Result → Bool
  | .notOwner => true
  | .ownerSilent => true
  | _ => false

/-- Record a trespass against a domain (R155). -/
def Domain.recordTrespass (sl : SlotId) (d : Domain) : Domain :=
  { d with trespass := true, trespasser := some sl, count := if d.count < 255 then d.count + 1 else 255 }

/-- Each domain of a list, in rising order, is tested; each that refuses with NOT_OWNER or OWNER_SILENT records one trespass, and
the answer is the code of the first that refuses (R99, R154, R179). -/
def State.checkDomains (sl : SlotId) : List Nat → State → State × Option Result
  | [], s => (s, none)
  | d :: ds, s =>
    let r := s.rightsTest sl d
    let s1 := match r with
      | some c => if c.isTrespass then s.modDomain d (Domain.recordTrespass sl) else s
      | none => s
    let rest := s1.checkDomains sl ds
    (rest.1, match r with
      | some c => some c
      | none => rest.2)

/-- The domains 0 to 15 that occur in a list, in rising order, each once. -/
def domainsOf (l : List (Option Nat)) : List Nat := (List.range 16).filter fun n => decide (some n ∈ l)

/-! ## Claims (R156 to R160) -/

/-- CLAIM (R156). -/
def State.claim (sl : SlotId) (dom : Nat) (s : State) : State × Result :=
  if 16 ≤ dom then (s, .badValue)
  else if s.slotState sl ≠ .active then (s, .notAvailable)
  else
    match (s.domain dom).owner with
    | some o => if o = sl then (s, .granted) else (s, .claimedByOther)
    | none => (s.modDomain dom fun _ => { Domain.reset with owner := some sl }, .granted)

/-- A domain is freed and its trespass record cleared (R157). -/
def State.freeDomain (dom : Nat) (s : State) : State := s.modDomain dom fun _ => Domain.reset

/-- RELEASE (R157). -/
def State.release (sl : SlotId) (dom : Nat) (s : State) : State × Result :=
  if 16 ≤ dom then (s, .badValue)
  else if (s.domain dom).owner = some sl then (s.freeDomain dom, .done)
  else (s, .notOwner)

/-- A count that stays at a top once there. -/
def satAdd (top a b : Nat) : Nat := if a + b ≤ top then a + b else top

/-- The entries of a domain are removed from a staging list and counted as dropped (R158). -/
def Batch.dropDomain (dom : Nat) (b : Batch) : Batch :=
  let kept := b.staged.filter fun e => decide (e.domain ≠ some dom)
  { b with staged := kept, dropped := satAdd 65535 b.dropped (b.staged.length - kept.length) }

/-- FORCE-RELEASE, from the panel (R158). -/
def State.forceRelease (dom : Nat) (s : State) : State × Result :=
  if 16 ≤ dom then (s, .badValue)
  else
    let s1 := s.freeDomain dom
    ({ s1 with batches := { s1.batches with desks := s1.batches.desks.map fun _ b => b.dropDomain dom } }, .done)

/-- CLEAR-TRESPASS (R159). -/
def State.clearTrespass (sl : SlotId) (dom : Nat) (s : State) : State × Result :=
  if 16 ≤ dom then (s, .badValue)
  else if (s.domain dom).owner = some sl then (s.modDomain dom fun d => { d with trespass := false, count := 0 }, .done)
  else (s, .notOwner)

/-- A slot becoming VACANT releases every domain it owns (R160). -/
def State.freeDomainsOf (sl : SlotId) (s : State) : State :=
  { s with domains := s.domains.map fun d => if d.owner = some sl then Domain.reset else d }

/-! ## Batches (R162 to R168) -/

/-- BATCH-OPEN (R163). -/
def State.batchOpen (sl : SlotId) (s : State) : State × Result :=
  if s.slotState sl ≠ .active then (s, .notAvailable)
  else
    match (s.batch sl).state with
    | .none => (s.setBatch sl { state := .opened, staged := [], dropped := 0 }, .done)
    | .opened => (s, .busy)
    | .sealed => (s, .busy)

/-- BATCH-DROP (R167). -/
def State.batchDrop (sl : SlotId) (s : State) : State × Result :=
  match (s.batch sl).state with
  | .none => (s, .notAvailable)
  | .opened => (s.setBatch sl Batch.reset, .done)
  | .sealed => (s, .tooLate)

/-- BATCH-APPLY: an OPEN batch is sealed and its answer placed uncompleted; else it is answered at once, without the applied and
dropped counts (R165; DESIGN CHOICE, log 45; R181). -/
def State.batchApply (sl : SlotId) (tag : Byte) (s : State) : State :=
  let now := fun r : Result => s.pushAnswer sl { tag := tag, kind := kindBatchApply, result := r, data := .none, complete := true }
  match (s.batch sl).state with
  | .none => now .notAvailable
  | .sealed => now .busy
  | .opened =>
    (s.setBatch sl { s.batch sl with state := .sealed }).pushAnswer sl
      { tag := tag, kind := kindBatchApply, result := .done, data := .none, complete := false }

/-- The slot has an OPEN batch, so its writes are staged (R164). -/
def State.staging (s : State) (sl : SlotId) : Bool := decide ((s.batch sl).state = .opened)

/-- The capacity check (R164). -/
def State.stagingRoom (s : State) (sl : SlotId) (n : Nat) : Bool := decide ((s.batch sl).staged.length + n ≤ 256)

/-- Entries join the end of the staging list (R164). -/
def State.stage (sl : SlotId) (es : List Staged) (s : State) : State :=
  s.setBatch sl { s.batch sl with staged := (s.batch sl).staged ++ es }

/-- A slot going SILENT has its batch discarded; a sealed one's answer is completed FAILED (R168). -/
def State.discardBatch (sl : SlotId) (s : State) : State :=
  match (s.batch sl).state with
  | .none => s
  | .opened => s.setBatch sl Batch.reset
  | .sealed =>
    (s.completeApply sl .failed 0 (satAdd 65535 (s.batch sl).staged.length (s.batch sl).dropped)).setBatch sl Batch.reset

end Sys2Proof.Machine
end

