-- ==== Sys2Proof/Machine/Talkback.lean ====
section
/-!
DEFINITION. The talkback unit (06_talkback.md): serving order, grants, hand-on, presses, releases, timeouts and removal.
-/
namespace Sys2Proof.Machine

/-- The limit in force as a grant limit in frames (R115). -/
def State.grantLimit (s : State) : Nat := s.talkLimit * 48000

/-- A slot becomes the talker, its timer at 0 (R108, R112). -/
def BusRec.grant (limit : Nat) (sl : SlotId) (b : BusRec) : BusRec :=
  { b with talker := some sl, timer := some { count := 0, limit := limit } }

/-- Place a queued press: after every entry of an equal or higher class, before every entry of a lower one (R107). -/
def placeQueued (cls : SlotId → Nat) (sl : SlotId) : List SlotId → List SlotId
  | [] => [sl]
  | x :: xs => if cls sl ≤ cls x then x :: placeQueued cls sl xs else sl :: x :: xs

/-- Place a preempted talker: after every entry of a higher class, before every entry of an equal or lower one (R107). -/
def placePreempted (cls : SlotId → Nat) (sl : SlotId) : List SlotId → List SlotId
  | [] => [sl]
  | x :: xs => if cls sl < cls x then x :: placePreempted cls sl xs else sl :: x :: xs

/-- Re-order a list by class, higher first, entries of one class keeping their order (R107). -/
def reorder (cls : SlotId → Nat) : List SlotId → List SlotId
  | [] => []
  | x :: xs => placePreempted cls x (reorder cls xs)

/-- The talker is removed and the bus handed on to the head of the list (R108). -/
def BusRec.handOn (limit : Nat) (b : BusRec) : BusRec :=
  match b.waiting with
  | [] => { b with talker := none, timer := none }
  | x :: xs => { b with talker := some x, timer := some { count := 0, limit := limit }, waiting := xs }

/-- A press that passed R111: the record after it and the answer (R112). -/
def BusRec.press (cls : SlotId → Nat) (limit : Nat) (sl : SlotId) (b : BusRec) : BusRec × Result :=
  if b.talker = some sl then (b, .granted)
  else if sl ∈ b.waiting then (b, .queued)
  else match b.talker with
    | none => (b.grant limit sl, .granted)
    | some t =>
      if cls t < cls sl then ({ b with waiting := placePreempted cls t b.waiting }.grant limit sl, .granted)
      else ({ b with waiting := placeQueued cls sl b.waiting }, .queued)

/-- A release: the record after it and the answer (R114). -/
def BusRec.release (limit : Nat) (sl : SlotId) (b : BusRec) : BusRec × Result :=
  if b.talker = some sl then (b.handOn limit, .done)
  else if sl ∈ b.waiting then ({ b with waiting := b.waiting.filter (· ≠ sl) }, .done)
  else (b, .tooLate)

/-- A slot that leaves ACTIVE is taken off a bus and its notice cleared (R119). -/
def BusRec.remove (limit : Nat) (sl : SlotId) (b : BusRec) : BusRec :=
  { (b.release limit sl).1 with notices := b.notices.set sl false }

/-- The slot is removed from both buses (R119). -/
def State.leaveBuses (sl : SlotId) (s : State) : State :=
  { s with buses := { tb1 := s.buses.tb1.remove s.grantLimit sl, tb2 := s.buses.tb2.remove s.grantLimit sl } }

/-- A talk timer that has reached a grant limit other than 0 has expired (R116). -/
def BusRec.expired (b : BusRec) : Bool :=
  match b.timer with
  | some t => decide (t.limit ≠ 0) && decide (t.limit ≤ t.count)
  | none => false

/-- TALK_TIMEOUT: the talker is removed, the bus handed on, the notice set (R116). -/
def BusRec.timeout (limit : Nat) (b : BusRec) : BusRec :=
  match b.talker with
  | some t => if b.expired then { b.handOn limit with notices := b.notices.set t true } else b
  | none => b

/-- The count of a talk timer stays at 12,240,000 once there (R115). -/
def talkTimerTop : Nat := 12240000

/-- A talk timer counts a frame (R115). -/
def BusRec.tick (b : BusRec) : BusRec :=
  { b with timer := b.timer.map fun t => { t with count := if t.count < talkTimerTop then t.count + 1 else t.count } }

/-- After a class change each list that holds the slot is re-ordered; a list that does not is in order already (R107, R120). -/
def State.reorderBuses (sl : SlotId) (s : State) : State :=
  let f := fun b : BusRec => if sl ∈ b.waiting then { b with waiting := reorder s.talkClassOf b.waiting } else b
  { s with buses := { tb1 := f s.buses.tb1, tb2 := f s.buses.tb2 } }

/-- The bus a request names: 1 for TB1, 2 for TB2 (6.3). -/
def busOf (n : Nat) : Option Bus := if n = 1 then some .tb1 else if n = 2 then some .tb2 else none

/-- TALK-PRESS; a bus that does not exist is answered before a slot that is not ACTIVE (R111, R112; order: DEDUCED, log 22). -/
def State.talkPress (sl : SlotId) (n : Nat) (s : State) : State × Result :=
  match busOf n with
  | none => (s, .badValue)
  | some b =>
    if s.slotState sl ≠ .active then (s, .notAvailable)
    else
      let r := (s.bus b).press s.talkClassOf s.grantLimit sl
      (s.modBus b fun _ => r.1, r.2)

/-- TALK-RELEASE (R111, R114). -/
def State.talkRelease (sl : SlotId) (n : Nat) (s : State) : State × Result :=
  match busOf n with
  | none => (s, .badValue)
  | some b =>
    let r := (s.bus b).release s.grantLimit sl
    (s.modBus b fun _ => r.1, r.2)

/-- A slot's talk source in a frame, given the stage talk input's sample (R109). -/
def State.talkSource (s : State) (stageTalk : Sample) : SlotId → Sample
  | .panel => stageTalk
  | .desk d => (s.slot d).samples.talk

/-- The bus sample of a frame (R110). -/
def State.busSample (s : State) (stageTalk : Sample) (b : Bus) : Sample :=
  match (s.bus b).talker with
  | some sl => s.talkSource stageTalk sl
  | none => 0

/-- The bus has a talker (R85, R110). -/
def State.hasTalker (s : State) (b : Bus) : Bool := (s.bus b).talker.isSome

/-- TALK_TIMEOUT (R116). -/
def execTalkTimeout (b : Bus) (s : State) : Host.Outcome State Fault Refusal :=
  live (fun s => s.modBus b (BusRec.timeout s.grantLimit)) s

end Sys2Proof.Machine
end

