-- ==== Sys2Proof/Machine/Reports.lean ====
section
/-!
DEFINITION. Digests (R183, R184, R188) and metering (08_metering.md): codes, over sets, meter reports and the period end.
-/
namespace Sys2Proof.Machine

/-! ## Digests (R184, R188) -/

/-- An absent slot or port is sent as FFh (R188). -/
def absentByte : Byte := 0xFF#8

/-- A slot or its absence (R188). -/
def slotByte (sl : Option SlotId) : Byte :=
  match sl with
  | some x => BitVec.ofNat 8 x.number
  | none => absentByte

/-- A port or its absence (R188). -/
def portByte (p : Option LinkPort) : Byte :=
  match p with
  | some x => BitVec.ofNat 8 x.code
  | none => absentByte

/-- Port state codes (R188). -/
def PortState.code : PortState → Nat
  | .dark => 0
  | .seeking => 1
  | .locked => 2
  | .errored => 3

/-- Slot state codes (R188). -/
def SlotState.code : SlotState → Nat
  | .vacant => 0
  | .active => 1
  | .silent => 2

/-- Concealment state codes (R188). -/
def Conceal.code : Conceal → Nat
  | .none => 0
  | .fadingOut => 1
  | .silentGap => 2
  | .fadingIn => 3

/-- Role codes (R188). -/
def Role.code : Role → Nat
  | .front => 0
  | .monitor => 1
  | .general => 2

/-- Batch state codes (R188). -/
def BatchState.code : BatchState → Nat
  | .none => 0
  | .opened => 1
  | .sealed => 2

/-- A port's five bytes (R188). -/
def Port.digest (p : Port) : List Byte :=
  [BitVec.ofNat 8 p.state.code, BitVec.ofNat 8 p.lightCode, flagByte p.lowLight] ++ be16 p.lastWindowCount

/-- Milliseconds left on the grace timer of a SILENT slot, else 0 (R184). -/
def Slot.graceLeft (r : Slot) : Nat :=
  match r.grace with
  | some t => if r.state = .silent then (t.limit - t.count) / 48 else 0
  | none => 0

/-- A desk slot's 17 bytes; `x` is what stands for the role of a VACANT slot (R188; log 27). -/
def Slot.digest (x : Byte) (r : Slot) : List Byte :=
  [BitVec.ofNat 8 r.state.code] ++ be48 (r.ident.getD 0) ++
    [match r.role with
      | some role => BitVec.ofNat 8 role.code
      | none => x,
     portByte r.bound[0]?, portByte r.bound[1]?, portByte r.active, BitVec.ofNat 8 r.conceal.code] ++
    be16 r.switchovers ++ [BitVec.ofNat 8 r.talkClass] ++ be16 r.graceLeft

/-- A domain's four bytes as a recipient sees them: the trespass record is the owner's alone (R169, R188). For the flag and the count
that are withheld the model sends 0, for the trespasser FFh (DESIGN CHOICE, log 44; R184). -/
def Domain.digest (recipient : SlotId) (d : Domain) : List Byte :=
  if d.owner = some recipient then [slotByte d.owner, flagByte d.trespass, slotByte d.trespasser, BitVec.ofNat 8 d.count]
  else [slotByte d.owner, 0#8, absentByte, 0#8]

/-- Milliseconds until the talk timer expires, or FFFFFFFFh (R121, R188). -/
def BusRec.msLeft (b : BusRec) : Nat :=
  match b.timer with
  | some t => if t.limit = 0 then 0xFFFFFFFF else (t.limit - t.count) / 48
  | none => 0xFFFFFFFF

/-- The place of a slot in a list, from 1, or 0 (R121). -/
def placeOf (sl : SlotId) : List SlotId → Nat
  | [] => 0
  | x :: xs => if x = sl then 1 else (match placeOf sl xs with | 0 => 0 | n + 1 => n + 2)

/-- A recipient's status on a bus: 0 NONE, 1 GRANTED, 2 QUEUED (R121, R188). -/
def BusRec.statusOf (recipient : SlotId) (b : BusRec) : Nat :=
  if b.talker = some recipient then 1 else if recipient ∈ b.waiting then 2 else 0

/-- A bus's 14 bytes; `x j` stands for the class of the absent waiting entry `j` (R121, R188; log 27). -/
def BusRec.digest (cls : SlotId → Nat) (x : Nat → Byte) (recipient : SlotId) (b : BusRec) : List Byte :=
  let classByte := fun j => match b.waiting[j]? with
    | some w => BitVec.ofNat 8 (cls w)
    | none => x j
  [slotByte b.talker, slotByte b.waiting[0]?, slotByte b.waiting[1]?, slotByte b.waiting[2]?, classByte 0, classByte 1,
    classByte 2] ++ be32 b.msLeft ++
    [BitVec.ofNat 8 (b.statusOf recipient), BitVec.ofNat 8 (placeOf recipient b.waiting), flagByte (b.notices.get recipient)]

/-- A set of flags as a number: flag `i` in bit `i`. -/
def bitsOf : List Bool → Nat
  | [] => 0
  | b :: bs => (if b then 1 else 0) + 2 * bitsOf bs

/-- The set of inputs whose cell in a column is LIMITED, as eight bytes (R81, R188). -/
def State.limitedMap (s : State) (col : Fin 4) : List Byte :=
  let n := bitsOf (s.comp.map fun ic => (ic.cells.get col).limited)
  be32 (n / 4294967296) ++ be32 n

/-- The requests-dropped flag of a slot; the panel has none (R173). -/
def State.droppedFlag (s : State) : SlotId → Bool
  | .panel => false
  | .desk d => (s.lane d).dropped

/-- The card presence byte: card c in bit c − 1 (R188). -/
def State.cardPresence (s : State) : Nat := bitsOf (s.cards.map Card.present)

/-- The admission wait list's four bytes, oldest first (R188). -/
def State.waitBytes (s : State) : List Byte :=
  [portByte s.waitList[0]?, portByte s.waitList[1]?, portByte s.waitList[2]?, portByte s.waitList[3]?]

/-- The over set's seven bytes (R188). -/
def OverSet.bytes (o : OverSet) : List Byte := [BitVec.ofNat 8 (o.mixes.toNat / 65536)] ++ be16 o.mixes.toNat ++ be32 o.outs.toNat

/-- The 204 bytes of a digest for a recipient (R184, R188). -/
def State.digestBody (recipient : SlotId) (s : State) : List Byte :=
  let x := Config.unstatedByte s.free
  let b := s.batch recipient
  be16 s.meter.periodCount.toNat ++ [BitVec.ofNat 8 recipient.number, flagByte (s.droppedFlag recipient)] ++
    be16 s.config.status.toNat ++ [BitVec.ofNat 8 s.cardPresence, flagByte s.allGood] ++
    s.ports.a.digest ++ s.ports.b.digest ++ s.ports.c.digest ++ s.ports.d.digest ++
    s.slots.d1.digest (x 0) ++ s.slots.d2.digest (x 1) ++ s.slots.d3.digest (x 2) ++
    [BitVec.ofNat 8 s.panelClass] ++ s.waitBytes ++ (s.domains.map (Domain.digest recipient)).flatten ++
    [BitVec.ofNat 8 b.state.code] ++ be16 b.staged.length ++ be16 b.dropped ++
    s.buses.tb1.digest s.talkClassOf (fun j => x (3 + j)) recipient ++
    s.buses.tb2.digest s.talkClassOf (fun j => x (6 + j)) recipient ++
    (s.overs.get recipient).bytes ++
    (match recipient with
      | .panel => List.replicate 8 0#8
      | .desk d => s.limitedMap d.column) ++ s.limitedMap 0

/-- A bus's timeout notice of a slot is cleared. -/
def BusRec.clearNotice (sl : SlotId) (b : BusRec) : BusRec := { b with notices := b.notices.set sl false }

/-- Building a digest clears the notices it carries and draws one free value (R121, R173, R183; log 27). -/
def State.clearNotices (sl : SlotId) (s : State) : State :=
  let s1 := { s with buses := { tb1 := s.buses.tb1.clearNotice sl, tb2 := s.buses.tb2.clearNotice sl }, free := s.free + 1 }
  match sl with
  | .panel => s1
  | .desk d => s1.modLane d fun l => { l with dropped := false }

/-- A digest is built for a slot: a desk slot's becomes its pending digest, the panel's is offered to the panel queue (R183). -/
def State.buildDigest (sl : SlotId) (s : State) : State :=
  let body := s.digestBody sl
  let s1 := s.clearNotices sl
  match sl with
  | .panel => s1.offerPanel PanelMsg.isDigest (.digest body)
  | .desk d => s1.modLane d fun l => { l with tx := { l.tx with pendingDigest := some body } }

/-- A digest for each slot that is ACTIVE, the panel included (R183). -/
def State.buildDigests (s : State) : State :=
  State.foldOver (fun sl s => if s.slotState sl = .active then s.buildDigest sl else s) SlotId.all s

/-- DIGEST_CADENCE: due once at every tenth period end (R183). -/
def State.digestCadence (s : State) : State :=
  if s.boundary.digestDue then
    State.buildDigests { s with boundary := { s.boundary with digestDue := false } }
  else s

/-! ## Meter codes (R144) -/

/-- CLIP, NO_SOURCE, STALE and FAULT (R144). -/
def codeClip : Nat := 240
def codeNoSource : Nat := 241
def codeStale : Nat := 242
def codeFault : Nat := 243

/-- The code of a view (R144). -/
def viewCode (link : Link) (clip : Bool) (peak : Nat) : Nat :=
  if link = .absent then codeNoSource else if clip then codeClip else if link = .fault then codeFault else levelCode peak

/-- The code of a mix (R144). -/
def mixCode (clip : Bool) (peak : Nat) : Nat := if clip then codeClip else levelCode peak

/-- The code of an output (R144). -/
def outputCode (noneAvailable clip : Bool) (peak : Nat) : Nat :=
  if noneAvailable then codeNoSource else if clip then codeClip else levelCode peak

/-- The code of a return (R144). -/
def returnCode (st : SlotState) (peak : Nat) : Nat :=
  if st = .vacant then codeNoSource else if st = .silent then codeStale else levelCode peak

/-- The view codes of a column, inputs 1 to 64 (R147). -/
def State.viewCodes (s : State) (col : Fin 4) : List Nat :=
  (List.range 64).map fun i =>
    viewCode (s.channel i).link ((nth s.meter.viewClips i { c0 := false, c1 := false, c2 := false, c3 := false }).get col)
      ((nth s.meter.viewPeaks i { c0 := 0, c1 := 0, c2 := 0, c3 := 0 }).get col)

/-- The mix codes (R147). -/
def State.mixCodes (s : State) : List Nat := (List.range 24).map fun m => mixCode (s.mix m).clip (nth s.meter.mixPeaks m 0)

/-- The output codes (R147). -/
def State.outputCodes (s : State) : List Nat :=
  (List.range 32).map fun o => outputCode (nth s.meter.outNone o true) (s.output o).clip (nth s.meter.outPeaks o 0)

/-- The return codes of a desk slot (R147). -/
def State.returnCodes (s : State) (d : Desk) : List Nat := (s.meter.returnPeaks.get d).map (returnCode (s.slot d).state)

/-- The 170 bytes of a slot's meter report; `count` is the period count after the period end (R147). -/
def State.meterBody (s : State) (count : Word) (sl : SlotId) : List Byte :=
  be16 count.toNat ++
    ((match sl with
      | .panel => s.viewCodes 0
      | .desk d => s.viewCodes d.column) ++
      s.mixCodes ++ s.outputCodes ++ s.returnCodes .d1 ++ s.returnCodes .d2 ++ s.returnCodes .d3).map (BitVec.ofNat 8)

/-! ## Over sets and the period end (R139, R143, R145) -/

/-- The streams whose clip indication is set, as a set (R143 step 3). -/
def State.clipped (s : State) : OverSet :=
  { mixes := BitVec.ofNat 24 (bitsOf (s.mixes.map Mix.clip)), outs := BitVec.ofNat 32 (bitsOf (s.outputs.map Output.clip)) }

/-- A set gains members; one already there stays (R145). -/
def OverSet.join (x y : OverSet) : OverSet := { mixes := x.mixes ||| y.mixes, outs := x.outs ||| y.outs }

/-- Every slot's over set gains the period's clips (R143, R145). -/
def markOvers (c : OverSet) (o : PerSlot OverSet) : PerSlot OverSet :=
  { panel := o.panel.join c, desks := o.desks.map fun _ x => x.join c }

/-- The reports of a period: each ACTIVE desk slot's becomes its pending report; the panel's is offered while its enable is on
(R148, R150). -/
def State.handReports (count : Word) (src s : State) : State :=
  let s1 := State.foldOver (fun d s =>
    if (src.slot d).state = .active then
      s.modLane d fun l => { l with tx := { l.tx with pendingMeter := some (src.meterBody count (.desk d)) } }
    else s) Desk.all s
  if src.meter.panelOn then s1.offerPanel PanelMsg.isMeter (.meter (src.meterBody count .panel)) else s1

/-- Every peak back to 0 and every clip indication clear (R143 step 5). -/
def State.clearMeters (s : State) : State :=
  { s with
    meter := { s.meter with viewPeaks := Meter.reset.viewPeaks, mixPeaks := Meter.reset.mixPeaks,
                            outPeaks := Meter.reset.outPeaks, returnPeaks := Meter.reset.returnPeaks,
                            viewClips := Meter.reset.viewClips },
    mixes := s.mixes.map fun m => { m with clip := false },
    outputs := s.outputs.map fun o => { o with clip := false } }

/-- METER_PERIOD_END: taken once at each boundary (R139, R143). Codes and reports come from the state before the marks and peaks
change. At every tenth end a digest cadence falls due (R183). -/
def State.meterPeriodEnd (s : State) : State :=
  if s.boundary.opened ∧ s.boundary.ended = false then
    let count := s.meter.periodCount + 1
    let tenth := s.meter.tenth + 1
    let s1 := s.handReports count s
    let s2 := { s1 with overs := markOvers s.clipped s1.overs }
    let s3 := s2.clearMeters
    { s3 with
      meter := { s3.meter with periodCount := count, frames := 0, tenth := if tenth < 10 then tenth else 0 },
      boundary := { s3.boundary with ended := true, digestDue := decide (10 ≤ tenth) } }
  else s

/-- A desk slot is admitted: its return peaks return to 0 and its over set is emptied (R140, R145). -/
def State.meterAdmission (d : Desk) (s : State) : State :=
  { s with meter := { s.meter with returnPeaks := s.meter.returnPeaks.set d (List.replicate 16 0) },
           overs := s.overs.set (.desk d) OverSet.empty }

/-! ## Commands -/

/-- METER_PERIOD_END (R143). -/
def execMeterPeriodEnd (s : State) : Host.Outcome State Fault Refusal := live State.meterPeriodEnd s

/-- DIGEST_CADENCE (R183). -/
def execDigestCadence (s : State) : Host.Outcome State Fault Refusal := live State.digestCadence s

end Sys2Proof.Machine
end

