-- ==== Sys2Proof/Machine/Attachment.lean ====
section
/-!
DEFINITION. The attachment unit (02_attachments_and_path_redundancy.md): admission, binding, switchover, concealment, SILENT, revival, VACANT, and what other blocks are told.
-/
namespace Sys2Proof.Machine

/-! ## Looking up the table -/

/-- The desk slot a port is bound to. -/
def State.boundTo (s : State) (p : LinkPort) : Option Desk := Desk.all.find? fun d => decide (p ∈ (s.slot d).bound)

/-- The desk slot in ACTIVE or SILENT that holds an identifier (R25). -/
def State.deskOf (s : State) (x : DeskId) : Option Desk :=
  Desk.all.find? fun d => decide ((s.slot d).state ≠ .vacant ∧ (s.slot d).ident = some x)

/-- The lowest-numbered VACANT desk slot (R26). -/
def State.firstVacant (s : State) : Option Desk := Desk.all.find? fun d => decide ((s.slot d).state = .vacant)

/-- The bound port of a slot that is not the given one. -/
def Slot.otherThan (r : Slot) (p : LinkPort) : Option LinkPort := r.bound.find? (· ≠ p)

/-- The first surplus port of an identity: unbound, LOCKED or ERRORED, carrying it; in the order A to D (R28). -/
def State.surplusPort (s : State) (x : Option DeskId) : Option LinkPort :=
  LinkPort.all.find? fun q => decide ((s.boundTo q).isNone ∧ (s.port q).usable ∧ (s.port q).identSeen = x)

/-- The alignment buffer's answer to a query for a number (R14). -/
def Port.query (r : Port) (n : Word) : Option StageFrame := r.buffer.find? fun f => decide (f.number = n)

/-! ## Concealment (R33, R34) -/

/-- A fade-out begins with the present slot samples as fade origins; its first faded sample falls in the next period (R33). -/
def Slot.startFade (r : Slot) : Slot := { r with origin := r.samples, conceal := .fadingOut, step := 0, produced := true }

/-- The slot samples of step `n` of a fade-out (R33). -/
def Slot.fadeOutSamples (r : Slot) (n : Nat) : Audio := r.origin.map fun x => share x (64 - n) 64

/-- The slot takes a delivery: `valid` says it carries a valid frame's content (R30, R33, R34). -/
def Slot.takeAudio (x : Audio) (valid : Bool) (r : Slot) : Slot :=
  match r.conceal with
  | .none => { r with samples := x, produced := true }
  | .fadingOut => { r with step := r.step + 1, samples := r.fadeOutSamples (r.step + 1), produced := true }
  | .silentGap =>
    if valid then { r with conceal := .fadingIn, step := 1, samples := x.map fun v => share v 1 64, produced := true }
    else { r with samples := Audio.silent, produced := true }
  | .fadingIn => { r with step := r.step + 1, samples := x.map fun v => share v (r.step + 1) 64, produced := true }

/-- A frame period in which the slot takes no delivery (R30, R33, R38; log 18). -/
def Slot.idlePeriod (r : Slot) : Slot :=
  match r.state, r.conceal with
  | .vacant, _ => { r with samples := Audio.silent }
  | _, .none => r
  | _, .fadingOut => { r with step := r.step + 1, samples := r.fadeOutSamples (r.step + 1) }
  | _, .silentGap => { r with samples := Audio.silent }
  | _, .fadingIn => r

/-! ## Switchover (R31 to R36) -/

/-- The frame a hitless switch to a port would return: the concealment state is NONE, a last frame taken is present and the port
holds the frame after it (R32). -/
def State.hitlessFrame (s : State) (d : Desk) (q : LinkPort) : Option StageFrame :=
  if (s.slot d).conceal = .none then
    match (s.slot d).lastTaken with
    | some n => (s.port q).query (n + 1)
    | none => none
  else none

/-- A switchover to the other bound port: counted, hitless if the port holds the frame that follows, else concealed (R31 to R33,
R36). The frame returned is taken in this period if the slot has taken none, else in the next (R32; log 15). -/
def State.switchover (d : Desk) (q : LinkPort) (s : State) : State :=
  let s1 := s.modSlot d fun r => { r with active := some q, switchovers := satAdd 65535 r.switchovers 1 }
  match s.hitlessFrame d q with
  | some f => s1.modPort q fun r => { r with bufLast := some f.number, captured := some f, skip := !r.frameSeen }
  | none => (s1.modLane d fun l => { l with receiver := none }).modSlot d Slot.startFade

/-- An ACTIVE slot, not concealing, whose active path is ERRORED switches to its other port if that is LOCKED (R31, R35). -/
def State.recheck (d : Desk) (s : State) : State :=
  let r := s.slot d
  match r.active with
  | some p =>
    match r.otherThan p with
    | some q =>
      if r.state = .active ∧ r.conceal = .none ∧ (s.port p).state = .errored ∧ (s.port q).state = .locked then s.switchover d q
      else s
    | none => s
  | none => s

/-- An ACTIVE slot becomes SILENT; its audio fades, its grace timer starts, and the other blocks are told (R38, R42, R119, R168,
R174). -/
def State.becomeSilent (d : Desk) (s : State) : State :=
  let s1 := s.modSlot d fun r =>
    let r1 := if r.conceal = .silentGap then r else r.startFade
    { r1 with state := .silent, active := none, grace := some { count := 0, limit := s.graceTime * 48 } }
  (((s1.modLane d Lane.silence).leaveBuses (.desk d)).discardBatch (.desk d)).returnsLost d

/-- A revived slot takes the locking frame as a delivery of this frame period; in SILENT_GAP that frame also makes the period's
samples, in a fade-out that began in this period they stand (R40; log 14). -/
def Slot.revived (p : LinkPort) (r : Slot) : Slot :=
  { r with state := .active, active := some p, grace := none, taken := false,
           produced := if r.conceal = .silentGap then false else r.produced }

/-- A SILENT slot is revived on a port that locked with its identifier (R40, R42, R183). -/
def State.revive (d : Desk) (p : LinkPort) (s : State) : State :=
  ((s.modSlot d (Slot.revived p)).returnsRegained d).buildDigest (.desk d)

/-! ## Binding and admission (R24 to R29) -/

/-- Of two ports the one with the greater loss age, the later of A to D when they are equal (R25). -/
def State.olderLoss (s : State) (p q : LinkPort) : LinkPort :=
  if (s.port p).lossAge < (s.port q).lossAge then q
  else if (s.port q).lossAge < (s.port p).lossAge then p
  else if p.code < q.code then q else p

/-- The bound port to unbind for a locking one, from those in DARK or SEEKING (R25). -/
def State.toUnbind (s : State) (r : Slot) : Option LinkPort :=
  match r.bound.filter fun q => !(s.port q).usable with
  | [] => none
  | q :: rest => some (rest.foldl s.olderLoss q)

/-- A port takes another's place in a slot's bound list. -/
def Slot.replaceBound (p q : LinkPort) (r : Slot) : Slot := { r with bound := r.bound.map fun x => if x = p then q else x }

/-- Step 1: a port that carries a slot's identifier is bound to it if there is a place, and the slot revived or tested (R25). -/
def State.bindStep1 (d : Desk) (p : LinkPort) (s : State) : State :=
  let r := s.slot d
  let after := fun t : State => if r.state = .silent then t.revive d p else t.recheck d
  if r.bound.length < 2 then after (s.modSlot d fun r => { r with bound := r.bound ++ [p] })
  else
    match s.toUnbind r with
    | some q => after (s.modSlot d (Slot.replaceBound q p))
    | none => s

/-- Another desk slot in ACTIVE or SILENT holds MONITOR (R26). -/
def State.monitorHeld (s : State) (d : Desk) : Bool :=
  Desk.all.any fun e => decide (e ≠ d ∧ (s.slot e).state ≠ .vacant ∧ (s.slot e).role = some .monitor)

/-- The talk class a role gives (R26). -/
def Role.talkClass : Role → Nat
  | .monitor => 3
  | .front => 2
  | .general => 1

/-- Step 2: a VACANT slot admits a port; every waiting port of the same identity is bound to it, oldest first; the other blocks are
told (R26, R42, R140, R145, R173, R183). -/
def State.enroll (d : Desk) (p : LinkPort) (x : DeskId) (asked : Role) (s : State) : State :=
  let role : Role := if asked = .monitor ∧ s.monitorHeld d then .general else asked
  let same := s.waitList.filter fun q => decide (q ≠ p ∧ (s.port q).identSeen = some x)
  let s1 := s.modSlot d fun _ =>
    { Slot.reset with state := .active, ident := some x, role := some role, bound := [p], active := some p,
                      talkClass := role.talkClass }
  let s2 := { s1 with waitList := s.waitList.filter fun q => decide (q ≠ p ∧ (s.port q).identSeen ≠ some x) }
  let s3 := ((s2.modLane d fun l => { l with dropped := false }).meterAdmission d).returnsRegained d
  (State.foldOver (State.bindStep1 d) same s3).buildDigest (.desk d)

/-- The answer to a lock event of an unbound port: step 1, step 2 or step 3 (R25 to R27). -/
def State.lockUnbound (p : LinkPort) (x : DeskId) (asked : Role) (s : State) : State :=
  match s.deskOf x with
  | some d => s.bindStep1 d p
  | none =>
    match s.firstVacant with
    | some d => s.enroll d p x asked
    | none => if p ∈ s.waitList then s else { s with waitList := s.waitList ++ [p] }

/-- A lock event (R24). -/
def State.lockEvent (p : LinkPort) (x : DeskId) (asked : Role) (s : State) : State :=
  match s.boundTo p with
  | some d =>
    if (s.slot d).ident = some x then (if (s.slot d).state = .silent then s.revive d p else s.recheck d)
    else (s.modSlot d fun r => { r with bound := r.bound.filter (· ≠ p) }).lockUnbound p x asked
  | none => s.lockUnbound p x asked

/-! ## Events of bound ports (R28, R31, R35) -/

/-- The loss of a slot's active path is answered with its other bound port, or the slot becomes SILENT (R31, R35). -/
def State.loseActive (d : Desk) (other : Option LinkPort) (s : State) : State :=
  match other with
  | some q => if (s.port q).usable then s.switchover d q else s.becomeSilent d
  | none => s.becomeSilent d

/-- A loss event: a listed port leaves the wait list; a surplus port takes a bound port's place; an active path is answered
(R27, R28, R31, R35). -/
def State.lossEvent (p : LinkPort) (s : State) : State :=
  let s0 := { s with waitList := s.waitList.filter (· ≠ p) }
  match s0.boundTo p with
  | none => s0
  | some d =>
    let r := s0.slot d
    let surplus := s0.surplusPort r.ident
    let s1 := match surplus with
      | some q => s0.modSlot d (Slot.replaceBound p q)
      | none => s0
    if r.state = .active ∧ r.active = some p then s1.loseActive d (r.otherThan p)
    else if surplus.isSome then s1.recheck d else s1

/-- An errored event: on the active path of a slot not concealing, with the other port LOCKED, a switchover (R31, R35). A recovered
event is the same test from the other side. -/
def State.qualityEvent (p : LinkPort) (s : State) : State :=
  match s.boundTo p with
  | some d => s.recheck d
  | none => s

/-! ## Ends of fades, grace expiry (R33, R35, R41) -/

/-- FADE_OUT_END: after step 64 the state becomes SILENT_GAP (R33; step there: log 19). -/
def State.fadeOutEnd (d : Desk) (s : State) : State :=
  if (s.slot d).conceal = .fadingOut ∧ 64 ≤ (s.slot d).step then s.modSlot d fun r => { r with conceal := .silentGap, step := 0 }
  else s

/-- FADE_IN_END: after step 64 the state becomes NONE, and a deferred switch is tested at once (R34, R35). -/
def State.fadeInEnd (d : Desk) (s : State) : State :=
  if (s.slot d).conceal = .fadingIn ∧ 64 ≤ (s.slot d).step then
    (s.modSlot d fun r => { r with conceal := .none, step := 0 }).recheck d
  else s

/-- The oldest waiting port is admitted to a slot that has become VACANT (R27, R41). -/
def State.admitWaiting (d : Desk) (s : State) : State :=
  match s.waitList with
  | p :: _ =>
    match (s.port p).identSeen, (s.port p).roleSeen with
    | some x, some role => s.enroll d p x role
    | _, _ => s
  | [] => s

/-- A slot becomes VACANT, releasing everything it held (R41, R42, R80, R160, R172). -/
def State.vacate (d : Desk) (s : State) : State :=
  let s1 := s.modSlot d fun _ => Slot.reset
  (((s1.modLane d Lane.vacate).freeDomainsOf (.desk d)).resetColumn d.column).admitWaiting d

/-- GRACE_EXPIRY: the grace timer of a SILENT slot has reached its length (R39, R41). -/
def State.graceExpiry (d : Desk) (s : State) : State :=
  match (s.slot d).grace with
  | some t => if (s.slot d).state = .silent ∧ t.limit ≤ t.count then s.vacate d else s
  | none => s

/-! ## Path choice by request (R37) -/

/-- PATH-PREFER for a slot and a bound port of it (R37). -/
def State.preferFor (d : Desk) (p : LinkPort) (s : State) : State × Result :=
  let r := s.slot d
  if p ∉ r.bound then (s, .notAvailable)
  else if r.active = some p then (s, .done)
  else if (s.port p).state ≠ .locked then (s, .notAvailable)
  else if r.conceal ≠ .none then (s, .busy)
  else (s.switchover d p, .done)

/-- PATH-PREFER (R37, 10.4): from a desk slot on its own slot, from the panel on the slot the port is bound to. -/
def State.pathPrefer (sl : SlotId) (code : Nat) (s : State) : State × Result :=
  match LinkPort.ofCode code with
  | none => (s, .badValue)
  | some p =>
    match sl with
    | .desk d => s.preferFor d p
    | .panel =>
      match s.boundTo p with
      | some d => s.preferFor d p
      | none => (s, .notAvailable)

/-! ## Commands -/

/-- FADE_OUT_END (R33). -/
def execFadeOutEnd (d : Desk) (s : State) : Host.Outcome State Fault Refusal := live (State.fadeOutEnd d) s

/-- GRACE_EXPIRY (R41). -/
def execGraceExpiry (d : Desk) (s : State) : Host.Outcome State Fault Refusal := live (State.graceExpiry d) s

end Sys2Proof.Machine
end

