-- ==== Sys2Proof/Machine/FrontEnd.lean ====
section
/-!
DEFINITION. The front-end controller (03_preamp_front_end.md): desired writes, the card-line queue, card slots, exchanges, markers, holds, retries, polls, departure and return.
-/
namespace Sys2Proof.Machine

/-! ## The card-line queue and the desired setting (R50 to R52) -/

/-- Append an entry for a channel to the card-line queue; its operation becomes QUEUED (R51, R52). -/
def State.queueChannel (i : Fin 64) (s : State) : State :=
  { s.modChannel i fun c => { c with op := .queued } with cardQueue := s.cardQueue ++ [i] }

/-- Queue an IDLE channel whose desired setting differs from its applied setting. -/
def State.queueIfDiffers (i : Fin 64) (s : State) : State :=
  if (s.channel i).op = .idle ∧ (s.channel i).desired ≠ (s.channel i).applied then s.queueChannel i else s

/-- Queue a channel as above if its link state is READY (R51, R56, R57). -/
def State.queueIfReady (i : Fin 64) (s : State) : State := if (s.channel i).link = .ready then s.queueIfDiffers i else s

/-- A write of the desired setting: a change of it is acted on by link state and operation (R50, R51). -/
def State.writeDesired (i : Fin 64) (f : Setting → Setting) (s : State) : State :=
  if f (s.channel i).desired = (s.channel i).desired then s
  else (s.modChannel i fun c => { c with desired := f c.desired }).queueIfReady i

/-- A write of phantom on clears the phantom fault latch; a write of off leaves it (R50). -/
def State.writePhantom (i : Fin 64) (on : Bool) (s : State) : State :=
  (if on then s.modChannel i fun c => { c with latch := false } else s).writeDesired i fun x => { x with phantom := on }

/-! ## The course of a setting change (R53 to R59) -/

/-- Send a channel's command in this slot: its desired setting becomes the sent record and the exchange's content (R54). -/
def State.sendCommand (i : Fin 64) (s : State) : State :=
  let x := (s.channel i).desired
  { s.modChannel i fun c => { c with sent := some x, op := .inFlight, markerTimer := some 0,
                                      holdOwed := decide (x.phantom ≠ c.applied.phantom) } with
    line := { s.line with exchange := .setting i x } }

/-- The send list in a setting slot: the oldest channel with a closed gate is sent; those before it that need no exchange any
more leave the list (R53 step 1). Answers whether the slot is used. -/
def State.serveSendList : List (Fin 64) → State → State × Bool
  | [], s => (s, false)
  | i :: rest, s =>
    if (s.channel i).gate ≠ 0 then State.serveSendList rest s
    else
      let s1 := { s with sendList := s.sendList.filter (· ≠ i) }
      if (s.channel i).desired = (s.channel i).applied then
        State.serveSendList rest (s1.modChannel i fun c => { c with gateOpen := true, op := .idle })
      else (s1.sendCommand i, true)

/-- The card-line queue in a setting slot: heads are taken until one is sent or the queue is empty (R53 steps 2 and 3). -/
def State.serveQueue : List (Fin 64) → State → State
  | [], s => s
  | i :: rest, s =>
    let s1 := { s with cardQueue := s.cardQueue.filter (· ≠ i) }
    let c := s.channel i
    if c.desired = c.applied then State.serveQueue rest (s1.modChannel i fun c => { c with op := .idle })
    else if c.desired.phantom ≠ c.applied.phantom then
      State.serveQueue rest
        { s1.modChannel i fun c => { c with op := .muting, gateOpen := false } with sendList := s1.sendList ++ [i] }
    else s1.sendCommand i

/-- What a setting slot carries (R53). -/
def State.serveSetting (s : State) : State :=
  let r := s.serveSendList s.sendList
  if r.2 then r.1 else r.1.serveQueue r.1.cardQueue

/-- An operation ends after its exchange: into SETTLING if a hold is owed, else to IDLE with the gate opening, and a READY channel
whose settings differ is queued (R56, R58). -/
def State.endOperation (i : Fin 64) (s : State) : State :=
  if (s.channel i).holdOwed then
    s.modChannel i fun c => { c with op := .settling, holdOwed := false, holdTimer := some 0, gateOpen := false }
  else (s.modChannel i fun c => { c with op := .idle, gateOpen := true }).queueIfReady i

/-- No answer counted: the card has not acted and the operation ends without a marker (R54). A channel that is no longer IN_FLIGHT,
as after a marker that came before the slot's answer, stands as it is (DESIGN CHOICE, log 46). -/
def State.failExchange (i : Fin 64) (s : State) : State :=
  if (s.channel i).op = .inFlight then
    s.modChannel i fun c => { c with link := .fault, retryTimer := some 0, sent := none, holdOwed := false, markerTimer := none,
                                      gateOpen := true, op := .idle }
  else s

/-- The new effective gain goes to the compensation stage (R72, R76). -/
def State.handGain (i : Fin 64) (s : State) : State :=
  s.modComp i (InputComp.newGain (s.channel i).applied.effective)

/-- A gain-change marker: ignored unless the channel is IN_FLIGHT and its card PRESENT, else the operation completes
(R45, R55, R56). -/
def State.marker (i : Fin 64) (s : State) : State :=
  match (s.channel i).op, (s.channel i).sent with
  | .inFlight, some x =>
    if (s.card (i / 8)).present then
      ((s.modChannel i fun c =>
        { c with applied := x, sent := none, markerTimer := none, handOver := false,
                 link := if c.link = .fault then .ready else c.link,
                 retryTimer := if c.link = .fault then none else c.retryTimer }).handGain i).endOperation i
    else s
  | _, _ => s

/-- A timer that is running has reached a length. -/
def reached (t : Option Nat) (n : Nat) : Bool :=
  match t with
  | some k => decide (n ≤ k)
  | none => false

/-- MARKER_TIMEOUT: 960 frames without a marker end the operation in FAULT (R58). -/
def State.markerTimeout (i : Fin 64) (s : State) : State :=
  if (s.channel i).op = .inFlight ∧ reached (s.channel i).markerTimer 960 then
    (s.modChannel i fun c =>
      { c with link := .fault, retryTimer := some 0, sent := none, markerTimer := none }).endOperation i
  else s

/-- HOLD_END: 12,000 frames of SETTLING are over (R57). -/
def State.holdEnd (i : Fin 64) (s : State) : State :=
  if (s.channel i).op = .settling ∧ reached (s.channel i).holdTimer 12000 then
    (s.modChannel i fun c => { c with holdTimer := none, gateOpen := true, op := .idle }).queueIfReady i
  else s

/-- RETRY_TIMER_EXPIRY: a FAULT channel is offered again every 48,000 frames (R59). -/
def State.retryExpiry (i : Fin 64) (s : State) : State :=
  if (s.channel i).link = .fault ∧ reached (s.channel i).retryTimer 48000 then
    (s.modChannel i fun c => { c with retryTimer := some 0 }).queueIfDiffers i
  else s

/-! ## Polls (R60 to R63) -/

/-- Input 8c + k + 1 of card c + 1, counted from 0 (R44). -/
def cardInput (c k : Fin 8) : Fin 64 := ⟨8 * c.val + k.val, by omega⟩

/-- The eight channels of a card, in order. -/
def cardInputs (c : Fin 8) : List (Fin 64) :=
  [cardInput c 0, cardInput c 1, cardInput c 2, cardInput c 3, cardInput c 4, cardInput c 5, cardInput c 6, cardInput c 7]

/-- An overcurrent indication of a channel (R61). -/
def State.overcurrent (i : Fin 64) (s : State) : State :=
  let s1 := { s with cardQueue := s.cardQueue.filter (· ≠ i), sendList := s.sendList.filter (· ≠ i) }
  s1.modChannel i fun c =>
    let c1 := { c with desired := { c.desired with phantom := false }, applied := { c.applied with phantom := false },
                       latch := true, gateOpen := false }
    match c.op with
    | .inFlight => { c1 with sent := c.sent.map fun x => { x with phantom := false }, holdOwed := true }
    | .idle => { c1 with op := .settling, holdTimer := some 0 }
    | .queued => { c1 with op := .settling, holdTimer := some 0 }
    | .muting => { c1 with op := .settling, holdTimer := some 0 }
    | .settling => { c1 with holdTimer := some 0 }

/-- A channel of a card that becomes ABSENT (R62), and the event its input gives the output stage (R64, R125). -/
def State.departChannel (i : Fin 64) (s : State) : State :=
  let s1 := { s with cardQueue := s.cardQueue.filter (· ≠ i), sendList := s.sendList.filter (· ≠ i) }
  (s1.modChannel i fun c =>
    { c with link := .absent, op := .idle, sent := none, holdOwed := false, markerTimer := none, holdTimer := none,
             retryTimer := none, applied := { c.applied with phantom := false }, gate := 0, gateOpen := false,
             handOver := false }).sourceLost (inputBase + i)

/-- A channel of a card that becomes PRESENT (R63), and the event its input gives the output stage (R64, R125). -/
def State.returnChannel (i : Fin 64) (s : State) : State :=
  (s.modChannel i fun c =>
    { c with link := .ready, applied := Setting.rest, gateOpen := !c.desired.phantom, handOver := true }).sourceRegained
      (inputBase + i)

/-- A poll answer that counts (R60): the card returns, or its overcurrent indications are acted on. -/
def State.pollAnswer (card : Fin 8) (oc : BitVec 8) (s : State) : State :=
  match s.line.exchange with
  | .poll c rest =>
    if c = card then
      let s1 := { s.modCard c fun r => { r with unanswered := 0, present := true } with
                  line := { s.line with exchange := .none } }
      if rest then
        State.foldOver State.queueIfDiffers (cardInputs c) (State.foldOver State.returnChannel (cardInputs c) s1)
      else State.foldOver (fun k s => if oc.getLsbD k.val then s.overcurrent (cardInput c k) else s) [0, 1, 2, 3, 4, 5, 6, 7] s1
    else s
  | .setting _ _ => s
  | .none => s

/-- A poll without an answer that counts (R60, R62), at whichever frame of the slot its sender sends it while the exchange is
pending; else the start of the next slot takes it (DESIGN CHOICE, log 43). -/
def State.pollUnanswered (s : State) : State :=
  match s.line.exchange with
  | .poll c _ =>
    let n := if (s.card c).unanswered < 3 then (s.card c).unanswered + 1 else 3
    let departs := (s.card c).present && decide (n = 3)
    let s1 := { s.modCard c fun r => { r with unanswered := n, present := r.present && !departs } with
                line := { s.line with exchange := .none } }
    if departs then State.foldOver State.departChannel (cardInputs c) s1 else s1
  | .setting _ _ => s
  | .none => s

/-- A setting exchange without an answer that counts (R54), at whichever frame of the slot its sender sends it while the exchange is
pending; else the start of the next slot takes it (DESIGN CHOICE, log 43). -/
def State.settingNoAnswer (s : State) : State :=
  match s.line.exchange with
  | .setting i _ => { s with line := { s.line with exchange := .none } }.failExchange i
  | .poll _ _ => s
  | .none => s

/-- A setting answer counts only when it names the card position and channel of the command (R47, R54). -/
def State.settingAnswer (card channel : Fin 8) (s : State) : State :=
  match s.line.exchange with
  | .setting i _ => if i = cardInput card channel then { s with line := { s.line with exchange := .none } } else s
  | .poll _ _ => s
  | .none => s

/-! ## Card slots (R46) -/

/-- The slot is a poll slot: its number is a multiple of 10 (R46). -/
def CardLine.pollSlot (l : CardLine) : Bool := decide (l.slotNumber % 10 = 0)

/-- The card a poll slot polls, counted from 0 (R46). -/
def CardLine.pollCard (l : CardLine) : Fin 8 := ⟨(l.slotNumber / 10 + 7) % 8, Nat.mod_lt _ (by decide)⟩

/-- The exchange of the slot before ended without an answer (R47). -/
def State.settleExchange (s : State) : State := s.settingNoAnswer.pollUnanswered

/-- SETTING_SLOT, at the start of a setting slot (R53). -/
def State.settingSlot (s : State) : State :=
  if s.line.slotTaken = false ∧ s.line.pollSlot = false then
    let s1 := s.settleExchange
    State.serveSetting { s1 with line := { s1.line with slotTaken := true } }
  else s

/-- POLL_SLOT, at the start of a poll slot, which counts as begun from here on: an ABSENT card is polled with the rest request
(R46, R60). -/
def State.pollSlot (s : State) : State :=
  if s.line.slotTaken = false ∧ s.line.pollSlot = true then
    let s1 := s.settleExchange
    { s1 with line := { s1.line with slotTaken := true, pollsBegun := s1.line.pollsBegun + 1,
                                     exchange := .poll s1.line.pollCard (!(s1.card s1.line.pollCard).present) } }
  else s

/-- The card line counts a frame; after 48 the next slot begins, and at the end of the eighth poll slot since the reset every card
position has been polled (R46). An exchange that is still pending stays so until the next slot's start is taken: an answer taken at
the boundary between the two slots counts as one within the slot (DESIGN CHOICE, log 43; R47). -/
def CardLine.tick (l : CardLine) : CardLine :=
  if l.slotFrame + 1 < 48 then { l with slotFrame := l.slotFrame + 1 }
  else
    let n := l.slotNumber + 1
    { l with slotNumber := n, slotFrame := 0, slotTaken := false,
             polled := l.polled || (l.pollSlot && decide (8 ≤ l.pollsBegun)) }

/-! ## A channel in a frame (R45, R49, R57 to R59) -/

/-- The gate moves 1 toward its target (R49). -/
def Channel.moveGate (c : Channel) : Channel := { c with gate := stepNat (if c.gateOpen then 64 else 0) c.gate }

/-- The gated sample of an input (R45). -/
def Channel.gated (present : Bool) (laneSample : Sample) (c : Channel) : Sample :=
  if present then share laneSample c.gate 64 else 0

/-- A running timer counts a frame and stays at its length. -/
def tickTo (n : Nat) (t : Option Nat) : Option Nat := t.map fun k => if k < n then k + 1 else k

/-- The channel's timers count a frame (R57, R58, R59); a handed-over gain is no longer owed. -/
def Channel.tick (c : Channel) : Channel :=
  { c with markerTimer := tickTo 960 c.markerTimer, holdTimer := tickTo 12000 c.holdTimer,
           retryTimer := tickTo 48000 c.retryTimer, handOver := false }

/-! ## Commands -/

/-- GAIN_CHANGE_MARKER (R55). -/
def execGainChangeMarker (i : Fin 64) (s : State) : Host.Outcome State Fault Refusal := live (State.marker i) s

/-- SETTING_SLOT (R53). -/
def execSettingSlot (s : State) : Host.Outcome State Fault Refusal := live State.settingSlot s

/-- SETTING_ANSWER (R54). -/
def execSettingAnswer (card channel : Fin 8) (s : State) : Host.Outcome State Fault Refusal :=
  live (State.settingAnswer card channel) s

/-- SETTING_NO_ANSWER (R54). -/
def execSettingNoAnswer (s : State) : Host.Outcome State Fault Refusal := live State.settingNoAnswer s

/-- MARKER_TIMEOUT (R58). -/
def execMarkerTimeout (i : Fin 64) (s : State) : Host.Outcome State Fault Refusal := live (State.markerTimeout i) s

/-- HOLD_END (R57). -/
def execHoldEnd (i : Fin 64) (s : State) : Host.Outcome State Fault Refusal := live (State.holdEnd i) s

/-- RETRY_TIMER_EXPIRY (R59). -/
def execRetryTimerExpiry (i : Fin 64) (s : State) : Host.Outcome State Fault Refusal := live (State.retryExpiry i) s

/-- POLL_SLOT (R60). -/
def execPollSlot (s : State) : Host.Outcome State Fault Refusal := live State.pollSlot s

/-- POLL_ANSWER (R60). -/
def execPollAnswer (card : Fin 8) (oc : BitVec 8) (s : State) : Host.Outcome State Fault Refusal :=
  live (State.pollAnswer card oc) s

/-- POLL_UNANSWERED (R60). -/
def execPollUnanswered (s : State) : Host.Outcome State Fault Refusal := live State.pollUnanswered s

end Sys2Proof.Machine
end

