-- ==== Sys2Proof/Machine/MixEngine.lean ====
section
/-!
DEFINITION. The mix engine (05_monitor_mix_engine.md): ducking, the forming of a mix, the safe copy, and the ramp-step commands.
-/
namespace Sys2Proof.Machine

/-! ## Ducking (R94, R95) -/

/-- A talk bus whose crosspoint into the mix is ON has a talker (R94). -/
def Mix.talked (tb1 tb2 : Bool) (m : Mix) : Bool := ((m.xp 64).on && tb1) || ((m.xp 65).on && tb2)

/-- The duck target of a frame (R94). -/
def Mix.wantedDuck (tb1 tb2 : Bool) (m : Mix) : Int :=
  if m.master.on && m.talked tb1 tb2 then (if m.master.current - m.ceiling < 0 then 0 else m.master.current - m.ceiling) else 0

/-- The movement of the duck reduction toward the duck target in a frame (R95). -/
def Mix.moveDuck (m : Mix) : Mix :=
  if m.duck < m.duckTarget then { m with duck := m.duck + 1, release := 0 }
  else if m.duckTarget < m.duck then
    (if m.release + 1 < 32 then { m with release := m.release + 1 } else { m with duck := m.duck - 1, release := 0 })
  else { m with release := 0 }

/-! ## The mix in each frame (R92, R93) -/

/-- The sum of the samples of consecutive sources, each with its crosspoint's level (R93 steps 1 and 4). -/
def sumSources : List Level → List Sample → Int
  | l :: ls, x :: xs => l.apply x + sumSources ls xs
  | _, _ => 0

/-- The effective master: the current master less the duck reduction, at least −180 (R93 step 2). -/
def Mix.effectiveMaster (m : Mix) : Int :=
  if m.master.current - m.duck < -180 then -180 else m.master.current - m.duck

/-- The mix sample before saturation: program part plus talk sum (R93). -/
def Mix.sample (inputs : List Sample) (tb1 tb2 : Sample) (m : Mix) : Sample :=
  (if m.master.on then applyLevel m.effectiveMaster (sumSources (m.xps.take 64) inputs) else 0) +
    sumSources (m.xps.drop 64) [tb1, tb2]

/-- The ramps of a frame: every crosspoint, then the master (R92 step 1). -/
def Mix.rampAll (m : Mix) : Mix :=
  { m with xps := m.xps.map fun l => l.settled.ramp, master := m.master.settled.ramp }

/-- A mix whose duck reduction is as it was before a command of its own took the release step of the frame (log 3). -/
def Mix.settleDuck (m : Mix) : Mix :=
  match m.duckUndo with
  | some v => { m with duck := v, release := 31, duckUndo := none }
  | none => m

/-- The mix with the duck target of the frame to be formed, taken from the mix after the frame's ramps (R92 steps 1 and 2, R94). -/
def Mix.aimDuck (talk1 talk2 : Bool) (m : Mix) : Mix := { m with duckTarget := m.rampAll.wantedDuck talk1 talk2 }

/-- Steps 1 to 3 of R92: ramps, duck target, duck reduction. -/
def Mix.advance (talk1 talk2 : Bool) (m : Mix) : Mix := ((m.settleDuck.aimDuck talk1 talk2).rampAll).moveDuck

/-- A mix in a frame: the mix after it and its saturated sample (R92, R96). -/
def Mix.form (inputs : List Sample) (tb1 tb2 : Sample) (m : Mix) : Mix × Sample :=
  let x := m.sample inputs tb1 tb2
  ({ m with clip := m.clip || clips x }, saturate x)

/-! ## The safe copy (R101 to R103) -/

/-- The stored targets of a mix as they stand (R101). -/
def Mix.snapshot (m : Mix) : SafeMix := { xps := m.xps.map Level.target, master := m.master.target, ceiling := m.ceiling }

/-- A mix written with the safe copy's values, ramping from where it stands (R102). -/
def Mix.recall (safe : SafeMix) (m : Mix) : Mix :=
  { m with
    xps := mapFrom (fun j l => l.write (nth safe.xps j none)) 0 m.xps,
    master := m.master.write safe.master,
    ceiling := safe.ceiling }

/-- A mix set directly from the safe copy, without ramps (R103). -/
def SafeMix.load (safe : SafeMix) : Mix :=
  { xps := safe.xps.map Level.direct, master := Level.direct safe.master, ceiling := safe.ceiling, duckTarget := 0, duck := 0,
    release := 0, clip := false }

/-- A duck ceiling written (R89). -/
def Mix.writeCeiling (v : Int) (m : Mix) : Mix := { m with ceiling := v }

/-! ## Commands -/

/-- The level a reference names. -/
def State.level (s : State) : LevelRef → Level
  | .crosspoint j m => (s.mix m).xp j
  | .master m => (s.mix m).master
  | .output o => (s.output o).level

/-- Change the level a reference names. -/
def State.modLevel (s : State) (r : LevelRef) (f : Level → Level) : State :=
  match r with
  | .crosspoint j m => s.modMix m fun mx => mx.modXp j f
  | .master m => s.modMix m fun mx => { mx with master := f mx.master }
  | .output o => s.modOutput o fun r => { r with level := f r.level }

/-- LEVEL_RAMP_STEP (R91): the step of a level whose count reaches 8 in this frame, taken ahead of the frame (log 3). -/
def State.levelRampStep (r : LevelRef) (s : State) : State :=
  s.modLevel r Level.stepEarly

/-- LEVEL_RAMP_STEP (R91). -/
def execLevelRampStep (r : LevelRef) (s : State) : Host.Outcome State Fault Refusal := live (State.levelRampStep r) s

/-- A release step of the duck falls in this frame: the reduction is above the target and the count reaches 32 (R95). -/
def Mix.releaseDue (m : Mix) : Bool := decide (m.duckTarget < m.duck) && decide (32 ≤ m.release + 1)

/-- A mix that takes the release step of the frame to be formed ahead of it, keeping what it stepped from (log 3). -/
def Mix.releaseEarly (talk1 talk2 : Bool) (m : Mix) : Mix :=
  if (m.aimDuck talk1 talk2).releaseDue ∧ m.duckUndo = none then
    { (m.aimDuck talk1 talk2).moveDuck with duckUndo := some m.duck }
  else m

/-- DUCK_RELEASE_STEP (R95), against the duck target of the frame to be formed, taken ahead of it (R92, R94; log 3). -/
def State.duckReleaseStep (k : Fin 24) (s : State) : State :=
  s.modMix k (Mix.releaseEarly (s.hasTalker .tb1) (s.hasTalker .tb2))

/-- DUCK_RELEASE_STEP (R95). -/
def execDuckReleaseStep (k : Fin 24) (s : State) : Host.Outcome State Fault Refusal := live (State.duckReleaseStep k) s

end Sys2Proof.Machine
end

