-- ==== Sys2Proof/Machine/Configuration.lean ====
section
/-!
DEFINITION. The configuration unit (11_configuration_memory_and_start_up.md): records, snapshots, the load, start-up, the store, full reset, RESTART and loss of power.
-/
namespace Sys2Proof.Machine

/-! ## Records (R189, R190) -/

/-- The sum of bytes modulo 256. -/
def sumBytes : List Byte → Byte
  | [] => 0
  | x :: xs => x + sumBytes xs

/-- A checksum: the two's complement of the sum (R189). -/
def checksum (bytes : List Byte) : Byte := -(sumBytes bytes)

/-- Record type codes (R189). -/
def RecordType.code (r : RecordType) : Nat := r.place + 1

/-- The record type of a code, if there is one (R189). -/
def RecordType.ofCode (n : Nat) : Option RecordType := RecordType.all.find? fun r => decide (r.code = n)

/-- All the bytes of a record (R189). -/
def recordBytes (r : RecordType) (last : Bool) (body : List Byte) : List Byte :=
  let head := [BitVec.ofNat 8 r.code, 1#8] ++ be16 body.length ++ [flagByte last]
  head ++ [checksum head] ++ body ++ [checksum body]

/-- The body length is right for the type (R190). -/
def lengthOk (r : RecordType) (n : Nat) : Bool :=
  match r with
  | .unit => decide (1 ≤ n ∧ n ≤ 32)
  | .startChannels => decide (n = 192)
  | .safeMix => decide (n = 3264)
  | .outputPatch => decide (n = 224)
  | .stageSettings => decide (n = 5)

/-! ## Snapshots (R195) -/

/-- The START_CHANNELS body of the desired settings as they stand. -/
def State.startBody (s : State) : List Byte :=
  (s.channels.map fun c => [BitVec.ofInt 8 c.desired.gain, flagByte c.desired.pad, flagByte c.desired.phantom]).flatten

/-- The SAFE_MIX body of the matrix as it stands: crosspoints in parameter order, masters, ceilings. -/
def State.safeBody (s : State) : List Byte :=
  ((List.range 66).map fun j => (s.mixes.map fun m => be16i (targetValue (m.xp j).target)).flatten).flatten ++
    (s.mixes.map fun m => be16i (targetValue m.master.target)).flatten ++ (s.mixes.map fun m => be16i m.ceiling).flatten

/-- The OUTPUT_PATCH body of the patch as it stands. -/
def State.patchBody (s : State) : List Byte :=
  (s.outputs.map fun o =>
    be16 o.primary ++ be16 (o.fallback.getD 0) ++ be16i (targetValue o.level.target) ++ [BitVec.ofInt 8 o.override.code]).flatten

/-- The STAGE_SETTINGS body of the stage settings as they stand. -/
def State.stageBody (s : State) : List Byte :=
  [BitVec.ofNat 8 s.panelClass, BitVec.ofNat 8 s.talkLimit, BitVec.ofNat 8 (s.graceTime / 50)] ++ be16 (s.revertTime / 100)

/-- The body of a type as it stands. -/
def State.snapshot (s : State) : RecordType → List Byte
  | .unit => s.config.unitName
  | .startChannels => s.startBody
  | .safeMix => s.safeBody
  | .outputPatch => s.patchBody
  | .stageSettings => s.stageBody

/-! ## The walk of the chain (R191) -/

/-- What the walk has decided of a type. -/
inductive Decision | undecided | damaged | found (body : List Byte)
deriving DecidableEq, Repr

/-- A type has been decided. -/
def Decision.decided : Decision → Bool
  | .undecided => false
  | .damaged => true
  | .found _ => true

/-- What a walk finds: the decisions, and whether it stopped on a broken record. -/
structure WalkResult where
  decisions : PerType Decision
  broken : Bool
deriving DecidableEq, Repr

/-- Walk the chain from an offset, record by record (R191); the fuel is more than the records the memory can hold. -/
def walkChain (m : List Host.Cell) (answers : Nat → Bool) : Nat → Nat → PerType Decision → WalkResult
  | 0, _, ds => { decisions := ds, broken := true }
  | fuel + 1, a, ds =>
    let head := memReadBlock m a 6
    let len := (wordOf (nth head 2 0) (nth head 3 0)).toNat
    if a + 5 > 65535 ∨ answers (a + 5) = false ∨ sumBytes head ≠ 0 ∨ 8192 < len ∨ 65535 < a + 6 + len ∨
        answers (a + 6 + len) = false then
      { decisions := ds, broken := true }
    else
      let body := memReadBlock m (a + 6) len
      let bodySound := decide (sumBytes body + memRead m (a + 6 + len) = 0)
      let ds' :=
        match RecordType.ofCode (nth head 0 0).toNat with
        | none => ds
        | some r =>
          if nth head 1 0 ≠ 1 ∨ (ds.get r).decided then ds
          else if lengthOk r len && bodySound then ds.set r (.found body)
          else ds.set r .damaged
      if (nth head 4 0).getLsbD 0 then { decisions := ds', broken := false }
      else walkChain m answers fuel (a + 7 + len) ds'

/-- The walk of the whole memory from offset 0; the memory answers below `silentFrom`, or everywhere (R191). -/
def loadWalk (m : List Host.Cell) (silentFrom : Option Nat) : WalkResult :=
  let answers := fun a => match silentFrom with
    | some n => decide (a < n)
    | none => true
  walkChain m answers 9363 0
    { unit := .undecided, startChannels := .undecided, safeMix := .undecided, outputPatch := .undecided, stageSettings := .undecided }

/-- The verdict of a decision (R191). -/
def Decision.verdict : Decision → Verdict
  | .undecided => .missing
  | .damaged => .damaged
  | .found _ => .found

/-- The body used for a type: the found contents, else the defaults (R192). -/
def Decision.body (fallback : List Byte) : Decision → List Byte
  | .undecided => fallback
  | .damaged => fallback
  | .found b => b

/-- DAMAGED, MISSING, CHAIN_BROKEN and LOADED as a load sets them (R193). -/
def WalkResult.status (w : WalkResult) : BitVec 16 :=
  let mark := fun (x : BitVec 16) (r : RecordType) =>
    match w.decisions.get r with
    | .undecided => setBit x (missingBit r)
    | .damaged => setBit x (damagedBit r)
    | .found _ => x
  let x := RecordType.all.foldl mark 0
  setBit (if w.broken then setBit x chainBrokenBit else x) loadedBit

/-! ## Handing over (R65, R103, R137, R190, R192) -/

/-- Byte `i` of a body. -/
def bodyByte (body : List Byte) (i : Nat) : Nat := (nth body i 0).toNat

/-- The signed 16-bit value at byte `i` of a body. -/
def bodyWord (body : List Byte) (i : Nat) : Int := (wordOf (nth body i 0) (nth body (i + 1) 0)).toInt

/-- A stored channel's setting: gain clamped, a pad or phantom other than 0 or 1 at its default off (R65, R190). -/
def storedSetting (body : List Byte) (i : Nat) : Setting :=
  { gain := clampTo 0 60 (nth body (3 * i) 0).toInt, pad := decide (bodyByte body (3 * i + 1) = 1),
    phantom := decide (bodyByte body (3 * i + 2) = 1) }

/-- START_CHANNELS written to the channel table as writes of R50 (R65), input 1 first: that order, which fixes the queue order of
channels already READY, is the model's (DESIGN CHOICE, log 50). -/
def State.loadChannels (body : List Byte) (s : State) : State :=
  State.foldOver (fun (i : Fin 64) s =>
    let x := storedSetting body i.val
    (if x.phantom then s.modChannel i fun c => { c with latch := false } else s).writeDesired i fun _ => x)
    (List.finRange 64) s

/-- A stored mix: values below −180 are off, above +20 are +20, ceilings clamped (R190). -/
def storedMix (body : List Byte) (m : Nat) : SafeMix :=
  { xps := (List.range 66).map fun j => targetOf (levelStored (bodyWord body (2 * (24 * j + m)))),
    master := targetOf (levelStored (bodyWord body (2 * (1584 + m)))),
    ceiling := clampTo (-180) 0 (bodyWord body (2 * (1608 + m))) }

/-- SAFE_MIX: the safe copy becomes the contents, then the matrix is set directly from it (R101, R103). -/
def State.loadSafe (body : List Byte) (s : State) : State :=
  let copy := (List.range 24).map (storedMix body)
  { s with safe := copy, mixes := copy.map SafeMix.load }

/-- OUTPUT_PATCH for one output: an entry with an unknown code, a refused pair or an unknown override takes the defaults
(R137, R190; the pair: log 26). -/
def State.loadPatchEntry (body : List Byte) (o : Nat) (s : State) : State :=
  let p := bodyWord body (7 * o)
  let f := bodyWord body (7 * o + 2)
  let l := bodyWord body (7 * o + 4)
  let v := bodyByte body (7 * o + 6)
  if sourceKnown p ∧ sourceKnown f ∧ v ≤ 2 ∧ pairRefused p.toNat f.toNat = false then
    s.setPatch o p.toNat (if f = 0 then none else some f.toNat) (targetOf (levelStored l)) (overrideOf v)
  else s.setPatch o (if o < 24 then o + 1 else 0) none (some 0) .normal

/-- OUTPUT_PATCH (R137). -/
def State.loadPatch (body : List Byte) (s : State) : State := State.foldOver (State.loadPatchEntry body) (List.range 32) s

/-- STAGE_SETTINGS: a field outside its range leaves that setting at its default (R190, R192). -/
def State.loadStage (body : List Byte) (s : State) : State :=
  let c := bodyByte body 0
  let g := bodyByte body 2
  let h := bodyWord body 3
  { s with
    panelClass := if c ≤ 3 then c else 3,
    talkLimit := bodyByte body 1,
    graceTime := if 5 ≤ g ∧ g ≤ 200 then g * 50 else 3000,
    revertTime := if 0 ≤ h ∧ h ≤ 300 then h.toNat * 100 else 2000 }

/-- LOAD_END: the walk's verdicts, the stored image, the hand-overs and LOADED (R191 to R193). -/
def State.loadEnd (silentFrom : Option Nat) (s : State) : State :=
  if s.config.loading then
    let w := loadWalk s.memory silentFrom
    let image := w.decisions.map fun r d => d.body (defaultImage.get r)
    let s1 := { s with config := { s.config with
                  status := s.config.status ||| w.status, directory := some (w.decisions.map fun _ => Decision.verdict),
                  image := image, unitName := image.unit, loading := false } }
    let s2 := if s.config.fresh then s1.loadChannels image.startChannels else s1
    ((s2.loadSafe image.safeMix).loadPatch image.outputPatch).loadStage image.stageSettings
  else s

/-- STARTUP_COMPLETE: both the load's end and the eighth poll slot have been taken (R194). -/
def State.startupComplete (s : State) : State :=
  if s.config.loading = false ∧ s.line.polled then { s with started := true } else s

/-! ## Storing (R195, R196) -/

/-- The records of a chain, laid one after another from an offset, the last flagged end-of-list (R189, R196). -/
def layRecords (image : PerType (List Byte)) : Nat → List RecordType → List StoredRecord
  | _, [] => []
  | a, r :: rest =>
    let bytes := recordBytes r rest.isEmpty (image.get r)
    { type := r, offset := a, bytes := bytes } :: layRecords image (a + bytes.length) rest

/-- The order in which a store writes; UNIT is left out when the image holds no name (R196). -/
def storeOrder (image : PerType (List Byte)) : List RecordType :=
  [.startChannels, .safeMix, .outputPatch, .stageSettings] ++ (if image.unit = [] then [] else [.unit])

/-- The types a list of codes names (R195). -/
def namedTypes (codes : List Nat) : List RecordType := RecordType.all.filter fun r => decide (r.code ∈ codes)

/-- A STORE is accepted: the snapshot, the safe copy, the reservation, the status and the first record to write (R101, R182, R195). -/
def State.acceptStore (tag : Byte) (codes : List Nat) (s : State) : State :=
  let named := namedTypes codes
  let image := s.config.image.map fun r body => if r ∈ named then s.snapshot r else body
  match layRecords image 0 (storeOrder image) with
  | [] => s
  | first :: rest =>
    { s with
      safe := if RecordType.safeMix ∈ named then s.mixes.map Mix.snapshot else s.safe,
      panelReserved := s.panelReserved + 1,
      config := { s.config with
        image := image,
        status := clearBit (setBit s.config.status storeActiveBit) storeFailedBit,
        store := some { tag := tag, current := first, rest := rest, written := [] } } }

/-- STORE: the codes are checked, then a store in progress, then it is accepted (R195). `none` is an acceptance, which has no answer
now. -/
def State.store (tag : Byte) (codes : List Nat) (s : State) : State × Option Result :=
  if codes.any fun n => (RecordType.ofCode n).isNone then (s, some .badValue)
  else if s.config.store.isSome then (s, some .busy)
  else (s.acceptStore tag codes, none)

/-- A store's answer takes its reserved place at the end of the panel queue (R182, R186). -/
def State.storeAnswer (tag : Byte) (r : Result) (s : State) : State :=
  { s with panelQueue := s.panelQueue ++ [.answer { tag := tag, kind := kindStore, result := r, data := .none, complete := true }],
           panelReserved := s.panelReserved - 1 }

/-- A store ends FAILED at a record (R193, R196). -/
def State.storeFailed (job : StoreJob) (s : State) : State :=
  State.storeAnswer job.tag .failed
    { s with config := { s.config with
        store := none,
        status := setBit (setBit (clearBit s.config.status storeActiveBit) storeFailedBit) (damagedBit job.current.type) } }

/-- A store ends DONE: the flags of every type written are cleared (R193, R196). -/
def State.storeDone (job : StoreJob) (written : List RecordType) (s : State) : State :=
  let clear := fun (x : BitVec 16) (r : RecordType) => clearBit (clearBit x (damagedBit r)) (missingBit r)
  State.storeAnswer job.tag .done
    { s with config := { s.config with
        store := none,
        status := clearBit (written.foldl clear (clearBit s.config.status storeActiveBit)) chainBrokenBit } }

/-- A store cut short while a record is being written: as many of its bytes as had been reached are new, the rest old
(R196, R197; log 8). -/
def State.cutRecord (rec : StoredRecord) (s : State) : State :=
  { s with memory := memWriteBlock s.memory rec.offset (rec.bytes.take (Config.storeReached s.free % (rec.bytes.length + 1))),
           free := s.free + 1 }

/-- STORE_RECORD_CHECKED: the record being written is read back; what is read back is what the memory then holds (R196; log 9). -/
def State.storeRecordChecked (readBack : Option (List Byte)) (s : State) : State :=
  match s.config.store with
  | none => s
  | some job =>
    match readBack with
    | none => (s.cutRecord job.current).storeFailed job
    | some bytes =>
      let s1 := { s with memory := memWriteBlock s.memory job.current.offset (bytes.take job.current.bytes.length) }
      if bytes = job.current.bytes then
        match job.rest with
        | [] => s1.storeDone job (job.written ++ [job.current.type])
        | next :: rest =>
          let job' := { job with current := next, rest := rest, written := job.written ++ [job.current.type] }
          { s1 with config := { s1.config with store := some job' } }
      else s1.storeFailed job

/-- A store in progress is abandoned (R196, R197). -/
def State.abandonStore (s : State) : State :=
  match s.config.store with
  | none => s
  | some job => { s.cutRecord job.current with config := { s.config with store := none } }

/-! ## Full reset, RESTART, loss of power (R194, R196, R197) -/

/-- FULL_RESET: the straps are sampled and every block takes its full-reset values; the configuration memory and the waiting
commands are outside it (R194). -/
def State.fullReset (straps : BitVec 4) (s : State) : State :=
  let s1 := s.abandonStore
  { State.reset with unitNumber := straps, memory := s1.memory, free := s1.free, pending := s.pending }

/-- A RESTART's effect: as a full reset, but for the unit number, the front end, column 0 and the stage gains (R65, R80, R197). -/
def State.restart (s : State) : State :=
  let s1 := s.abandonStore
  { State.reset with
    unitNumber := s.unitNumber,
    cards := s.cards, channels := s.channels, cardQueue := s.cardQueue, sendList := s.sendList,
    line := { s.line with pollsBegun := 0, polled := false },
    comp := s.comp.map fun ic => { InputComp.reset with
      stageGain := ic.stageGain, cells := { InputComp.reset.cells with c0 := ic.cells.c0 } },
    config := { ConfigUnit.reset with fresh := false },
    memory := s1.memory, free := s1.free, pending := s.pending }

/-- RESTART taken: the part restarts and the answer is the first message of the emptied panel queue (R182, R197). -/
def State.restartAnswered (tag : Byte) (s : State) : State :=
  { s.restart with panelQueue := [.answer { tag := tag, kind := kindRestart, result := .done, data := .none, complete := true }] }

/-- POWER_LOSS: the part stops; the memory is as a store in progress had reached (R196). -/
def State.powerLoss (s : State) : State := { s.abandonStore with powered := false }

/-! ## Commands -/

/-- FULL_RESET (R194), with or without power before it. -/
def execFullReset (straps : BitVec 4) (s : State) : Host.Outcome State Fault Refusal := .next (s.fullReset straps)

/-- LOAD_END (R192). -/
def execLoadEnd (silentFrom : Option Nat) (s : State) : Host.Outcome State Fault Refusal := live (State.loadEnd silentFrom) s

/-- STARTUP_COMPLETE (R194). -/
def execStartupComplete (s : State) : Host.Outcome State Fault Refusal := live State.startupComplete s

/-- STORE_RECORD_CHECKED (R196). -/
def execStoreRecordChecked (readBack : Option (List Byte)) (s : State) : Host.Outcome State Fault Refusal :=
  live (State.storeRecordChecked readBack) s

/-- POWER_LOSS (R196). -/
def execPowerLoss (s : State) : Host.Outcome State Fault Refusal := live State.powerLoss s

end Sys2Proof.Machine
end

