-- ==== Sys2Proof/Machine/Requests.lean ====
section
/-!
DEFINITION. The request unit (10_control_lane_requests_and_reports.md): reads and writes of the parameter map, each request's answer, the checks before it, and the effect of an applied batch.
-/
namespace Sys2Proof.Machine

/-! ## Reading a parameter (R176) -/

/-- A mode, pad or phantom as a parameter value. -/
def boolValue (b : Bool) : Int := if b then 1 else 0

/-- The cell of the requester's own column; the panel has none (R79). -/
def State.ownCell (sl : SlotId) (i : Nat) (s : State) : Cell :=
  match sl with
  | .panel => Cell.reset
  | .desk d => s.cell i d.column

/-- The value an owning block holds, as a GET returns it (R176, R64, R81, R90, R138, R118, R131, R180). Between two frames a current trim
reads as the record stands: the last formed frame's, or the coming one's once a marker or a step command has moved it (DESIGN CHOICE,
log 47). -/
def State.readParam (sl : SlotId) (p : Param) (s : State) : Int :=
  match p with
  | .gain i => (s.channel i).desired.gain
  | .pad i => boolValue (s.channel i).desired.pad
  | .phantom i => boolValue (s.channel i).desired.phantom
  | .ownMode i => boolValue (s.ownCell sl i).on
  | .engineMode i => boolValue (s.cell i 0).on
  | .ownEref i => (s.ownCell sl i).eref.getD (-32768)
  | .engineEref i => (s.cell i 0).eref.getD (-32768)
  | .ownTrim i => (s.ownCell sl i).current
  | .engineTrim i => (s.cell i 0).current
  | .appliedGain i => (s.channel i).applied.gain
  | .summary i => ((s.channel i).summary : Int)
  | .crosspoint j m => targetValue ((s.mix m).xp j).target
  | .master m => targetValue (s.mix m).master.target
  | .ceiling m => (s.mix m).ceiling
  | .primary o => ((s.output o).primary : Int)
  | .fallback o => (((s.output o).fallback.getD 0 : Nat) : Int)
  | .outLevel o => targetValue (s.output o).level.target
  | .override o => (s.output o).override.code
  | .talkClass x => (s.talkClassOf x : Int)
  | .talkLimit => (s.talkLimit : Int)
  | .graceTime => ((s.graceTime / 50 : Nat) : Int)
  | .revertTime => ((s.revertTime / 100 : Nat) : Int)

/-! ## Writing a parameter -/

/-- A write of a slot's talk class (R43, R120). -/
def State.writeTalkClass (x : SlotId) (v : Int) (s : State) : State × Option Result :=
  match x with
  | .panel => ({ s with panelClass := v.toNat }.reorderBuses .panel, none)
  | .desk d =>
    if (s.slot d).state = .vacant then (s, some .notAvailable)
    else ((s.modSlot d fun r => { r with talkClass := v.toNat }).reorderBuses (.desk d), none)

/-- The owning block acts on a stored value; `some r` when it refuses the write on the state of its records (R154, R166). -/
def State.writeParam (sl : SlotId) (p : Param) (v : Int) (s : State) : State × Option Result :=
  match p with
  | .gain i => (s.writeDesired (Fin.ofNat 64 i) fun x => { x with gain := v }, none)
  | .pad i => (s.writeDesired (Fin.ofNat 64 i) fun x => { x with pad := decide (v = 1) }, none)
  | .phantom i => (s.writePhantom (Fin.ofNat 64 i) (decide (v = 1)), none)
  | .ownMode i =>
    match sl with
    | .panel => (s, some .notPermitted)
    | .desk d => (s.modCell i d.column (Cell.setMode (decide (v = 1))), none)
  | .engineMode i => (s.modCell i 0 (Cell.setMode (decide (v = 1))), none)
  | .crosspoint j m => (s.modMix m fun mx => mx.modXp j (Level.write (targetOf v)), none)
  | .master m => (s.modMix m fun mx => { mx with master := mx.master.write (targetOf v) }, none)
  | .ceiling m => (s.modMix m (Mix.writeCeiling v), none)
  | .primary o =>
    if (s.output o).pairOk true v.toNat then (s.writePrimary o v.toNat, none) else (s, some .badValue)
  | .fallback o =>
    if (s.output o).pairOk false v.toNat then (s.writeFallback o v.toNat, none) else (s, some .badValue)
  | .outLevel o => (s.modOutput o fun r => { r with level := r.level.write (targetOf v) }, none)
  | .override o => (s.modOutput o fun r => { r with override := overrideOf v }, none)
  | .talkClass x => s.writeTalkClass x v
  | .talkLimit => ({ s with talkLimit := v.toNat }, none)
  | .graceTime => ({ s with graceTime := v.toNat * 50 }, none)
  | .revertTime => ({ s with revertTime := v.toNat * 100 }, none)
  | .ownEref _ => (s, some .notPermitted)
  | .engineEref _ => (s, some .notPermitted)
  | .ownTrim _ => (s, some .notPermitted)
  | .engineTrim _ => (s, some .notPermitted)
  | .appliedGain _ => (s, some .notPermitted)
  | .summary _ => (s, some .notPermitted)

/-- A write of one item: its index, its parameter and the value asked for. -/
structure Item where
  index : Nat
  param : Param
  value : Int
deriving DecidableEq, Repr

/-- The value as it will be written. -/
def Item.stored (x : Item) : Int := x.param.stored x.value

/-- The entry a staged write becomes (R162, R164). -/
def Item.staged (x : Item) : Staged := { index := x.index, value := x.stored, domain := x.param.domain }

/-- Items written one after another; the first refusal ends it (R132, R179). -/
def State.writeItems (sl : SlotId) : List Item → State → State × Option Result
  | [], s => (s, none)
  | x :: xs, s =>
    let r := s.writeParam sl x.param x.stored
    match r.2 with
    | some c => (r.1, some c)
    | none => State.writeItems sl xs r.1

/-- What a request comes to: the state after it, its result and its data. -/
structure Reply where
  state : State
  result : Result
  data : AnswerData

/-- A refusal: the state as given and a code, no data. -/
def Reply.refuse (s : State) (r : Result) : Reply := { state := s, result := r, data := .none }

/-- The data of an accepted write (R178, R179). -/
def echoData (echo : Nat) (vs : List Int) : AnswerData := if echo = 1 then .values vs else .none

/-- Writes that have passed form and value are checked for rights and capacity, then staged or acted on, whole (R99, R154, R164,
R178, R179). A requester that is not ACTIVE is NOT_AVAILABLE before any domain is looked at, so for an own-column write, which has
none, as well (R79, R154, R170; DEDUCED, log 23). -/
def State.writeAll (sl : SlotId) (items : List Item) (echo : Nat) (s : State) : Reply :=
  if s.slotState sl ≠ .active then Reply.refuse s .notAvailable else
  let checked := s.checkDomains sl (domainsOf (items.map fun x => x.param.domain))
  let clamped := items.any fun x => x.param.clamps x.value
  match checked.2 with
  | some c => Reply.refuse checked.1 c
  | none =>
    if s.staging sl then
      if s.stagingRoom sl items.length then
        { state := s.stage sl (items.map Item.staged), result := if clamped then .clamped else .queued,
          data := echoData echo (items.map Item.stored) }
      else Reply.refuse s .full
    else
      let w := s.writeItems sl items
      match w.2 with
      | some c => Reply.refuse s c
      | none =>
        { state := w.1, result := if clamped then .clamped else .done,
          data := echoData echo (items.map fun x => w.1.readParam sl x.param) }

/-! ## GET, SET, SET-WINDOW (R177 to R179) -/

/-- The items of consecutive indices, or `none` if one does not exist (R177, R179). -/
def itemsFrom (first : Nat) : List Int → Option (List Item)
  | [] => some []
  | v :: vs =>
    match paramOf first, itemsFrom (first + 1) vs with
    | some p, some rest => some ({ index := first, param := p, value := v } :: rest)
    | _, _ => none

/-- The requester may not write the parameter at all (R154 step 1, R175). -/
def writeBarred (sl : SlotId) (p : Param) : Bool := p.readOnly || (p.panelRefused && decide (sl = .panel))

/-- GET (R177; a count out of range is found before a missing index: log 22). -/
def State.doGet (sl : SlotId) (first count : Nat) (s : State) : Reply :=
  if count < 1 ∨ 64 < count then Reply.refuse s .badValue
  else
    match itemsFrom first (List.replicate count 0) with
    | none => Reply.refuse s .noSuch
    | some items =>
      if sl = .panel ∧ items.any (fun x => x.param.panelRefused) then Reply.refuse s .notPermitted
      else { state := s, result := .done, data := .values (items.map fun x => s.readParam sl x.param) }

/-- SET (R178): echo option, form and value, then as `writeAll` (order of the echo check: log 22). -/
def State.doSet (sl : SlotId) (index : Nat) (value : Int) (echo : Nat) (s : State) : Reply :=
  if 1 < echo then Reply.refuse s .badValue
  else
    match paramOf index with
    | none => Reply.refuse s .noSuch
    | some p =>
      if writeBarred sl p then Reply.refuse s .notPermitted
      else if p.valueOk value = false then Reply.refuse s .badValue
      else s.writeAll sl [{ index := index, param := p, value := value }] echo

/-- The items of a matrix window in row order, for consecutive crosspoints numbered from 0 within the window (R98). -/
def matrixItems (s1 m1 width : Nat) : Nat → List Int → List Item
  | _, [] => []
  | k, v :: vs =>
    let j := s1 - 1 + k / width
    let m := m1 - 1 + k % width
    { index := 1024 + j * 24 + m, param := .crosspoint j m, value := v } :: matrixItems s1 m1 width (k + 1) vs

/-- The matrix form of SET-WINDOW (R98, R99, R179). -/
def State.doMatrix (sl : SlotId) (s1 s2 m1 m2 echo : Nat) (vs : List Int) (s : State) : Reply :=
  if 1 < echo then Reply.refuse s .badValue
  else if s1 < 1 ∨ 66 < s2 ∨ m1 < 1 ∨ 24 < m2 ∨ s2 < s1 ∨ m2 < m1 ∨ 64 < (s2 - s1 + 1) * (m2 - m1 + 1) ∨
      vs.length ≠ (s2 - s1 + 1) * (m2 - m1 + 1) then Reply.refuse s .badValue
  else s.writeAll sl (matrixItems s1 m1 (m2 - m1 + 1) 0 vs) echo

/-- The run form of SET-WINDOW (R179; the order of the form checks, BAD_VALUE, NO_SUCH, NOT_PERMITTED: log 22). -/
def State.doRun (sl : SlotId) (first echo : Nat) (vs : List Int) (s : State) : Reply :=
  if 1 < echo then Reply.refuse s .badValue
  else if vs.length < 1 ∨ 64 < vs.length then Reply.refuse s .badValue
  else
    match itemsFrom first vs with
    | none => Reply.refuse s .noSuch
    | some items =>
      if items.any fun x => writeBarred sl x.param then Reply.refuse s .notPermitted
      else if items.any fun x => !x.param.valueOk x.value then Reply.refuse s .badValue
      else s.writeAll sl items echo

/-! ## REBASE, RECALL-SAFE and the rest -/

/-- REBASE (R78, R79, R170, 10.4; order of the checks: log 22). -/
def State.doRebase (sl : SlotId) (first last col : Nat) (s : State) : Reply :=
  if 1 < col ∨ first < 1 ∨ 64 < last ∨ last < first then Reply.refuse s .badValue
  else if s.slotState sl ≠ .active then Reply.refuse s .notAvailable
  else if col = 0 then
    match sl with
    | .panel => Reply.refuse s .notPermitted
    | .desk d => { state := s.rebaseInputs d.column first last, result := .done, data := .none }
  else
    let checked := s.checkDomains sl [15]
    match checked.2 with
    | some c => Reply.refuse checked.1 c
    | none => { state := s.rebaseInputs 0 first last, result := .done, data := .none }

/-- The requester may write the group of a mix counted from 0 (R102). -/
def State.mayWriteMix (sl : SlotId) (m : Nat) (s : State) : Bool := (s.rightsTest sl (mixDomain m)).isNone

/-- RECALL-SAFE (R102, R170). -/
def State.doRecall (sl : SlotId) (s : State) : Reply :=
  if s.slotState sl ≠ .active then Reply.refuse s .notAvailable
  else if [8, 9, 10, 11, 12, 13].any fun d => (s.rightsTest sl d).isNone then
    let f := fun k (m : Mix) => if s.mayWriteMix sl k then m.recall (nth s.safe k SafeMix.default) else m
    { state := { s with mixes := mapFrom f 0 s.mixes }, result := .done, data := .none }
  else Reply.refuse s .notOwner

/-- CLEAR-OVERS (R146, R170). -/
def State.doClearOvers (sl : SlotId) (s : State) : Reply :=
  if s.slotState sl ≠ .active then Reply.refuse s .notAvailable
  else { state := { s with overs := s.overs.set sl OverSet.empty }, result := .done, data := .none }

/-- DESCRIBE (R181). -/
def State.doDescribe (sl : SlotId) (s : State) : Reply :=
  { state := s, result := .done, data := .description s.unitNumber.toNat sl.number s.config.unitName }

/-- METERS-ON and METERS-OFF from the panel (R149). -/
def State.doMeters (on : Bool) (s : State) : Reply :=
  { state := { s with meter := { s.meter with panelOn := on } }, result := .done, data := .none }

/-- A state and a result without data. -/
def Reply.plain (x : State × Result) : Reply := { state := x.1, result := x.2, data := .none }

/-- The rule of each kind that is answered at once (10.4). BATCH-APPLY, STORE and RESTART place their own answers. -/
def State.perform (sl : SlotId) (r : Request) (s : State) : Reply :=
  match r with
  | .unknown _ => Reply.refuse s .noSuch
  | .badBody _ => Reply.refuse s .badValue
  | .get first count => s.doGet sl first count
  | .set index value echo => s.doSet sl index value echo
  | .windowMatrix s1 s2 m1 m2 echo vs => s.doMatrix sl s1 s2 m1 m2 echo vs
  | .windowRun first echo vs => s.doRun sl first echo vs
  | .claim d => Reply.plain (s.claim sl d)
  | .release d => Reply.plain (s.release sl d)
  | .forceRelease d => Reply.plain (s.forceRelease d)
  | .clearTrespass d => Reply.plain (s.clearTrespass sl d)
  | .batchOpen => Reply.plain (s.batchOpen sl)
  | .batchDrop => Reply.plain (s.batchDrop sl)
  | .talkPress b => Reply.plain (s.talkPress sl b)
  | .talkRelease b => Reply.plain (s.talkRelease sl b)
  | .rebase first last col => s.doRebase sl first last col
  | .clearOvers => s.doClearOvers sl
  | .pathPrefer p => Reply.plain (s.pathPrefer sl p)
  | .recallSafe => s.doRecall sl
  | .describe => s.doDescribe sl
  | .metersOn => s.doMeters true
  | .metersOff => s.doMeters false
  | .batchApply => Reply.refuse s .badValue
  | .store _ => Reply.refuse s .badValue
  | .restart => Reply.refuse s .badValue

/-! ## Taking a request (R170, R171, R173) -/

/-- An answer to a request, placed at the end of its slot's queue (R172, R181). -/
def State.answer (sl : SlotId) (tag kind : Byte) (r : Result) (data : AnswerData) (s : State) : State :=
  s.pushAnswer sl { tag := tag, kind := kind, result := r, data := data, complete := true }

/-- The state after a reply, with its answer placed. -/
def Reply.place (sl : SlotId) (tag kind : Byte) (x : Reply) : State := x.state.answer sl tag kind x.result x.data

/-- A request that has found room is checked for start-up, kind, body and panel-only, then answered by the rule of its kind
(R171). -/
def State.answerRequest (sl : SlotId) (tag : Byte) (r : Request) (s : State) : State :=
  let kind := r.kind
  if s.started = false then s.answer sl tag kind .notReady .none
  else if r.panelOnly && decide (sl ≠ .panel) then s.answer sl tag kind .notPermitted .none
  else
    match r with
    | .batchApply => s.batchApply sl tag
    | .store codes =>
      match s.store tag codes with
      | (s1, some c) => s1.answer sl tag kind c .none
      | (s1, none) => s1
    | .restart => s.restartAnswered tag
    | r => (s.perform sl r).place sl tag kind

/-- A request is taken (R170 to R173). From a desk slot whose answer queue is full it is not acted upon and sets the flag; the panel
port takes none while it is not ready (R185); a VACANT slot sends none (log 21). -/
def State.takeRequest (sl : SlotId) (tag : Byte) (r : Request) (s : State) : State :=
  match sl with
  | .panel => if s.panelReady then s.answerRequest .panel tag r else s
  | .desk d =>
    if (s.slot d).state = .vacant then s
    else if (s.lane d).ready then s.answerRequest (.desk d) tag r
    else s.modLane d fun l => { l with dropped := true }

/-- A message handed over is taken as a request of its slot (R20, R170). -/
def State.takeMessage (sl : SlotId) (kind tag : Byte) (body : List Byte) (s : State) : State :=
  s.takeRequest sl tag (requestParse kind body)

/-! ## The effect of a batch (R166) -/

/-- An entry that fails the rights test made when its batch takes effect (R166 step 1). -/
def State.stagedRefused (sl : SlotId) (s : State) (e : Staged) : Bool :=
  match e.domain with
  | some d => (s.rightsTest sl d).isSome
  | none => false

/-- An entry for a crosspoint, master or ceiling that a later entry of its batch replaces: of such entries the last alone has any
effect (R100). -/
def State.stagedReplaced (sl : SlotId) (s : State) (e : Staged) (later : List Staged) : Bool :=
  (paramOf e.index).any Param.inMatrix && later.any fun x => decide (x.index = e.index) && !s.stagedRefused sl x

/-- The entries of a batch in staging order: rights are tested again, then the owning block acts; the numbers applied and
dropped (R166). A replaced entry of the matrix writes nothing (R100) and counts as applied; entries for any other parameter are all
written, one after another (both counts and order DEDUCED, log 42). -/
def State.applyStaged (sl : SlotId) : List Staged → State → State × Nat × Nat
  | [], s => (s, 0, 0)
  | e :: es, s =>
    let w : State × Option Result := if s.stagedRefused sl e then (s, some .notOwner) else
      match paramOf e.index with
      | some p => if s.stagedReplaced sl e es then (s, none) else s.writeParam sl p e.value
      | none => (s, some .noSuch)
    let rest := State.applyStaged sl es w.1
    match w.2 with
    | none => (rest.1, rest.2.1 + 1, rest.2.2)
    | some _ => (rest.1, rest.2.1, rest.2.2 + 1)

/-- The batch of a slot falls due at the boundary in progress (R166). -/
def State.batchDue (s : State) (sl : SlotId) : Bool :=
  s.boundary.opened && decide ((s.batch sl).state = .sealed) && !s.boundary.effects.get sl

/-- The slots that have no batch left for this boundary once a batch has taken effect at it: a BATCH-APPLY taken after it seals for
the next one (R166). Of several slots' batches at one boundary the first closes it: an apply taken between their effects, which R166
does not place, seals for the next boundary (DESIGN CHOICE, log 51). -/
def State.closeBatches (s : State) : State :=
  let done := fun sl => s.boundary.effects.get sl || decide ((s.batch sl).state ≠ .sealed)
  { s with boundary := { s.boundary with
      effects := { panel := done .panel, desks := { d1 := done (.desk .d1), d2 := done (.desk .d2), d3 := done (.desk .d3) } } } }

/-- BATCH_EFFECT (R166). -/
def State.batchEffect (sl : SlotId) (s : State) : State :=
  if s.batchDue sl then
    let r := s.applyStaged sl (s.batch sl).staged
    ((r.1.completeApply sl .done r.2.1 (satAdd 65535 (s.batch sl).dropped r.2.2)).setBatch sl Batch.reset).closeBatches
  else s

/-! ## Commands -/

/-- BATCH_EFFECT (R166). -/
def execBatchEffect (sl : SlotId) (s : State) : Host.Outcome State Fault Refusal := live (State.batchEffect sl) s

/-- UNKNOWN_KIND (R171). -/
def execUnknownKind (sl : SlotId) (tag kind : Byte) (s : State) : Host.Outcome State Fault Refusal :=
  live (State.takeRequest sl tag (.unknown kind)) s

/-- GET (R177). -/
def execGet (sl : SlotId) (tag : Byte) (first : Word) (count : Byte) (s : State) : Host.Outcome State Fault Refusal :=
  live (State.takeRequest sl tag (.get first.toNat count.toNat)) s

/-- A SET taken as a request, whichever index it names (R178). -/
def State.takeSet (sl : SlotId) (tag : Byte) (index value : Word) (echo : Byte) (s : State) : State :=
  s.takeRequest sl tag (.set index.toNat value.toInt echo.toNat)

/-- WRITE_DESIRED_SETTING (R50). -/
def execWriteDesiredSetting (sl : SlotId) (tag : Byte) (index value : Word) (echo : Byte) (s : State) :
    Host.Outcome State Fault Refusal := live (State.takeSet sl tag index value echo) s

/-- WRITE_COLUMN_MODE (R77). -/
def execWriteColumnMode (sl : SlotId) (tag : Byte) (index value : Word) (echo : Byte) (s : State) :
    Host.Outcome State Fault Refusal := live (State.takeSet sl tag index value echo) s

/-- WRITE_CROSSPOINT (R88). -/
def execWriteCrosspoint (sl : SlotId) (tag : Byte) (index value : Word) (echo : Byte) (s : State) :
    Host.Outcome State Fault Refusal := live (State.takeSet sl tag index value echo) s

/-- WRITE_DUCK_CEILING (R89). -/
def execWriteDuckCeiling (sl : SlotId) (tag : Byte) (index value : Word) (echo : Byte) (s : State) :
    Host.Outcome State Fault Refusal := live (State.takeSet sl tag index value echo) s

/-- WRITE_OUTPUT_SOURCE (R132). -/
def execWriteOutputSource (sl : SlotId) (tag : Byte) (index value : Word) (echo : Byte) (s : State) :
    Host.Outcome State Fault Refusal := live (State.takeSet sl tag index value echo) s

/-- WRITE_OUTPUT_LEVEL (R133). -/
def execWriteOutputLevel (sl : SlotId) (tag : Byte) (index value : Word) (echo : Byte) (s : State) :
    Host.Outcome State Fault Refusal := live (State.takeSet sl tag index value echo) s

/-- WRITE_OVERRIDE (R134). -/
def execWriteOverride (sl : SlotId) (tag : Byte) (index value : Word) (echo : Byte) (s : State) :
    Host.Outcome State Fault Refusal := live (State.takeSet sl tag index value echo) s

/-- WRITE_TALK_CLASS (R120). -/
def execWriteTalkClass (sl : SlotId) (tag : Byte) (index value : Word) (echo : Byte) (s : State) :
    Host.Outcome State Fault Refusal := live (State.takeSet sl tag index value echo) s

/-- WRITE_TALK_LIMIT (R118). -/
def execWriteTalkLimit (sl : SlotId) (tag : Byte) (index value : Word) (echo : Byte) (s : State) :
    Host.Outcome State Fault Refusal := live (State.takeSet sl tag index value echo) s

/-- WRITE_GRACE_TIME (R180). -/
def execWriteGraceTime (sl : SlotId) (tag : Byte) (index value : Word) (echo : Byte) (s : State) :
    Host.Outcome State Fault Refusal := live (State.takeSet sl tag index value echo) s

/-- WRITE_REVERT_HOLD_TIME (R131). -/
def execWriteRevertHoldTime (sl : SlotId) (tag : Byte) (index value : Word) (echo : Byte) (s : State) :
    Host.Outcome State Fault Refusal := live (State.takeSet sl tag index value echo) s

/-- WRITE_OTHER_INDEX (R175). -/
def execWriteOtherIndex (sl : SlotId) (tag : Byte) (index value : Word) (echo : Byte) (s : State) :
    Host.Outcome State Fault Refusal := live (State.takeSet sl tag index value echo) s

/-- SET_WINDOW_MATRIX (R99). -/
def execSetWindowMatrix (sl : SlotId) (tag s1 s2 m1 m2 echo : Byte) (vs : List Word) (s : State) :
    Host.Outcome State Fault Refusal :=
  live (State.takeRequest sl tag
    (.windowMatrix s1.toNat s2.toNat m1.toNat m2.toNat echo.toNat (vs.map BitVec.toInt))) s

/-- SET_WINDOW_RUN (R179). -/
def execSetWindowRun (sl : SlotId) (tag : Byte) (first : Word) (echo : Byte) (vs : List Word) (s : State) :
    Host.Outcome State Fault Refusal :=
  live (State.takeRequest sl tag (.windowRun first.toNat echo.toNat (vs.map BitVec.toInt))) s

/-- CLAIM (R156). -/
def execClaim (sl : SlotId) (tag domain : Byte) (s : State) : Host.Outcome State Fault Refusal :=
  live (State.takeRequest sl tag (.claim domain.toNat)) s

/-- RELEASE (R157). -/
def execRelease (sl : SlotId) (tag domain : Byte) (s : State) : Host.Outcome State Fault Refusal :=
  live (State.takeRequest sl tag (.release domain.toNat)) s

/-- FORCE_RELEASE (R158). -/
def execForceRelease (sl : SlotId) (tag domain : Byte) (s : State) : Host.Outcome State Fault Refusal :=
  live (State.takeRequest sl tag (.forceRelease domain.toNat)) s

/-- CLEAR_TRESPASS (R159). -/
def execClearTrespass (sl : SlotId) (tag domain : Byte) (s : State) : Host.Outcome State Fault Refusal :=
  live (State.takeRequest sl tag (.clearTrespass domain.toNat)) s

/-- BATCH_OPEN (R163). -/
def execBatchOpen (sl : SlotId) (tag : Byte) (s : State) : Host.Outcome State Fault Refusal :=
  live (State.takeRequest sl tag .batchOpen) s

/-- BATCH_APPLY (R165). -/
def execBatchApply (sl : SlotId) (tag : Byte) (s : State) : Host.Outcome State Fault Refusal :=
  live (State.takeRequest sl tag .batchApply) s

/-- BATCH_DROP (R167). -/
def execBatchDrop (sl : SlotId) (tag : Byte) (s : State) : Host.Outcome State Fault Refusal :=
  live (State.takeRequest sl tag .batchDrop) s

/-- TALK_PRESS (R112). -/
def execTalkPress (sl : SlotId) (tag bus : Byte) (s : State) : Host.Outcome State Fault Refusal :=
  live (State.takeRequest sl tag (.talkPress bus.toNat)) s

/-- TALK_RELEASE (R114). -/
def execTalkRelease (sl : SlotId) (tag bus : Byte) (s : State) : Host.Outcome State Fault Refusal :=
  live (State.takeRequest sl tag (.talkRelease bus.toNat)) s

/-- REBASE (R78). -/
def execRebase (sl : SlotId) (tag first last column : Byte) (s : State) : Host.Outcome State Fault Refusal :=
  live (State.takeRequest sl tag (.rebase first.toNat last.toNat column.toNat)) s

/-- CLEAR_OVERS (R146). -/
def execClearOvers (sl : SlotId) (tag : Byte) (s : State) : Host.Outcome State Fault Refusal :=
  live (State.takeRequest sl tag .clearOvers) s

/-- RECALL_SAFE (R102). -/
def execRecallSafe (sl : SlotId) (tag : Byte) (s : State) : Host.Outcome State Fault Refusal :=
  live (State.takeRequest sl tag .recallSafe) s

/-- DESCRIBE (R181). -/
def execDescribe (sl : SlotId) (tag : Byte) (s : State) : Host.Outcome State Fault Refusal :=
  live (State.takeRequest sl tag .describe) s

/-- STORE (R195): a list of no code or of more than 8 does not fit the layout (R171, R188). -/
def execStore (sl : SlotId) (tag : Byte) (codes : List Byte) (s : State) : Host.Outcome State Fault Refusal :=
  live (State.takeRequest sl tag (parseStore codes)) s

/-- RESTART (R197). -/
def execRestart (sl : SlotId) (tag : Byte) (s : State) : Host.Outcome State Fault Refusal :=
  live (State.takeRequest sl tag .restart) s

/-- METERS_ON (R149). -/
def execMetersOn (sl : SlotId) (tag : Byte) (s : State) : Host.Outcome State Fault Refusal :=
  live (State.takeRequest sl tag .metersOn) s

/-- METERS_OFF (R149). -/
def execMetersOff (sl : SlotId) (tag : Byte) (s : State) : Host.Outcome State Fault Refusal :=
  live (State.takeRequest sl tag .metersOff) s

end Sys2Proof.Machine
end

