-- ==== Sys2Proof/Machine/LinkPorts.lean ====
section
/-!
DEFINITION. The link ports (01_link_ports_and_frames.md): light, lock, judging of frames, the alignment buffer, error windows, port loss, deliveries and the control-lane receiver.
-/
namespace Sys2Proof

/-- The light code of a measurement (R2). -/
def LightReading.code : LightReading → Nat
  | .power p => if 0 ≤ p then 0 else if -36000 ≤ p then (-2 * p / 1000).toNat else 254
  | .checkFailed => 255

end Sys2Proof

namespace Sys2Proof.Machine

/-! ## The control-lane receiver (R20) -/

/-- What a receiver holds after a delivery's lane bytes, or none when it is idle; a discarded period has no lane bytes (R20). -/
def assemble (held : Option (List Byte)) (lane : Option (List Byte)) : Option (List Byte) :=
  match lane with
  | none => none
  | some bytes =>
    let code := nth bytes 0 laneIdle
    let content := (bytes.drop 1).take 7
    if code = laneFirst then some content
    else if code = laneNext then held.map (· ++ content)
    else none

/-- What a receiver does with the bytes it then holds: a length above 1,023 drops them, a whole message is tested and handed over
if its check passes, and anything shorter is kept (R20). -/
def settleMessage (held : Option (List Byte)) : Option (List Byte) × Option (Byte × Byte × List Byte) :=
  match held with
  | none => (none, none)
  | some c =>
    if c.length < 4 then (some c, none)
    else if 1023 < bodyLength c then (none, none)
    else if c.length < 6 + bodyLength c then (some c, none)
    else (none, messageParse c)

/-- A delivery's lane bytes, or its discarded mark, reach the slot's receiver; a whole message goes to the request unit (R20,
R170). -/
def State.feedReceiver (d : Desk) (lane : Option (List Byte)) (s : State) : State :=
  let r := settleMessage (assemble (s.lane d).receiver lane)
  let s1 := s.modLane d fun l => { l with receiver := r.1 }
  match r.2 with
  | some (kind, tag, body) => s1.takeMessage (.desk d) kind tag body
  | none => s1

/-! ## Deliveries (R12, R14, R30) -/

/-- A delivery of a port: a number, the audio, and the lane bytes or none for a discarded period (R12). -/
structure Delivery where
  number : Word
  audio : Audio
  lane : Option (List Byte)
deriving DecidableEq, Repr

/-- The delivery of a frame's own content (R12). -/
def Delivery.ofFrame (f : StageFrame) : Delivery := { number := f.number, audio := f.audio, lane := some f.lane }

/-- A delivery of held samples under a number, marked discarded (R12). -/
def Port.heldDelivery (r : Port) (n : Word) : Delivery := { number := n, audio := r.held, lane := none }

/-- The delivery a port makes in a frame period, given what the period itself would deliver. A port that delivers from its buffer
gives the frame returned at the switch if it is still to come, else the number after its last one (R12, R14, R32). -/
def Port.deliver (own : Delivery) (r : Port) : Port × Option Delivery :=
  match r.bufLast with
  | none => ({ r with held := own.audio }, some own)
  | some n =>
    if r.skip then ({ r with skip := false }, none)
    else
      match r.captured with
      | some f => ({ r with captured := none, held := f.audio }, some (.ofFrame f))
      | none =>
        let dl := match r.query (n + 1) with
          | some f => .ofFrame f
          | none => r.heldDelivery (n + 1)
        ({ r with bufLast := some (n + 1), held := dl.audio }, some dl)

/-- A slot takes a delivery: audio through the concealment, unless a concealed switch has fixed the samples of this frame period,
and the number of a valid frame (R30, R33; log 14). -/
def Slot.absorb (dl : Delivery) (r : Slot) : Slot :=
  let r1 := if r.produced then r else r.takeAudio dl.audio dl.lane.isSome
  { r1 with taken := true, lastTaken := if dl.lane.isSome then some dl.number else r1.lastTaken }

/-- A slot takes a delivery, and its receiver the lane bytes (R20, R30). -/
def State.absorb (d : Desk) (dl : Delivery) (s : State) : State := (s.modSlot d (Slot.absorb dl)).feedReceiver d dl.lane

/-- The slot waits for a delivery of a port in this frame period: it is ACTIVE, the port is its active path, and it has taken no
delivery yet (R30). -/
def State.awaits (d : Desk) (p : LinkPort) (s : State) : Bool :=
  decide ((s.slot d).state = .active ∧ (s.slot d).active = some p ∧ (s.slot d).taken = false)

/-- A port's delivery is taken by the slot whose active path it is; the end of a fade that is overdue is taken first (R30; log 2). -/
def State.takeDelivery (p : LinkPort) (dl : Delivery) (s : State) : State :=
  match s.boundTo p with
  | none => s
  | some d =>
    if s.awaits d p then
      let s1 := (s.fadeOutEnd d).fadeInEnd d
      if s1.awaits d p then s1.absorb d dl else s1
    else s

/-- The port record after its returned frame has been taken: the period in which that happens brings no further delivery from its
buffer, so the port's own event of that period, if it is still to come, delivers nothing (R14, R32; log 15). -/
def Port.returned (f : StageFrame) (r : Port) : Port := { r with captured := none, held := f.audio, skip := !r.frameSeen }

/-- A slot that has taken nothing in this period takes the frame returned at a hitless switch, if the port is still its active path
(R32; a second switch before that: DEDUCED, log 16). -/
def State.takeReturned (d : Desk) (s : State) : State :=
  match (s.slot d).active with
  | none => s
  | some p =>
    match (s.port p).captured with
    | none => s
    | some f =>
      if s.awaits d p then (s.modPort p (Port.returned f)).absorb d (.ofFrame f) else s

/-- The same for every desk slot. -/
def State.settleReturned (s : State) : State := State.foldOver State.takeReturned Desk.all s

/-! ## Port loss and error windows (R10, R11) -/

/-- A port loss in the port record (R11): the port enters SEEKING with a lock run of 0, or DARK. A frame returned at a hitless switch
that the slot has not yet taken goes with the buffer (DEDUCED, log 16). -/
def Port.lose (next : PortState) (r : Port) : Port :=
  { r with state := next, lockRun := 0, identSeen := none, roleSeen := none, missingRun := 0, mismatchRun := 0, windowPos := 0,
           windowCount := 0, lossAge := 0, buffer := [], bufLast := none, captured := none, skip := false }

/-- The end of a fade of the slot that runs on a port, if it is overdue (R33 to R35; log 2). -/
def State.fadeEndsOn (p : LinkPort) (s : State) : State :=
  match s.boundTo p with
  | some d => if (s.slot d).active = some p then (s.fadeOutEnd d).fadeInEnd d else s
  | none => s

/-- A port loss: an overdue end of a fade first, so that a loss after step 64 finds the concealment state NONE, then the record and
one loss event (R11, R35; log 2). -/
def State.portLoss (p : LinkPort) (next : PortState) (s : State) : State :=
  ((s.fadeEndsOn p).modPort p (Port.lose next)).lossEvent p

/-- The length of an error window in frame periods (R10). -/
def windowLength : Nat := 4800

/-- The port record after a completed window: the count is kept, the state follows it, the next window begins (R10). -/
def Port.completeWindow (r : Port) : Port :=
  let r1 := { r with lastWindowCount := r.windowCount, windowPos := 0, windowCount := 0 }
  match r.state with
  | .locked => if 8 ≤ r.windowCount then { r1 with state := .errored } else r1
  | .errored => if r.windowCount ≤ 1 then { r1 with state := .locked } else r1
  | .dark => r1
  | .seeking => r1

/-- ERROR_WINDOW_COMPLETE: a window of 4,800 periods is acted on; a change of state is an errored or recovered event (R10). -/
def State.errorWindowComplete (p : LinkPort) (s : State) : State :=
  if (s.port p).usable ∧ windowLength ≤ (s.port p).windowPos then
    let s1 := s.modPort p Port.completeWindow
    if (s1.port p).state = (s.port p).state then s1 else s1.qualityEvent p
  else s

/-! ## Seeking and lock (R5) -/

/-- A valid frame in SEEKING: the lock run (R5). -/
def Port.seek (f : StageFrame) (r : Port) : Port :=
  { r with lockRun := if 0 < r.lockRun ∧ f.number = r.seekNumber + 1 ∧ f.ident = r.seekIdent then r.lockRun + 1 else 1,
           seekNumber := f.number, seekIdent := f.ident }

/-- The lock run that locks a port (R5). -/
def lockLength : Nat := 32

/-- The port record as a locking frame leaves it (R5). -/
def Port.lock (f : StageFrame) (r : Port) : Port :=
  { r with state := .locked, identSeen := some f.ident, roleSeen := some (roleOfCode f.roleCode), expected := f.number + 1,
           missingRun := 0, mismatchRun := 0, windowPos := 0, windowCount := 0, lastWindowCount := 0, buffer := [f],
           held := f.audio, bufLast := none, captured := none, skip := false }

/-- A valid frame in SEEKING: at a lock run of 32 the port locks, the lock event is answered, and the locking frame is the first
delivery of the slot that runs on the port (R5, R24, R26, R30, R40). -/
def State.seekFrame (p : LinkPort) (f : StageFrame) (s : State) : State :=
  let r := (s.port p).seek f
  if r.lockRun < lockLength then s.modPort p fun _ => r
  else
    (((s.modPort p fun _ => r.lock f).lockEvent p f.ident (roleOfCode f.roleCode)).settleReturned).takeDelivery p (.ofFrame f)

/-! ## Judging a frame period (R6 to R9, R13) -/

/-- A frame enters the alignment buffer: numbers outside the 64 that end at its own are removed (R13). -/
def Port.store (f : StageFrame) (r : Port) : Port :=
  { r with buffer := (r.buffer.filter fun g => decide ((f.number - g.number).toNat < 64 ∧ g.number ≠ f.number)) ++ [f] }

/-- A valid frame that carries identity seen: a number other than the expected one is a sequence slip, which empties the buffer and
ends delivery from it (R6, R7, R9, R14). -/
def Port.accept (f : StageFrame) (r : Port) : Port :=
  let r1 := if f.number = r.expected then r else { r with buffer := [], bufLast := none, captured := none, skip := false }
  { r1.store f with expected := f.number + 1, missingRun := 0, mismatchRun := 0 }

/-- A valid frame with another identity (R6, R7). -/
def Port.mismatch (r : Port) : Port := { r with mismatchRun := r.mismatchRun + 1, missingRun := 0, expected := r.expected + 1 }

/-- A CRC-failed frame (R7, R8). -/
def Port.crcFailed (r : Port) : Port := { r with windowCount := r.windowCount + 1, missingRun := 0, expected := r.expected + 1 }

/-- A missing frame (R7). -/
def Port.missing (r : Port) : Port := { r with missingRun := r.missingRun + 1, expected := r.expected + 1 }

/-- A frame period counts toward the error window (R10). -/
def Port.countPeriod (r : Port) : Port := { r with windowPos := r.windowPos + 1 }

/-- The run of missing or mismatched frames that is a port loss (R6, R7). -/
def lossRun : Nat := 4

/-- The end of a frame period that is a port loss; a window that completes in the same period is completed before it if the sender
says so (R11; log 20). -/
def State.loseAtPeriodEnd (p : LinkPort) (windowFirst : Bool) (s : State) : State :=
  (if windowFirst then s.errorWindowComplete p else s).portLoss p .seeking

/-- A frame period of a LOCKED or ERRORED port: `judge` changes the record, `own` is what the period itself would deliver, `lost`
says that it ends in a port loss (R6 to R12). -/
def State.lockedPeriod (p : LinkPort) (judge : Port → Port) (own : Port → Delivery) (lost : Port → Bool) (windowFirst : Bool)
    (s : State) : State :=
  let s0 := s.errorWindowComplete p
  let r := (judge (s0.port p)).countPeriod
  let x := r.deliver (own (s0.port p))
  let s1 := s0.modPort p fun _ => x.1
  let s2 := match x.2 with
    | some dl => s1.takeDelivery p dl
    | none => s1
  if lost r then s2.loseAtPeriodEnd p windowFirst else s2

/-- A frame event of a port opens a frame period of it: a second one before the part's own frame period belongs to a new period, in
which the slot on the port may take a delivery again (log 13). -/
def State.openPeriod (p : LinkPort) (s : State) : State :=
  let s1 := if (s.port p).frameSeen then
      State.foldOver
        (fun d s => if (s.slot d).active = some p then s.modSlot d fun r => { r with produced := false, taken := false } else s)
        Desk.all (s.modPort p fun r => { r with skip := false })
    else s
  s1.modPort p fun r => { r with frameSeen := true }

/-- VALID_FRAME by the port's state (R5, R6, R9). -/
def State.validFrame (p : LinkPort) (f : StageFrame) (windowFirst : Bool) (s : State) : State :=
  let s0 := s.openPeriod p
  match (s.port p).state with
  | .dark => s
  | .seeking => s0.seekFrame p f
  | .locked =>
    if (s.port p).identSeen = some f.ident then s0.lockedPeriod p (Port.accept f) (fun _ => .ofFrame f) (fun _ => false) false
    else s0.lockedPeriod p Port.mismatch (fun r => r.heldDelivery r.expected) (fun r => decide (lossRun ≤ r.mismatchRun)) windowFirst
  | .errored =>
    if (s.port p).identSeen = some f.ident then s0.lockedPeriod p (Port.accept f) (fun _ => .ofFrame f) (fun _ => false) false
    else s0.lockedPeriod p Port.mismatch (fun r => r.heldDelivery r.expected) (fun r => decide (lossRun ≤ r.mismatchRun)) windowFirst

/-- CRC_FAILED_FRAME by the port's state (R5, R8). -/
def State.crcFailedFrame (p : LinkPort) (s : State) : State :=
  let s0 := s.openPeriod p
  match (s.port p).state with
  | .dark => s
  | .seeking => s0.modPort p fun r => { r with lockRun := 0 }
  | .locked => s0.lockedPeriod p Port.crcFailed (fun r => r.heldDelivery r.expected) (fun _ => false) false
  | .errored => s0.lockedPeriod p Port.crcFailed (fun r => r.heldDelivery r.expected) (fun _ => false) false

/-- A fourth missing period: it is counted, delivers nothing and is a port loss (R7, R10, R11). It adds 1 to the expected number too,
of which R7 says nothing at the fourth (DESIGN CHOICE, log 48). -/
def State.fourthMissing (p : LinkPort) (windowFirst : Bool) (s : State) : State :=
  ((s.errorWindowComplete p).modPort p fun r => r.missing.countPeriod).loseAtPeriodEnd p windowFirst

/-- A missing period of a LOCKED or ERRORED port (R7). -/
def State.missingPeriod (p : LinkPort) (windowFirst : Bool) (s : State) : State :=
  if (s.port p).missingRun + 1 < lossRun then
    s.lockedPeriod p Port.missing (fun r => r.heldDelivery r.expected) (fun _ => false) false
  else s.fourthMissing p windowFirst

/-- MISSING_FRAME by the port's state (R5, R7). -/
def State.missingFrame (p : LinkPort) (windowFirst : Bool) (s : State) : State :=
  let s0 := s.openPeriod p
  match (s.port p).state with
  | .dark => s
  | .seeking => s0.modPort p fun r => { r with lockRun := 0 }
  | .locked => s0.missingPeriod p windowFirst
  | .errored => s0.missingPeriod p windowFirst

/-! ## Light (R2 to R4) -/

/-- The frames between two light measurements (R2). -/
def lightPeriod : Nat := 48

/-- LIGHT_MEASUREMENT: due 48 frames after the last; the code is replaced and acts on the port state (R2, R4; log 1). -/
def State.lightMeasurement (p : LinkPort) (reading : LightReading) (s : State) : State :=
  if lightPeriod ≤ (s.port p).lightFrames then
    let s1 := s.modPort p fun r => { r with lightCode := reading.code, lightFrames := 0 }
    match (s.port p).state with
    | .dark => if reading.code = 254 then s1 else s1.modPort p fun r => { r with state := .seeking, lockRun := 0 }
    | .seeking => if reading.code = 254 then s1.modPort p fun r => { r with state := .dark } else s1
    | .locked => if reading.code = 254 then s1.portLoss p .dark else s1
    | .errored => if reading.code = 254 then s1.portLoss p .dark else s1
  else s

/-! ## Commands -/

/-- LIGHT_MEASUREMENT (R4). -/
def execLightMeasurement (p : LinkPort) (reading : LightReading) (s : State) : Host.Outcome State Fault Refusal :=
  live (fun s => (s.lightMeasurement p reading).settleReturned) s

/-- VALID_FRAME (R9). -/
def execValidFrame (p : LinkPort) (f : StageFrame) (windowFirst : Bool) (s : State) : Host.Outcome State Fault Refusal :=
  live (fun s => (s.validFrame p f windowFirst).settleReturned) s

/-- CRC_FAILED_FRAME (R8). -/
def execCrcFailedFrame (p : LinkPort) (s : State) : Host.Outcome State Fault Refusal :=
  live (fun s => (s.crcFailedFrame p).settleReturned) s

/-- MISSING_FRAME (R7). -/
def execMissingFrame (p : LinkPort) (windowFirst : Bool) (s : State) : Host.Outcome State Fault Refusal :=
  live (fun s => (s.missingFrame p windowFirst).settleReturned) s

/-- ERROR_WINDOW_COMPLETE (R10). -/
def execErrorWindowComplete (p : LinkPort) (s : State) : Host.Outcome State Fault Refusal :=
  live (fun s => (s.errorWindowComplete p).settleReturned) s

/-- FADE_IN_END (R35). -/
def execFadeInEnd (d : Desk) (s : State) : Host.Outcome State Fault Refusal :=
  live (fun s => (s.fadeInEnd d).settleReturned) s

/-- PATH_PREFER (R37). -/
def execPathPrefer (sl : SlotId) (tag port : Byte) (s : State) : Host.Outcome State Fault Refusal :=
  live (fun s => (s.takeRequest sl tag (.pathPrefer port.toNat)).settleReturned) s

end Sys2Proof.Machine
end

