-- ==== Sys2Proof/Machine/PanelPort.lean ====
section
/-!
DEFINITION. The panel port's transactions (10_control_lane_requests_and_reports.md, 10.6).
-/
namespace Sys2Proof.Machine

/-- STATUS_READ: the part returns its status byte (R185). -/
def State.statusRead (s : State) : State := { s with panelReturn := [s.statusByte] }

/-- A message the panel wrote while the port was ready: dropped if it is too long or its check fails, else taken as a request of slot
0 (R185; a message cut short: log 29). -/
def State.takeWritten (message : List Byte) (s : State) : State :=
  match messageParse message with
  | some (kind, tag, body) => s.takeMessage .panel kind tag body
  | none => s

/-- REQUEST_WRITE: the status byte is returned first; while it shows not ready the rest is ignored (R185). -/
def State.requestWrite (message : List Byte) (s : State) : State :=
  { (if s.panelReady then s.takeWritten message else s) with panelReturn := [s.statusByte] }

/-- The empty message of a read that finds nothing to read: kind 00h, body length 0; its tag is a free value (R185; log 27). -/
def State.emptyMessage (s : State) : List Byte := messageContent 0 (Config.unstatedByte s.free 0) []

/-- MESSAGE_READ: the head message is returned and removed if it can be read, else the empty message (R185, R186). -/
def State.messageRead (s : State) : State :=
  match s.panelQueue with
  | m :: rest =>
    if m.uncompleted then { s with panelReturn := s.emptyMessage, free := s.free + 1 }
    else { s with panelQueue := rest, panelReturn := m.content }
  | [] => { s with panelReturn := s.emptyMessage, free := s.free + 1 }

/-! ## Commands -/

/-- STATUS_READ (R185). -/
def execStatusRead (s : State) : Host.Outcome State Fault Refusal := live State.statusRead s

/-- REQUEST_WRITE (R185). -/
def execRequestWrite (message : List Byte) (s : State) : Host.Outcome State Fault Refusal :=
  live (fun s => (s.requestWrite message).settleReturned) s

/-- MESSAGE_READ (R185). -/
def execMessageRead (s : State) : Host.Outcome State Fault Refusal := live State.messageRead s

/-- UNKNOWN_TRANSACTION: the part returns nothing and takes nothing, whatever the code (R185). -/
def execUnknownTransaction (_code : Byte) (s : State) : Host.Outcome State Fault Refusal :=
  live (fun s => { s with panelReturn := [] }) s

end Sys2Proof.Machine
end

