-- ==== Sys2Proof/Machine/FramePeriod.lean ====
section
/-!
DEFINITION. FRAME_PERIOD: what falls due before the frame, the views, buses, mixes, outputs and peaks of the frame, the desk-bound frames, and the counters (R15, R74, R92, R136, R140).
-/
namespace Sys2Proof.Machine

/-! ## What falls due before the frame (log 2) -/

/-- The expiries of an input's channel that are due (R57 to R59). -/
def State.channelDue (i : Fin 64) (s : State) : State := ((s.markerTimeout i).holdEnd i).retryExpiry i

/-- The meter boundary, while it is open: the period end, the batches, the digests (R143, R166, R183). -/
def State.boundaryDue (s : State) : State := (State.foldOver State.batchEffect SlotId.all s.meterPeriodEnd).digestCadence

/-- Error windows that are due (R10); a frame returned at a switch is settled, as by ERROR_WINDOW_COMPLETE (R32). -/
def State.windowsDue (s : State) : State :=
  State.foldOver (fun p s => (s.errorWindowComplete p).settleReturned) LinkPort.all s

/-- Ends of fades that are due (R33, R34); a frame returned at a deferred switch is settled, as by FADE_IN_END (R32). -/
def State.fadesDue (s : State) : State :=
  State.foldOver (fun d s => ((s.fadeOutEnd d).fadeInEnd d).settleReturned) Desk.all s

/-- Grace timers that have expired (R41). -/
def State.graceDue (s : State) : State := State.foldOver State.graceExpiry Desk.all s

/-- Expiries of channel timers (R57 to R59). -/
def State.channelsDue (s : State) : State := State.foldOver State.channelDue (List.finRange 64) s

/-- Ends of revert holds and of crossfades (R127, R131). -/
def State.outputsDue (s : State) : State := { s with outputs := s.outputs.map fun o => o.holdExpiry.crossfadeEnd }

/-- Talk timers that have expired (R116). -/
def State.talkDue (s : State) : State :=
  State.foldOver (fun b s => s.modBus b (BusRec.timeout s.grantLimit)) Bus.all s

/-- Every event that has fallen due and has not been taken by its own command, in a fixed order (log 2). -/
def State.takeDue (s : State) : State :=
  s.windowsDue.fadesDue.graceDue.channelsDue.outputsDue.talkDue.boundaryDue.settingSlot.pollSlot.startupComplete

/-- The slots that have taken no delivery in the frame period: a frame returned at a hitless switch, else a period without one
(R30, R32, R33, R38). -/
def State.closeSlots (s : State) : State :=
  let s1 := s.settleReturned
  { s1 with slots := s1.slots.map fun _ r => if r.produced then r else r.idlePeriod }

/-! ## The frame -/

/-- Converter lanes to views: gates move, gated samples are formed, a returned card's gain comes with its sample, the trims ramp
(R45, R49, R63, R74). -/
def State.formInputs (lanes : List Sample) (s : State) : State × List (PerColumn Sample) :=
  let chans := s.channels.map Channel.moveGate
  let comp := mapFrom (fun i ic =>
    let c := nth chans i Channel.reset
    ic.advance (if c.handOver then some c.applied.effective else none)) 0 s.comp
  let raw := mapFrom (fun i ic => ic.views ((nth chans i Channel.reset).gated (s.card (i / 8)).present (nth lanes i 0))) 0 comp
  ({ s with channels := chans, comp := comp }, raw)

/-- The samples a frame is made of: the four views of each input before saturation, the two bus samples and the mixes. -/
structure FrameSamples where
  raw : List (PerColumn Sample)
  tb1 : Sample
  tb2 : Sample
  mixes : List Sample
deriving DecidableEq, Repr

/-- The saturated views (R70, R74). -/
def FrameSamples.views (x : FrameSamples) : List (PerColumn Sample) := x.raw.map fun v => v.map fun _ y => saturate y

/-- A column of the saturated views (R82). -/
def FrameSamples.column (x : FrameSamples) (col : Fin 4) : List Sample := x.views.map fun v => v.get col

/-- The 24 mixes of a frame (R92). -/
def State.formMixes (engine : List Sample) (tb1 tb2 : Sample) (s : State) : State × List Sample :=
  let formed := s.mixes.map fun m => (m.advance (s.hasTalker .tb1) (s.hasTalker .tb2)).form engine tb1 tb2
  ({ s with mixes := formed.map Prod.fst }, formed.map Prod.snd)

/-- The sample of a source in a frame (R124). -/
def State.sourceSample (x : FrameSamples) (s : State) (code : Nat) : Sample :=
  match sourceOf code with
  | some .none => 0
  | some (.mix m) => nth x.mixes m 0
  | some (.input n) => nth (x.column 0) n 0
  | some (.ret d n) => nth (s.slot d).samples.returns n 0
  | some (.bus .tb1) => x.tb1
  | some (.bus .tb2) => x.tb2
  | none => 0

/-- The 32 outputs of a frame, handed to the stage output lanes and, with the selection states, to the meter unit (R136). -/
def State.formOutputs (x : FrameSamples) (s : State) : State :=
  let formed := s.outputs.map fun o => o.form s.started (s.sourceSample x o.primary) (s.sourceSample x (o.fallback.getD 0))
  let outs := formed.map Prod.fst
  { s with outputs := outs, stageOut := formed.map Prod.snd,
           meter := { s.meter with outNone := outs.map fun o => decide (o.selection = .noneAvailable) } }

/-- A peak and a frame's sample (R140). -/
def raisePeak (peak : Nat) (x : Sample) : Nat := if peak < magnitude x then magnitude x else peak

/-- The peaks and view clip indications after a frame (R140, R142). -/
def State.gatherPeaks (x : FrameSamples) (s : State) : State :=
  { s with meter := { s.meter with
      viewPeaks := List.zipWith (fun (p : PerColumn Nat) (v : PerColumn Sample) => p.map fun c n => raisePeak n (v.get c))
        s.meter.viewPeaks x.views,
      viewClips := List.zipWith (fun (f : PerColumn Bool) (v : PerColumn Sample) => f.map fun c b => b || clips (v.get c))
        s.meter.viewClips x.raw,
      mixPeaks := List.zipWith raisePeak s.meter.mixPeaks x.mixes,
      outPeaks := List.zipWith raisePeak s.meter.outPeaks s.stageOut,
      returnPeaks := s.meter.returnPeaks.map fun d ps => mapFrom (fun n p => raisePeak p (nth (s.slot d).samples.returns n 0)) 0 ps } }

/-! ## Desk-bound frames (R15, R16, R21) -/

/-- The desk-bound frame of a port, given each slot's lane bytes (R15, R16). A port bound or unbound by a frame event has its new
content in the FRAME_PERIOD that follows the event: R16's next frame period is taken as that one (DESIGN CHOICE, log 49). -/
def State.deskFrame (x : FrameSamples) (laneOf : PerDesk (List Byte)) (p : LinkPort) (s : State) : DeskFrame :=
  match s.boundTo p with
  | some d =>
    { number := s.frameCounter, unit := s.unitNumber, slot := d.number,
      admission := if s.started then .admitted else .unitStarting, ready := (s.lane d).ready, inputs := x.column d.column,
      talk1 := x.tb1, talk2 := x.tb2, lane := laneOf.get d }
  | none =>
    { number := s.frameCounter, unit := s.unitNumber, slot := 0,
      admission := if s.started then .notAdmitted else .unitStarting, ready := false, inputs := List.replicate 64 0,
      talk1 := 0, talk2 := 0, lane := laneBytes laneIdle [] }

/-- Every port sends its desk-bound frame; both ports of a slot send the same lane bytes (R15, R16, R21). -/
def State.sendFrames (x : FrameSamples) (s : State) : State :=
  let run := s.lanes.map fun d l => l.frame (decide ((s.slot d).state = .active))
  let laneOf := run.map fun _ r => r.2
  { s with sent := s.ports.map fun p _ => s.deskFrame x laneOf p, lanes := run.map fun _ r => r.1 }

/-! ## Counters and timers -/

/-- Loss age and the light monitor's interval count a frame (R1, R2). -/
def Port.tick (r : Port) : Port :=
  { r with lossAge := satAdd 4294967295 r.lossAge 1, lightFrames := satAdd lightPeriod r.lightFrames 1, skip := false,
           frameSeen := false }

/-- A grace timer counts a frame (R39); the next period's samples are still to come. -/
def Slot.tick (r : Slot) : Slot := { r with grace := r.grace.map Timer.tick, produced := false, taken := false }

/-- A revert hold counts a frame (R131). -/
def Output.tick (o : Output) : Output := { o with hold := o.hold.map Timer.tick }

/-- The frames of a meter period (R139). -/
def meterPeriod : Nat := 480

/-- Every counter and timer counts the frame; after the 480th of a meter period the boundary is open (R139). -/
def State.tick (s : State) : State :=
  let n := s.meter.frames + 1
  { s with
    ports := s.ports.map fun _ => Port.tick,
    frameCounter := s.frameCounter + 1,
    slots := s.slots.map fun _ => Slot.tick,
    channels := s.channels.map Channel.tick,
    line := s.line.tick,
    buses := { tb1 := s.buses.tb1.tick, tb2 := s.buses.tb2.tick },
    outputs := s.outputs.map Output.tick,
    meter := { s.meter with frames := n },
    boundary := if meterPeriod ≤ n then { Boundary.closed with opened := true } else Boundary.closed }

/-- The frame itself, once what was due has been taken and the slot samples stand (R74, R110, R92, R136, R140, R15). -/
def State.formFrame (lanes : List Sample) (stageTalk : Sample) (s : State) : State :=
  let inputs := s.formInputs lanes
  let x : FrameSamples :=
    { raw := inputs.2, tb1 := s.busSample stageTalk .tb1, tb2 := s.busSample stageTalk .tb2, mixes := [] }
  let mixes := inputs.1.formMixes (x.column 0) x.tb1 x.tb2
  let x' := { x with mixes := mixes.2 }
  (((mixes.1.formOutputs x').gatherPeaks x').sendFrames x').tick

/-- FRAME_PERIOD (R74): what is due, the slots' samples, the frame. -/
def State.framePeriod (lanes : List Sample) (stageTalk : Sample) (s : State) : State :=
  s.takeDue.closeSlots.formFrame lanes stageTalk

/-! ## Commands -/

/-- FRAME_PERIOD (R74). -/
def execFramePeriod (lanes : List Sample) (stageTalk : Sample) (s : State) : Host.Outcome State Fault Refusal :=
  live (State.framePeriod lanes stageTalk) s

end Sys2Proof.Machine
end

