-- ==== Sys2Proof/Machine/Dispatch.lean ====
section
/-!
DEFINITION. The command table: one arm per command, one meaning per arm.
-/
namespace Sys2Proof.Machine

/-- The effect of a command on everything but the queue of waiting commands. -/
def exec (i : Instr) (s : State) : Host.Outcome State Fault Refusal :=
  match i with
  | .fullReset straps => Sys2Proof.Machine.execFullReset straps s
  | .lightMeasurement p reading => Sys2Proof.Machine.execLightMeasurement p reading s
  | .validFrame p f windowFirst => Sys2Proof.Machine.execValidFrame p f windowFirst s
  | .crcFailedFrame p => Sys2Proof.Machine.execCrcFailedFrame p s
  | .missingFrame p windowFirst => Sys2Proof.Machine.execMissingFrame p windowFirst s
  | .errorWindowComplete p => Sys2Proof.Machine.execErrorWindowComplete p s
  | .fadeOutEnd d => Sys2Proof.Machine.execFadeOutEnd d s
  | .fadeInEnd d => Sys2Proof.Machine.execFadeInEnd d s
  | .graceExpiry d => Sys2Proof.Machine.execGraceExpiry d s
  | .framePeriod lanes stageTalk => Sys2Proof.Machine.execFramePeriod lanes stageTalk s
  | .trimRampStep input column => Sys2Proof.Machine.execTrimRampStep input column s
  | .levelRampStep level => Sys2Proof.Machine.execLevelRampStep level s
  | .duckReleaseStep mix => Sys2Proof.Machine.execDuckReleaseStep mix s
  | .crossfadeEnd o => Sys2Proof.Machine.execCrossfadeEnd o s
  | .gainChangeMarker input => Sys2Proof.Machine.execGainChangeMarker input s
  | .settingSlot => Sys2Proof.Machine.execSettingSlot s
  | .settingAnswer card channel => Sys2Proof.Machine.execSettingAnswer card channel s
  | .settingNoAnswer => Sys2Proof.Machine.execSettingNoAnswer s
  | .markerTimeout input => Sys2Proof.Machine.execMarkerTimeout input s
  | .holdEnd input => Sys2Proof.Machine.execHoldEnd input s
  | .retryTimerExpiry input => Sys2Proof.Machine.execRetryTimerExpiry input s
  | .pollSlot => Sys2Proof.Machine.execPollSlot s
  | .pollAnswer card overcurrent => Sys2Proof.Machine.execPollAnswer card overcurrent s
  | .pollUnanswered => Sys2Proof.Machine.execPollUnanswered s
  | .revertHoldExpiry o => Sys2Proof.Machine.execRevertHoldExpiry o s
  | .talkTimeout b => Sys2Proof.Machine.execTalkTimeout b s
  | .meterPeriodEnd => Sys2Proof.Machine.execMeterPeriodEnd s
  | .batchEffect slot => Sys2Proof.Machine.execBatchEffect slot s
  | .digestCadence => Sys2Proof.Machine.execDigestCadence s
  | .loadEnd silentFrom => Sys2Proof.Machine.execLoadEnd silentFrom s
  | .startupComplete => Sys2Proof.Machine.execStartupComplete s
  | .storeRecordChecked readBack => Sys2Proof.Machine.execStoreRecordChecked readBack s
  | .unknownKind slot tag kind => Sys2Proof.Machine.execUnknownKind slot tag kind s
  | .get slot tag first count => Sys2Proof.Machine.execGet slot tag first count s
  | .writeDesiredSetting slot tag index value echo => Sys2Proof.Machine.execWriteDesiredSetting slot tag index value echo s
  | .writeColumnMode slot tag index value echo => Sys2Proof.Machine.execWriteColumnMode slot tag index value echo s
  | .writeCrosspoint slot tag index value echo => Sys2Proof.Machine.execWriteCrosspoint slot tag index value echo s
  | .writeDuckCeiling slot tag index value echo => Sys2Proof.Machine.execWriteDuckCeiling slot tag index value echo s
  | .writeOutputSource slot tag index value echo => Sys2Proof.Machine.execWriteOutputSource slot tag index value echo s
  | .writeOutputLevel slot tag index value echo => Sys2Proof.Machine.execWriteOutputLevel slot tag index value echo s
  | .writeOverride slot tag index value echo => Sys2Proof.Machine.execWriteOverride slot tag index value echo s
  | .writeTalkClass slot tag index value echo => Sys2Proof.Machine.execWriteTalkClass slot tag index value echo s
  | .writeTalkLimit slot tag index value echo => Sys2Proof.Machine.execWriteTalkLimit slot tag index value echo s
  | .writeGraceTime slot tag index value echo => Sys2Proof.Machine.execWriteGraceTime slot tag index value echo s
  | .writeRevertHoldTime slot tag index value echo => Sys2Proof.Machine.execWriteRevertHoldTime slot tag index value echo s
  | .writeOtherIndex slot tag index value echo => Sys2Proof.Machine.execWriteOtherIndex slot tag index value echo s
  | .setWindowMatrix slot tag firstSource lastSource firstMix lastMix echo values => Sys2Proof.Machine.execSetWindowMatrix slot tag firstSource lastSource firstMix lastMix echo values s
  | .setWindowRun slot tag first echo values => Sys2Proof.Machine.execSetWindowRun slot tag first echo values s
  | .claim slot tag domain => Sys2Proof.Machine.execClaim slot tag domain s
  | .release slot tag domain => Sys2Proof.Machine.execRelease slot tag domain s
  | .forceRelease slot tag domain => Sys2Proof.Machine.execForceRelease slot tag domain s
  | .clearTrespass slot tag domain => Sys2Proof.Machine.execClearTrespass slot tag domain s
  | .batchOpen slot tag => Sys2Proof.Machine.execBatchOpen slot tag s
  | .batchApply slot tag => Sys2Proof.Machine.execBatchApply slot tag s
  | .batchDrop slot tag => Sys2Proof.Machine.execBatchDrop slot tag s
  | .talkPress slot tag bus => Sys2Proof.Machine.execTalkPress slot tag bus s
  | .talkRelease slot tag bus => Sys2Proof.Machine.execTalkRelease slot tag bus s
  | .rebase slot tag first last column => Sys2Proof.Machine.execRebase slot tag first last column s
  | .clearOvers slot tag => Sys2Proof.Machine.execClearOvers slot tag s
  | .pathPrefer slot tag port => Sys2Proof.Machine.execPathPrefer slot tag port s
  | .recallSafe slot tag => Sys2Proof.Machine.execRecallSafe slot tag s
  | .describe slot tag => Sys2Proof.Machine.execDescribe slot tag s
  | .store slot tag codes => Sys2Proof.Machine.execStore slot tag codes s
  | .restart slot tag => Sys2Proof.Machine.execRestart slot tag s
  | .metersOn slot tag => Sys2Proof.Machine.execMetersOn slot tag s
  | .metersOff slot tag => Sys2Proof.Machine.execMetersOff slot tag s
  | .statusRead => Sys2Proof.Machine.execStatusRead s
  | .requestWrite message => Sys2Proof.Machine.execRequestWrite message s
  | .messageRead => Sys2Proof.Machine.execMessageRead s
  | .unknownTransaction code => Sys2Proof.Machine.execUnknownTransaction code s
  | .powerLoss => Sys2Proof.Machine.execPowerLoss s

end Sys2Proof.Machine
end

