-- ==== Sys2Proof/WellFormed.lean ====
section
/-!
DEFINITION. Which commands can occur: samples of 24 bits, frames and lanes of the right length, bodies that fit a message, and SET rows whose index is of their class.
-/
namespace Sys2Proof

open Sys2Proof.Machine

/-- A 24-bit sample (00_scope). -/
def sampleOk (x : Sample) : Bool := decide (sampleMin ≤ x) && decide (x ≤ fullScale)

/-- Sixteen returns and a talk sample, all of 24 bits (R17). -/
def Audio.ok (x : Audio) : Bool := decide (x.returns.length = 16) && x.returns.all sampleOk && sampleOk x.talk

/-- The audio and the eight lane bytes of a stage-bound frame (R17). -/
def StageFrame.ok (f : StageFrame) : Bool := f.audio.ok && decide (f.lane.length = 8)

/-- Indices of desired settings (R175). -/
def isSettingIndex (i : Nat) : Bool := decide (i < 192)

/-- Indices of column modes (R175). -/
def isModeIndex (i : Nat) : Bool := decide (192 ≤ i ∧ i < 320)

/-- Indices of crosspoints and masters (R175). -/
def isLevelIndex (i : Nat) : Bool := decide ((1024 ≤ i ∧ i < 2608) ∨ (2700 ≤ i ∧ i < 2724))

/-- Indices of duck ceilings (R175). -/
def isCeilingIndex (i : Nat) : Bool := decide (2730 ≤ i ∧ i < 2754)

/-- Indices of output sources (R175). -/
def isSourceIndex (i : Nat) : Bool := decide ((2800 ≤ i ∧ i < 2832) ∨ (2840 ≤ i ∧ i < 2872))

/-- Indices of output levels (R175). -/
def isOutLevelIndex (i : Nat) : Bool := decide (2880 ≤ i ∧ i < 2912)

/-- Indices of overrides (R175). -/
def isOverrideIndex (i : Nat) : Bool := decide (2920 ≤ i ∧ i < 2952)

/-- Indices of talk classes (R175). -/
def isClassIndex (i : Nat) : Bool := decide (3000 ≤ i ∧ i < 3004)

/-- Indices that no row of its own names: read-only, or of no parameter (R175). -/
def isOtherIndex (i : Nat) : Bool :=
  !(isSettingIndex i || isModeIndex i || isLevelIndex i || isCeilingIndex i || isSourceIndex i || isOutLevelIndex i ||
    isOverrideIndex i || isClassIndex i || decide (3010 ≤ i ∧ i ≤ 3012))

/-- The command can occur. -/
def Instr.wellFormed : Instr → Bool
  | .validFrame _ f _ => f.ok
  | .framePeriod lanes stageTalk => decide (lanes.length = 64) && lanes.all sampleOk && sampleOk stageTalk
  | .loadEnd silentFrom => match silentFrom with
    | some n => decide (n < memorySize)
    | none => true
  | .storeRecordChecked readBack => match readBack with
    | some bytes => decide (7 ≤ bytes.length ∧ bytes.length ≤ 8199)
    | none => true
  | .unknownKind _ _ kind => decide (kind ∉ requestKinds)
  | .writeDesiredSetting _ _ i _ _ => isSettingIndex i.toNat
  | .writeColumnMode _ _ i _ _ => isModeIndex i.toNat
  | .writeCrosspoint _ _ i _ _ => isLevelIndex i.toNat
  | .writeDuckCeiling _ _ i _ _ => isCeilingIndex i.toNat
  | .writeOutputSource _ _ i _ _ => isSourceIndex i.toNat
  | .writeOutputLevel _ _ i _ _ => isOutLevelIndex i.toNat
  | .writeOverride _ _ i _ _ => isOverrideIndex i.toNat
  | .writeTalkClass _ _ i _ _ => isClassIndex i.toNat
  | .writeTalkLimit _ _ i _ _ => decide (i.toNat = 3010)
  | .writeGraceTime _ _ i _ _ => decide (i.toNat = 3011)
  | .writeRevertHoldTime _ _ i _ _ => decide (i.toNat = 3012)
  | .writeOtherIndex _ _ i _ _ => isOtherIndex i.toNat
  | .setWindowMatrix _ _ _ _ _ _ _ vs => decide (6 + 2 * vs.length ≤ 1023)
  | .setWindowRun _ _ _ _ vs => decide (4 + 2 * vs.length ≤ 1023)
  | .store _ _ codes => decide (codes.length ≤ 1023)
  | .unknownTransaction code => decide (code ∉ [0x01#8, 0x02#8, 0x03#8])
  | _ => true

end Sys2Proof
end

