-- ==== Sys2Proof/Safety.lean ====
section
/-!
DEFINITION. What a safe run is, and the laws the spec says hold in every state a run reaches: the terms statements are made in.
-/
namespace Sys2Proof

open Sys2Proof.Machine

/-- The requester, the tag and the request of a command that is a request (R188). -/
def Instr.request : Instr → Option (SlotId × Byte × Request)
  | .unknownKind sl tag kind => some (sl, tag, .unknown kind)
  | .get sl tag first count => some (sl, tag, .get first.toNat count.toNat)
  | .writeDesiredSetting sl tag i v e => some (sl, tag, .set i.toNat v.toInt e.toNat)
  | .writeColumnMode sl tag i v e => some (sl, tag, .set i.toNat v.toInt e.toNat)
  | .writeCrosspoint sl tag i v e => some (sl, tag, .set i.toNat v.toInt e.toNat)
  | .writeDuckCeiling sl tag i v e => some (sl, tag, .set i.toNat v.toInt e.toNat)
  | .writeOutputSource sl tag i v e => some (sl, tag, .set i.toNat v.toInt e.toNat)
  | .writeOutputLevel sl tag i v e => some (sl, tag, .set i.toNat v.toInt e.toNat)
  | .writeOverride sl tag i v e => some (sl, tag, .set i.toNat v.toInt e.toNat)
  | .writeTalkClass sl tag i v e => some (sl, tag, .set i.toNat v.toInt e.toNat)
  | .writeTalkLimit sl tag i v e => some (sl, tag, .set i.toNat v.toInt e.toNat)
  | .writeGraceTime sl tag i v e => some (sl, tag, .set i.toNat v.toInt e.toNat)
  | .writeRevertHoldTime sl tag i v e => some (sl, tag, .set i.toNat v.toInt e.toNat)
  | .writeOtherIndex sl tag i v e => some (sl, tag, .set i.toNat v.toInt e.toNat)
  | .setWindowMatrix sl tag s1 s2 m1 m2 e vs =>
    some (sl, tag, .windowMatrix s1.toNat s2.toNat m1.toNat m2.toNat e.toNat (vs.map BitVec.toInt))
  | .setWindowRun sl tag first e vs => some (sl, tag, .windowRun first.toNat e.toNat (vs.map BitVec.toInt))
  | .claim sl tag d => some (sl, tag, .claim d.toNat)
  | .release sl tag d => some (sl, tag, .release d.toNat)
  | .forceRelease sl tag d => some (sl, tag, .forceRelease d.toNat)
  | .clearTrespass sl tag d => some (sl, tag, .clearTrespass d.toNat)
  | .batchOpen sl tag => some (sl, tag, .batchOpen)
  | .batchApply sl tag => some (sl, tag, .batchApply)
  | .batchDrop sl tag => some (sl, tag, .batchDrop)
  | .talkPress sl tag b => some (sl, tag, .talkPress b.toNat)
  | .talkRelease sl tag b => some (sl, tag, .talkRelease b.toNat)
  | .rebase sl tag x y c => some (sl, tag, .rebase x.toNat y.toNat c.toNat)
  | .clearOvers sl tag => some (sl, tag, .clearOvers)
  | .pathPrefer sl tag p => some (sl, tag, .pathPrefer p.toNat)
  | .recallSafe sl tag => some (sl, tag, .recallSafe)
  | .describe sl tag => some (sl, tag, .describe)
  | .store sl tag codes =>
    some (sl, tag, if 1 ≤ codes.length ∧ codes.length ≤ 8 then .store (codes.map BitVec.toNat) else .badBody 0x48#8)
  | .restart sl tag => some (sl, tag, .restart)
  | .metersOn sl tag => some (sl, tag, .metersOn)
  | .metersOff sl tag => some (sl, tag, .metersOff)
  | _ => none

end Sys2Proof

namespace Sys2Proof.Machine

/-- A step that neither faults nor is refused. -/
def State.StepsOn (s : State) : Prop := ∃ t, step s = .next t

/-- A slot is there and has room for an answer: the panel queue for slot 0, else the slot's answer queue (R172, R185, R186). -/
def State.HasRoom (sl : SlotId) (s : State) : Prop :=
  match sl with
  | .panel => s.panelReady = true
  | .desk d => (s.slot d).state ≠ .vacant ∧ (s.lane d).ready = true

/-- A request of a slot is taken and acted upon: power, start-up complete, and room for the answer (R170 to R173). -/
def State.Accepts (sl : SlotId) (s : State) : Prop := s.powered = true ∧ s.started = true ∧ s.HasRoom sl

/-- The memory is in its canonical form. -/
def State.MemoryCanonical (s : State) : Prop := Memory.wf s.memory = true

/-- The tables have the lengths the part has (R44, R48, R71, R86, R123, R140, R142, R151). -/
structure State.Shaped (s : State) : Prop where
  cards : s.cards.length = 8
  channels : s.channels.length = 64
  comp : s.comp.length = 64
  mixes : s.mixes.length = 24
  crosspoints : ∀ m ∈ s.mixes, m.xps.length = 66
  outputs : s.outputs.length = 32
  domains : s.domains.length = 16
  viewPeaks : s.meter.viewPeaks.length = 64
  viewClips : s.meter.viewClips.length = 64
  mixPeaks : s.meter.mixPeaks.length = 24
  outPeaks : s.meter.outPeaks.length = 32
  returnPeaks : ∀ d, (s.meter.returnPeaks.get d).length = 16

/-- The law of a talk bus (R106), its serving order (R107) and its timer (R105, R108). -/
structure BusRec.Lawful (active : SlotId → Prop) (cls : SlotId → Nat) (b : BusRec) : Prop where
  talkerActive : ∀ x, b.talker = some x → active x
  waitingActive : ∀ x, x ∈ b.waiting → active x
  once : b.waiting.Nodup
  apart : ∀ x, b.talker = some x → x ∉ b.waiting
  noQueueWithoutTalker : b.talker = none → b.waiting = []
  ordered : b.waiting.Pairwise fun x y => cls y ≤ cls x
  timed : b.timer.isSome = b.talker.isSome

/-- Both buses obey their law; before start-up nobody is on a bus, and a load comes before start-up (R106, R111, R171, R192). -/
structure State.TalkLawful (s : State) : Prop where
  tb1 : s.buses.tb1.Lawful (fun x => s.slotState x = .active) s.talkClassOf
  tb2 : s.buses.tb2.Lawful (fun x => s.slotState x = .active) s.talkClassOf
  idleBefore : s.started = false → s.buses.tb1.talker = none ∧ s.buses.tb2.talker = none
  loadFirst : s.config.loading = true → s.started = false

/-- The attachment table's law (R22, R24 to R28, R31, R38): the active path of an ACTIVE slot is bound and carries frames, no other
slot has one; a SILENT slot has no port that carries frames and a VACANT slot no port; no port is bound twice and no identity held
twice; the wait list holds unbound ports of consoles that have no slot and is empty while a slot is VACANT; a port that carries
frames and is neither bound nor waiting is surplus to a slot with two such ports. -/
structure State.AttachLawful (s : State) : Prop where
  activePath : ∀ d, (s.slot d).state = .active →
    ∃ p, (s.slot d).active = some p ∧ p ∈ (s.slot d).bound ∧ (s.port p).usable = true
  onlyActive : ∀ d, (s.slot d).state ≠ .active → (s.slot d).active = none
  silent : ∀ d, (s.slot d).state = .silent → ∀ p, p ∈ (s.slot d).bound → (s.port p).usable = false
  vacant : ∀ d, (s.slot d).state = .vacant → (s.slot d).bound = []
  twoPorts : ∀ d, (s.slot d).bound.length ≤ 2 ∧ (s.slot d).bound.Nodup
  oneSlot : ∀ d e p, p ∈ (s.slot d).bound → p ∈ (s.slot e).bound → d = e
  oneIdentity : ∀ d e, (s.slot d).state ≠ .vacant → (s.slot e).state ≠ .vacant → (s.slot d).ident = (s.slot e).ident → d = e
  identity : ∀ d p, p ∈ (s.slot d).bound → (s.port p).usable = true → (s.port p).identSeen = (s.slot d).ident
  carried : ∀ p, (s.port p).usable = true → (s.port p).identSeen.isSome = true ∧ (s.port p).roleSeen.isSome = true
  waiting : s.waitList.Nodup ∧
    ∀ p, p ∈ s.waitList → (s.port p).usable = true ∧ ∀ d, p ∉ (s.slot d).bound
  strangers : ∀ p d, p ∈ s.waitList → (s.slot d).state ≠ .vacant → (s.slot d).ident ≠ (s.port p).identSeen
  noVacancy : (∃ d, (s.slot d).state = .vacant) → s.waitList = []
  surplus : ∀ p, (s.port p).usable = true → (∀ d, p ∉ (s.slot d).bound) → p ∉ s.waitList →
    ∃ d, (s.slot d).state ≠ .vacant ∧ (s.slot d).ident = (s.port p).identSeen
  both : ∀ p d, (s.port p).usable = true → (∀ e, p ∉ (s.slot e).bound) → (s.slot d).state ≠ .vacant →
    (s.slot d).ident = (s.port p).identSeen → (s.slot d).bound.length = 2 ∧ ∀ q, q ∈ (s.slot d).bound → (s.port q).usable = true

/-- The queues are within their room: the panel queue with its reservation, and each answer queue (R172, R186). -/
structure State.QueuesLawful (s : State) : Prop where
  panel : s.panelPlaces ≤ 32
  reservation : s.powered = true → s.panelReserved = if s.config.store.isSome then 1 else 0
  answers : ∀ d, (s.lane d).answers.length ≤ 32

/-- A cell of the compensation table (R71, R73): trims within ±36, and an OFF cell has no reference, target 0 and a clear LIMITED. -/
structure Cell.Lawful (c : Cell) : Prop where
  target : -36 ≤ c.target ∧ c.target ≤ 36
  current : -36 ≤ c.current ∧ c.current ≤ 36
  count : c.count < 8
  reference : c.eref.isSome = c.on
  off : c.on = false → c.target = 0 ∧ c.limited = false
  undo : ∀ v, c.undo = some v → -36 ≤ v ∧ v ≤ 36

/-- Every cell of the table. -/
def State.CompLawful (s : State) : Prop := ∀ ic, ic ∈ s.comp → ∀ col, (ic.cells.get col).Lawful

/-- The stage gain of every input equals the effective gain of its channel, unless its card is ABSENT or the gain of a returned card
is still to be handed over with its first sample (R72); a channel of an ABSENT card has no exchange and waits for none (R62). -/
structure State.GainsAgree (s : State) : Prop where
  inputs : s.channels.length = 64 ∧ s.comp.length = 64
  equal : ∀ i, i < 64 → (s.channel i).link ≠ .absent → (s.channel i).handOver = false →
    (s.inputComp i).stageGain = (s.channel i).applied.effective
  absent : ∀ i : Fin 64, (s.channel i).link = .absent → (s.channel i).op ≠ .inFlight ∧ i ∉ s.cardQueue ∧ i ∉ s.sendList

/-- The crossfade of an output: the two shares never add up to more than 240, and gate and phase stay in range (R123, R126). -/
structure Output.Lawful (o : Output) : Prop where
  shares : o.primaryShare + o.fallbackShare ≤ 240
  gate : o.gate ≤ 64
  phase : o.phase < 48

/-- Every output. -/
def State.OutputsLawful (s : State) : Prop := ∀ o, o ∈ s.outputs → o.Lawful

/-- A batch is staged only while OPEN or SEALED and holds at most 256 entries (R162, R164). -/
def Batch.Lawful (b : Batch) : Prop := b.staged.length ≤ 256 ∧ (b.state = .none → b.staged = [] ∧ b.dropped = 0)

/-- Every slot's batch. -/
def State.BatchesLawful (s : State) : Prop := ∀ sl, (s.batch sl).Lawful

/-- What a store that is cut short leaves in the memory: some of the bytes of the record being written, from its first on, and
everything else as it was (R196, R197; how many is a free value, log 8). Without a store the memory is as it was. -/
def State.StoreLeft (s : State) (m : List Host.Cell) : Prop :=
  match s.config.store with
  | none => m = s.memory
  | some job => ∃ k, k ≤ job.current.bytes.length ∧ m = memWriteBlock s.memory job.current.offset (job.current.bytes.take k)

/-- No desk slot still has a frame to take that a hitless switch returned (R32). -/
def State.NoneReturned (s : State) : Prop := ∀ p, (s.port p).captured = none

/-- The commands of the events that fall due by themselves, in the order in which FRAME_PERIOD takes those that are overdue (log 2). -/
def dueCommands : List Instr :=
  LinkPort.all.map .errorWindowComplete ++ Desk.all.flatMap (fun d => [.fadeOutEnd d, .fadeInEnd d]) ++ Desk.all.map .graceExpiry ++
    (List.finRange 64).flatMap (fun i => [.markerTimeout i, .holdEnd i, .retryTimerExpiry i]) ++
    (List.finRange 32).flatMap (fun o => [.revertHoldExpiry o, .crossfadeEnd o]) ++ Bus.all.map .talkTimeout ++ [.meterPeriodEnd] ++
    SlotId.all.map .batchEffect ++ [.digestCadence, .settingSlot, .pollSlot, .startupComplete]

/-- Commands taken one after another, each of which completes, lead from one state to another. -/
def State.RunsTo : List Instr → State → State → Prop
  | [], s, t => t = s
  | c :: cs, s, t => ∃ u, exec c s = .next u ∧ State.RunsTo cs u t

/-- No event that falls due by itself is due: no window, fade, timer, hold, crossfade, meter boundary, card-line slot or start-up, and
no frame returned at a hitless switch waits (R10, R33, R34, R41, R46, R57 to R59, R116, R127, R131, R143, R166, R183, R194). -/
structure State.NothingDue (s : State) : Prop where
  windows : ∀ p, (s.port p).usable = true → (s.port p).windowPos < 4800
  fades : ∀ d, (s.slot d).conceal = .fadingOut ∨ (s.slot d).conceal = .fadingIn → (s.slot d).step < 64
  grace : ∀ d g, (s.slot d).state = .silent → (s.slot d).grace = some g → g.count < g.limit
  markers : ∀ i n, i < 64 → (s.channel i).op = .inFlight → (s.channel i).markerTimer = some n → n < 960
  holds : ∀ i n, i < 64 → (s.channel i).op = .settling → (s.channel i).holdTimer = some n → n < 12000
  retries : ∀ i n, i < 64 → (s.channel i).link = .fault → (s.channel i).retryTimer = some n → n < 48000
  reverts : ∀ o g, o < 32 → (s.output o).hold = some g → g.count < g.limit
  crossfades : ∀ o, o < 32 →
    ((s.output o).selection = .toPrimary → (s.output o).primaryShare ≠ 240 ∨ (s.output o).fallbackShare ≠ 0) ∧
    ((s.output o).selection = .toFallback → (s.output o).primaryShare ≠ 0 ∨ (s.output o).fallbackShare ≠ 240)
  talks : ∀ b g, (s.bus b).talker ≠ none → (s.bus b).timer = some g → g.limit = 0 ∨ g.count < g.limit
  boundary : s.boundary.opened = true →
    s.boundary.ended = true ∧ ∀ sl, (s.batch sl).state = .sealed → s.boundary.effects.get sl = true
  digest : s.boundary.digestDue = false
  cardSlot : s.line.slotTaken = true
  startup : s.started = true ∨ s.config.loading = true ∨ s.line.polled = false
  returned : s.NoneReturned

/-- A port record less what only deliveries and switches write: the held samples and the place in the alignment buffer from which
the port delivers (R12, R14). -/
def Port.core (r : Port) : Port := { r with held := Audio.silent, bufLast := none, captured := none, skip := false }

/-- The port records but one's are the same, less what deliveries and switches write. -/
def State.OtherPortsStand (p : LinkPort) (s t : State) : Prop := ∀ q, q ≠ p → (t.port q).core = (s.port q).core

/-- Nothing but the ports, the desk slots and their lanes has changed. -/
def State.SameButLinks (s t : State) : Prop := t = { s with ports := t.ports, slots := t.slots, lanes := t.lanes }

/-- A frame period of a port that can bring no switch and no frame out of the buffer: no slot conceals, no returned frame waits, and
the port delivers each period as it ends (R12, R32). -/
def State.QuietLinks (p : LinkPort) (s : State) : Prop :=
  (∀ d, (s.slot d).conceal = .none) ∧ s.NoneReturned ∧ (s.port p).bufLast = none

/-- A desk slot runs on a port, has taken no delivery in this frame period, and its samples of the period are not fixed (R30, R33). -/
def State.RunsOn (d : Desk) (p : LinkPort) (s : State) : Prop :=
  (s.slot d).state = .active ∧ (s.slot d).active = some p ∧ (s.slot d).taken = false ∧ (s.slot d).produced = false

/-- The slot may write a domain: it is ACTIVE, and the domain is its own or nobody's (R153). -/
def State.MayWrite (sl : SlotId) (dom : Nat) (s : State) : Prop :=
  s.slotState sl = .active ∧ ((s.domain dom).owner = none ∨ (s.domain dom).owner = some sl)

/-- The slot has no OPEN batch, so its writes act when they are taken (R164). -/
def State.Unstaged (sl : SlotId) (s : State) : Prop := (s.batch sl).state ≠ .opened

/-- Whether a slot that has power and a place among the slots finds no room for its answer (R172, R186). -/
def State.NoRoom (sl : SlotId) (s : State) : Prop :=
  match sl with
  | .panel => s.panelReady = false
  | .desk d => (s.slot d).state ≠ .vacant ∧ (s.lane d).ready = false

/-- What an answer to an accepted SET carries: the value, if the echo was asked for (R178). -/
def echoOf (echo : Byte) (v : Int) : AnswerData := if echo = 1#8 then .values [v] else .none

/-- A code names a return of a desk slot (R124). -/
def IsReturn (d : Desk) (code : Nat) : Prop := 101 + 100 * d.number ≤ code ∧ code < 117 + 100 * d.number

/-- A code names an input of a card, the cards counted from 0 (R44, R124). -/
def IsInputOf (card : Nat) (code : Nat) : Prop := 101 + 8 * card ≤ code ∧ code < 109 + 8 * card

/-- Every output has answered the sources that became unavailable: its primary among them, its fallback, or both; any other stands
(R125, R128, R130). -/
def State.SourcesGone (gone : Nat → Prop) (s t : State) : Prop :=
  ∀ o, o < 32 →
    let r := s.output o
    let second := ∃ c, r.fallback = some c ∧ gone c
    (¬gone r.primary → ¬second → t.output o = r) ∧
    (gone r.primary → ¬second → t.output o = r.primaryLost (s.fallbackAvailable r)) ∧
    (¬gone r.primary → second → t.output o = r.fallbackLost) ∧
    (gone r.primary → second → (r.hold.isSome = true → r.selection = .toFallback ∨ r.selection = .fallback) →
      (t.output o).selection = .noneAvailable)

/-- Every output has answered the sources that became available: its primary among them, or its fallback; any other stands (R125,
R129, R130). -/
def State.SourcesBack (back : Nat → Prop) (s t : State) : Prop :=
  ∀ o, o < 32 →
    let r := s.output o
    let second := ∃ c, r.fallback = some c ∧ back c
    (¬back r.primary → ¬second → t.output o = r) ∧
    (back r.primary → ¬second → t.output o = r.primaryRegained s.revertTime) ∧
    (¬back r.primary → second → t.output o = r.fallbackRegained)

/-- The laws together, as they hold at a full reset and after every step. -/
structure State.Laws (s : State) : Prop where
  memory : s.MemoryCanonical
  shape : s.Shaped
  talk : s.TalkLawful
  attach : s.AttachLawful
  queues : s.QueuesLawful
  trims : s.CompLawful
  gains : s.GainsAgree
  outputs : s.OutputsLawful
  batches : s.BatchesLawful

end Sys2Proof.Machine
end

