-- ==== Sys2Proof/Certificates/Slice0/Obligations.lean ====
section
/-!
DEFINITION. The statements for the provers: what each command does, by the rules of spec/, and the laws every step keeps.
-/
open Sys2Proof Sys2Proof.Machine

/-! ## The machine -/

/-- A step takes the command at the front of the queue: it is `exec` of that command on the state with the queue's rest. -/
def Obligations.StepTakesFrontCommand : Prop :=
  ∀ (c : Instr) (rest : List Instr) (s : State), step { s with pending := c :: rest } = exec c { s with pending := rest }

/-- No command stops the part, and none but the sender changes the queue of waiting commands; with none waiting the part idles (the
model's choice, log 4); and a part without power does nothing until a full reset (the model's reading of R196, log 5). -/
def Obligations.EveryCommandCompletes : Prop :=
  (∀ (c : Instr) (s : State), ∃ t, exec c s = .next t ∧ t.pending = s.pending) ∧
  (∀ s : State, s.pending = [] → step s = .next s) ∧
  (∀ (c : Instr) (s : State), s.powered = false → (∀ straps, c ≠ .fullReset straps) → exec c s = .next s)

/-- The values after a full reset that the record tables give, column by column; what the model adds to a record (logs 3, 12, 13, 15)
is at rest. -/
def Obligations.ResetValues : Prop :=
  (∀ p, State.reset.port p = {
    state := .dark, lightCode := 254, lightFrames := 0, lockRun := 0, seekNumber := 0, seekIdent := 0, identSeen := none,
    roleSeen := none, expected := 0, missingRun := 0, mismatchRun := 0, windowPos := 0, windowCount := 0, lastWindowCount := 0,
    lossAge := 0, buffer := [], held := { returns := List.replicate 16 0, talk := 0 }, bufLast := none, captured := none,
    skip := false, frameSeen := false }) ∧
  (∀ d, State.reset.slot d = {
      state := .vacant, ident := none, role := none, bound := [], active := none, conceal := .none, step := 0,
      origin := { returns := List.replicate 16 0, talk := 0 }, samples := { returns := List.replicate 16 0, talk := 0 },
      lastTaken := none, grace := none, switchovers := 0, talkClass := 0, produced := false, taken := false } ∧
    State.reset.lane d = {
      receiver := none, tx := { sending := none, next := .answer, pendingMeter := none, pendingDigest := none }, answers := [],
      dropped := false }) ∧
  State.reset.panelClass = 3 ∧ State.reset.waitList = [] ∧ State.reset.graceTime = 3000 ∧ State.reset.frameCounter = 0 ∧
  (∀ c, c < 8 → State.reset.card c = { present := false, unanswered := 0 }) ∧
  (∀ i, i < 64 → State.reset.channel i = {
      desired := { gain := 0, pad := false, phantom := false }, applied := { gain := 0, pad := false, phantom := false },
      link := .absent, op := .idle, sent := none, holdOwed := false, latch := false, markerTimer := none, holdTimer := none,
      retryTimer := none, gate := 0, gateOpen := false, handOver := false } ∧
    (State.reset.inputComp i).stageGain = 0 ∧
    ∀ c, State.reset.cell i c =
      { on := false, eref := none, target := 0, current := 0, count := 0, limited := false, undo := none }) ∧
  State.reset.cardQueue = [] ∧ State.reset.sendList = [] ∧
  State.reset.line =
    { slotNumber := 1, slotFrame := 0, slotTaken := false, exchange := .none, pollsBegun := 0, polled := false } ∧
  (let off : Level := { on := false, target := none, current := -180, count := 0, undo := none }
   (∀ m, m < 24 → State.reset.mix m = {
       xps := List.replicate 66 off, master := off, ceiling := -40, duckTarget := 0, duck := 0, release := 0, clip := false,
       duckUndo := none } ∧
     nth State.reset.safe m SafeMix.default = { xps := List.replicate 66 none, master := some 0, ceiling := -40 }) ∧
   (∀ o, o < 32 → State.reset.output o = {
     primary := 0, fallback := none, override := .normal, level := off, selection := .noneAvailable, primaryShare := 0,
     fallbackShare := 0, hold := none, gate := 0, toneContent := false, phase := 0, clip := false })) ∧
  (∀ b, State.reset.bus b = {
    talker := none, waiting := [], timer := none,
    notices := { panel := false, desks := { d1 := false, d2 := false, d3 := false } } }) ∧
  State.reset.talkLimit = 60 ∧ State.reset.revertTime = 2000 ∧ State.reset.started = false ∧
  State.reset.meter.periodCount = 0 ∧ State.reset.meter.frames = 0 ∧ State.reset.meter.tenth = 0 ∧
  State.reset.meter.viewPeaks = List.replicate 64 { c0 := 0, c1 := 0, c2 := 0, c3 := 0 } ∧
  State.reset.meter.viewClips = List.replicate 64 { c0 := false, c1 := false, c2 := false, c3 := false } ∧
  State.reset.meter.mixPeaks = List.replicate 24 0 ∧ State.reset.meter.outPeaks = List.replicate 32 0 ∧
  (∀ d, State.reset.meter.returnPeaks.get d = List.replicate 16 0) ∧ State.reset.meter.panelOn = false ∧
  (∀ x, State.reset.overs.get x = { mixes := 0, outs := 0 }) ∧
  (∀ n, n < 16 → State.reset.domain n = { owner := none, trespass := false, trespasser := none, count := 0 }) ∧
  (∀ x, State.reset.batch x = { state := .none, staged := [], dropped := 0 }) ∧ State.reset.panelQueue = [] ∧
  State.reset.panelReserved = 0 ∧ State.reset.config.status = 0 ∧ State.reset.config.store = none ∧
  State.reset.config.loading = true

/-- The laws hold right after a full reset. -/
def Obligations.ResetObeysTheLaws : Prop := State.reset.Laws

/-! ## The laws every step keeps -/

/-- The configuration memory keeps its canonical form, and the tables keep the lengths the part has. -/
def Obligations.MemoryAndTablesStayWellFormed : Prop :=
  (∀ s t : State, s.MemoryCanonical → step s = .next t → t.MemoryCanonical) ∧
  (∀ s t : State, s.Shaped → step s = .next t → t.Shaped)

/-- The law of the talk buses (R106) and their serving order (R107) hold in every state a step leaves. -/
def Obligations.TalkBusesStayLawful : Prop := ∀ s t : State, s.TalkLawful → step s = .next t → t.TalkLawful

/-- The attachment table stays lawful: an ACTIVE slot always runs on a bound port that carries frames. -/
def Obligations.AttachmentTableStaysLawful : Prop := ∀ s t : State, s.AttachLawful → step s = .next t → t.AttachLawful

/-- No queue ever holds more than it has room for, and an accepted store always has its place. -/
def Obligations.QueuesStayWithinRoom : Prop := ∀ s t : State, s.QueuesLawful → step s = .next t → t.QueuesLawful

/-- Every trim stays within ±36 hdB and an OFF cell holds no reference; the shares of an output never add up to more than 240; a batch
never stages more than 256 entries and holds none while it is NONE. -/
def Obligations.RecordsStayInRange : Prop :=
  (∀ s t : State, s.CompLawful → step s = .next t → t.CompLawful) ∧
  (∀ s t : State, s.OutputsLawful → step s = .next t → t.OutputsLawful) ∧
  (∀ s t : State, s.BatchesLawful → step s = .next t → t.BatchesLawful)

/-- The compensation stage's gain of an input stays equal to the channel's effective gain. -/
def Obligations.StageGainsStayInAgreement : Prop := ∀ s t : State, s.GainsAgree → step s = .next t → t.GainsAgree

/-! ## Reset, load and store -/

/-- FULL_RESET: every block at its full-reset values, the straps sampled; the configuration memory stands, but for a record that a
store was writing, and the waiting commands are the senders' own and stand too (log 38). POWER_LOSS: a store in progress is abandoned
with the memory as it stands, and the part has no power. -/
def Obligations.FullResetAndPowerLoss : Prop :=
  (∀ (straps : BitVec 4) (s : State), ∃ m f, s.StoreLeft m ∧
    exec (.fullReset straps) s =
      .next { State.reset with unitNumber := straps, memory := m, free := f, pending := s.pending }) ∧
  (∀ s : State, s.powered = true → ∃ m f, s.StoreLeft m ∧
    exec .powerLoss s = .next { s with powered := false, config := { s.config with store := none }, memory := m, free := f })

/-- RESTART from the panel: as a full reset, but the unit number, the front end, column 0 with its ramps and the stage gains stand, and
its answer is the one message of the emptied panel queue. The count of poll slots begins anew with the poll slots that begin after it
(R197 read with R46: DEDUCED, log 30); what a store leaves is a free value (log 8), and the list of what stands is log 39's. -/
def Obligations.RestartEffect : Prop :=
  ∀ (tag : Byte) (s : State), s.Accepts .panel → ∃ m f, s.StoreLeft m ∧
    exec (.restart .panel tag) s = .next { State.reset with
      unitNumber := s.unitNumber,
      cards := s.cards, channels := s.channels, cardQueue := s.cardQueue, sendList := s.sendList,
      line := { s.line with pollsBegun := 0, polled := false },
      comp := s.comp.map fun ic =>
        { stageGain := ic.stageGain, cells := { c0 := ic.cells.c0, c1 := Cell.reset, c2 := Cell.reset, c3 := Cell.reset } },
      config := { ConfigUnit.reset with fresh := false },
      panelQueue := [.answer { tag := tag, kind := 0x49#8, result := .done, data := .none, complete := true }],
      memory := m, free := f, pending := s.pending }

/-- STARTUP_COMPLETE: start-up is complete once the load has ended and the eighth poll slot since the reset has; before that the
event changes nothing. -/
def Obligations.StartupCompletes : Prop :=
  ∀ s : State, s.powered = true →
    (s.config.loading = false ∧ s.line.polled = true → exec .startupComplete s = .next { s with started := true }) ∧
    (¬(s.config.loading = false ∧ s.line.polled = true) → exec .startupComplete s = .next s)

/-- LOAD_END: the verdicts of the walk, the stored image from what was found and the defaults, and the hand-over to the mix engine, the
output stage, the stage settings and, after a full reset, the channel table. When it comes is the sender's (DESIGN CHOICE, log 10); an
entry of the patch that is refused takes its defaults whole (DEDUCED, log 26), and a stored gain byte is signed (DEDUCED, log 41). -/
def Obligations.LoadEffect : Prop :=
  ∀ (silentFrom : Option Nat) (s : State), s.powered = true → s.config.loading = true → s.Shaped →
    let w := loadWalk s.memory silentFrom
    let image := w.decisions.map fun r d => d.body (defaultImage.get r)
    ∃ t, exec (.loadEnd silentFrom) s = .next t ∧
      t.config = { s.config with
        status := s.config.status ||| w.status, directory := some (w.decisions.map fun _ => Decision.verdict),
        image := image, unitName := image.unit, loading := false } ∧
      t.safe = (List.range 24).map (storedMix image.safeMix) ∧ t.mixes = t.safe.map SafeMix.load ∧
      (∀ o, o < 32 →
        let ok := sourceKnown (bodyWord image.outputPatch (7 * o)) && sourceKnown (bodyWord image.outputPatch (7 * o + 2)) &&
          decide (bodyByte image.outputPatch (7 * o + 6) ≤ 2) &&
          !pairRefused (bodyWord image.outputPatch (7 * o)).toNat (bodyWord image.outputPatch (7 * o + 2)).toNat
        let primary := if ok then (bodyWord image.outputPatch (7 * o)).toNat else if o < 24 then o + 1 else 0
        let second := if ok then (bodyWord image.outputPatch (7 * o + 2)).toNat else 0
        (t.output o).primary = primary ∧ (t.output o).fallback = (if second = 0 then none else some second) ∧
        (t.output o).override = (if ok then overrideOf (bodyByte image.outputPatch (7 * o + 6)) else .normal) ∧
        (t.output o).level =
          Level.direct (if ok then targetOf (levelStored (bodyWord image.outputPatch (7 * o + 4))) else some 0) ∧
        (t.output o).hold = none ∧ (t.output o).gate = (s.output o).gate ∧
        ((t.output o).selection, (t.output o).primaryShare, (t.output o).fallbackShare) =
          if s.available primary then (.primary, 240, 0)
          else if s.fallbackAvailable (t.output o) then (.fallback, 0, 240) else (.noneAvailable, 0, 0)) ∧
      t.panelClass = (if bodyByte image.stageSettings 0 ≤ 3 then bodyByte image.stageSettings 0 else 3) ∧
      t.talkLimit = bodyByte image.stageSettings 1 ∧
      t.graceTime =
        (if 5 ≤ bodyByte image.stageSettings 2 ∧ bodyByte image.stageSettings 2 ≤ 200 then 50 * bodyByte image.stageSettings 2
         else 3000) ∧
      t.revertTime =
        (if 0 ≤ bodyWord image.stageSettings 3 ∧ bodyWord image.stageSettings 3 ≤ 300 then
           100 * (bodyWord image.stageSettings 3).toNat else 2000) ∧
      (s.config.fresh = false → t.channels = s.channels ∧ t.cardQueue = s.cardQueue) ∧
      (s.config.fresh = true → ∀ i, i < 64 →
        (t.channel i).desired = storedSetting image.startChannels i ∧ (t.channel i).applied = (s.channel i).applied ∧
        (t.channel i).link = (s.channel i).link) ∧
      t.ports = s.ports ∧ t.slots = s.slots ∧ t.lanes = s.lanes ∧ t.comp = s.comp ∧ t.cards = s.cards ∧ t.buses = s.buses ∧
      t.domains = s.domains ∧ t.batches = s.batches ∧ t.memory = s.memory ∧ t.started = s.started ∧
      t.panelQueue = s.panelQueue

/-- STORE from the panel: a code that is none of the five is BAD_VALUE, a store in progress BUSY; else the image takes the snapshots
named, a place of the panel queue is reserved and the first record of the chain is to be written from offset 0. -/
def Obligations.StoreEffect : Prop :=
  ∀ (tag : Byte) (codes : List Byte) (s : State), s.Accepts .panel → 1 ≤ codes.length → codes.length ≤ 8 →
    ((∃ c, c ∈ codes ∧ RecordType.ofCode c.toNat = none) →
      exec (.store .panel tag codes) s = .next (s.answer .panel tag 0x48#8 .badValue .none)) ∧
    ((∀ c, c ∈ codes → RecordType.ofCode c.toNat ≠ none) → s.config.store ≠ none →
      exec (.store .panel tag codes) s = .next (s.answer .panel tag 0x48#8 .busy .none)) ∧
    ((∀ c, c ∈ codes → RecordType.ofCode c.toNat ≠ none) → s.config.store = none →
      let named : RecordType → Bool := fun r => decide (BitVec.ofNat 8 r.code ∈ codes)
      let image := s.config.image.map fun r body => if named r then s.snapshot r else body
      ∃ rest, layRecords image 0 (storeOrder image) =
          { type := .startChannels, offset := 0, bytes := recordBytes .startChannels false image.startChannels } :: rest ∧
        exec (.store .panel tag codes) s = .next { s with
          safe := if named .safeMix then s.mixes.map Mix.snapshot else s.safe,
          panelReserved := s.panelReserved + 1,
          config := { s.config with
            image := image, status := clearBit (setBit s.config.status 11) 12,
            store := some {
              tag := tag, rest := rest, written := [],
              current := { type := .startChannels, offset := 0, bytes := recordBytes .startChannels false image.startChannels } } } })

/-- STORE_RECORD_CHECKED: a record read back as written lets the next one be written, or ends the store DONE; one that reads back
otherwise, or a memory that does not answer, ends it FAILED. No byte outside the record changes, and what is read back is what the
record's offsets then hold (DESIGN CHOICE, log 9). The memory is in its canonical form, which every step keeps. -/
def Obligations.StoreRecordEffect : Prop :=
  ∀ (readBack : Option (List Byte)) (s : State), s.powered = true → s.MemoryCanonical →
    (s.config.store = none → exec (.storeRecordChecked readBack) s = .next s) ∧
    ∀ job, s.config.store = some job → job.current.offset + job.current.bytes.length ≤ 65536 → ∃ t,
      exec (.storeRecordChecked readBack) s = .next t ∧
      (∀ a, a < job.current.offset ∨ job.current.offset + job.current.bytes.length ≤ a → memRead t.memory a = memRead s.memory a) ∧
      t.ports = s.ports ∧ t.slots = s.slots ∧ t.lanes = s.lanes ∧ t.channels = s.channels ∧ t.comp = s.comp ∧
      t.mixes = s.mixes ∧ t.outputs = s.outputs ∧ t.safe = s.safe ∧ t.config.image = s.config.image ∧
      (readBack = some job.current.bytes →
        memReadBlock t.memory job.current.offset job.current.bytes.length = job.current.bytes ∧
        (∀ next rest, job.rest = next :: rest →
          t.config = { s.config with
            store := some { job with current := next, rest := rest, written := job.written ++ [job.current.type] } } ∧
          t.panelQueue = s.panelQueue ∧ t.panelReserved = s.panelReserved) ∧
        (job.rest = [] → t.config.store = none ∧ t.panelReserved = s.panelReserved - 1 ∧
          t.panelQueue = s.panelQueue ++
            [.answer { tag := job.tag, kind := 0x48#8, result := .done, data := .none, complete := true }] ∧
          ∀ i, i < 16 → t.config.status.getLsbD i =
            (s.config.status.getLsbD i && decide (i ≠ 10 ∧ i ≠ 11) &&
              (job.written ++ [job.current.type]).all fun r => decide (i ≠ r.code - 1 ∧ i ≠ r.code + 4)))) ∧
      (∀ bytes, readBack = some bytes →
        memReadBlock t.memory job.current.offset (bytes.take job.current.bytes.length).length =
          bytes.take job.current.bytes.length) ∧
      (readBack ≠ some job.current.bytes → t.config.store = none ∧ t.panelReserved = s.panelReserved - 1 ∧
        t.panelQueue = s.panelQueue ++
          [.answer { tag := job.tag, kind := 0x48#8, result := .failed, data := .none, complete := true }] ∧
        ∀ i, i < 16 → t.config.status.getLsbD i =
          ((s.config.status.getLsbD i && decide (i ≠ 11)) || decide (i = 12 ∨ i = job.current.type.code - 1)))

/-- What is stored loads back: a memory that holds the records of an image, laid one after another from offset 0, is walked without a
break and each type found with its body, a UNIT without a name as missing; the settings, the matrix, the patch, the stage settings and
the unit name are read back from their records as they stood, within the ranges the part keeps them in; and the walk of any memory,
step by step: what ends it, and what a damaged, unknown, unsupported or repeated record does to it. -/
def Obligations.StoredConfigurationLoadsBack : Prop :=
  (∀ (image : PerType (List Byte)) (m : List Host.Cell),
    image.startChannels.length = 192 → image.safeMix.length = 3264 → image.outputPatch.length = 224 →
    image.stageSettings.length = 5 → image.unit.length ≤ 32 →
    (∀ rec, rec ∈ layRecords image 0 (storeOrder image) → memReadBlock m rec.offset rec.bytes.length = rec.bytes) →
    loadWalk m none =
      { decisions := { unit := if image.unit = [] then .undecided else .found image.unit,
                       startChannels := .found image.startChannels, safeMix := .found image.safeMix,
                       outputPatch := .found image.outputPatch, stageSettings := .found image.stageSettings },
        broken := false }) ∧
  (∀ s : State, s.Shaped →
    ((∀ i, i < 64 → 0 ≤ (s.channel i).desired.gain ∧ (s.channel i).desired.gain ≤ 60) →
      ∀ i, i < 64 → storedSetting (s.snapshot .startChannels) i = (s.channel i).desired) ∧
    ((∀ m, m < 24 → (-180 ≤ (s.mix m).ceiling ∧ (s.mix m).ceiling ≤ 0) ∧
        (∀ v, (s.mix m).master.target = some v → -180 ≤ v ∧ v ≤ 20) ∧
        ∀ j, j < 66 → ∀ v, ((s.mix m).xp j).target = some v → -180 ≤ v ∧ v ≤ 20) →
      ∀ m, m < 24 → storedMix (s.snapshot .safeMix) m = (s.mix m).snapshot) ∧
    (∀ o (t : State), o < 32 → t.Shaped → sourceOf (s.output o).primary ≠ none →
      (∀ c, (s.output o).fallback = some c → c ≠ 0 ∧ sourceOf c ≠ none) →
      pairRefused (s.output o).primary ((s.output o).fallback.getD 0) = false →
      (∀ v, (s.output o).level.target = some v → -180 ≤ v ∧ v ≤ 20) →
      let r := (t.loadPatchEntry (s.snapshot .outputPatch) o).output o
      r.primary = (s.output o).primary ∧ r.fallback = (s.output o).fallback ∧ r.override = (s.output o).override ∧
      r.level = Level.direct (s.output o).level.target) ∧
    (∀ (t : State) (g h : Nat), s.panelClass ≤ 3 → s.talkLimit ≤ 255 → s.graceTime = 50 * g → 5 ≤ g → g ≤ 200 →
      s.revertTime = 100 * h → h ≤ 300 →
      t.loadStage (s.snapshot .stageSettings) = { t with
        panelClass := s.panelClass, talkLimit := s.talkLimit, graceTime := s.graceTime, revertTime := s.revertTime }) ∧
    s.snapshot .unit = s.config.unitName) ∧
  ((∀ (m : List Host.Cell) (answers : Nat → Bool) (fuel a : Nat) (found : PerType Decision),
    let byte := fun k : Nat => memRead m (a + k)
    let len := 256 * (byte 2).toNat + (byte 3).toNat
    let broken := 65535 < a + 6 + len ∨ answers (a + 5) = false ∨ answers (a + 6 + len) = false ∨ 8192 < len ∨
      byte 0 + byte 1 + byte 2 + byte 3 + byte 4 + byte 5 ≠ 0
    let body := memReadBlock m (a + 6) len
    let onward := fun found' : PerType Decision =>
      if (byte 4).getLsbD 0 = true then ({ decisions := found', broken := false } : WalkResult)
      else walkChain m answers fuel (a + 7 + len) found'
    let walk := walkChain m answers (fuel + 1) a found
    (broken → walk = { decisions := found, broken := true }) ∧
    (¬broken → (RecordType.ofCode (byte 0).toNat = none ∨ byte 1 ≠ 1 ∨
        ∃ r, RecordType.ofCode (byte 0).toNat = some r ∧ found.get r ≠ .undecided) → walk = onward found) ∧
    ∀ r, ¬broken → RecordType.ofCode (byte 0).toNat = some r → byte 1 = 1 → found.get r = .undecided →
      (lengthOk r len = true ∧ sumBytes body + byte (6 + len) = 0 → walk = onward (found.set r (.found body))) ∧
      (¬(lengthOk r len = true ∧ sumBytes body + byte (6 + len) = 0) → walk = onward (found.set r .damaged))) ∧
  ∀ (m : List Host.Cell) (answers : Nat → Bool) (more : Nat) (found : PerType Decision),
    walkChain m answers (9363 + more) 0 found = walkChain m answers 9363 0 found)

/-! ## Link ports -/

/-- The light codes and LOW_LIGHT, and what a measurement does to a port (powers in thousandths of a dBm, log 11; a measurement
falls due 48 frames after the last, log 1). A frame that a hitless switch returned is settled after every link command. -/
def Obligations.LightMeasurementEffect : Prop :=
  (∀ x : Int, 0 ≤ x → (LightReading.power x).code = 0) ∧
  (∀ (x : Int) (n : Nat), x < 0 → n ≤ 72 → 500 * (n : Int) ≤ -x → -x < 500 * (n + 1) → -36000 ≤ x →
    (LightReading.power x).code = n) ∧
  (∀ x : Int, x < -36000 → (LightReading.power x).code = 254) ∧ LightReading.checkFailed.code = 255 ∧
  (∀ r : Port, r.lowLight = true ↔ 48 ≤ r.lightCode) ∧
  ∀ (p : LinkPort) (reading : LightReading) (s : State), s.powered = true →
    ((s.port p).lightFrames < 48 → exec (.lightMeasurement p reading) s = .next s.settleReturned) ∧
    (48 ≤ (s.port p).lightFrames →
      let u := s.modPort p fun r => { r with lightCode := reading.code, lightFrames := 0 }
      ((s.port p).state = .dark → reading.code ≠ 254 →
        exec (.lightMeasurement p reading) s =
          .next (u.modPort p fun r => { r with state := .seeking, lockRun := 0 }).settleReturned) ∧
      ((s.port p).state = .seeking → reading.code = 254 →
        exec (.lightMeasurement p reading) s = .next (u.modPort p fun r => { r with state := .dark }).settleReturned) ∧
      ((s.port p).usable = true → reading.code = 254 →
        exec (.lightMeasurement p reading) s = .next (u.portLoss p .dark).settleReturned) ∧
      (((s.port p).state = .dark ∧ reading.code = 254) ∨ ((s.port p).state ≠ .dark ∧ reading.code ≠ 254) →
        exec (.lightMeasurement p reading) s = .next u.settleReturned))

/-- A port that is DARK takes no frame, and one that is SEEKING counts its lock run; the 32nd valid frame of a run locks it: what it then
shows, where its counts stand, and the frame that opens its buffer. -/
def Obligations.SeekingAndLock : Prop :=
  (∀ (p : LinkPort) (f : StageFrame) (w : Bool) (s : State), s.powered = true →
    ((s.port p).state = .dark →
      exec (.validFrame p f w) s = .next s.settleReturned ∧ exec (.crcFailedFrame p) s = .next s.settleReturned ∧
      exec (.missingFrame p w) s = .next s.settleReturned) ∧
    ((s.port p).state = .seeking →
      (∃ t, exec (.crcFailedFrame p) s = .next t ∧ s.OtherPortsStand p t ∧
        (t.port p).core = { s.port p with lockRun := 0, frameSeen := true }.core) ∧
      (∃ t, exec (.missingFrame p w) s = .next t ∧ s.OtherPortsStand p t ∧
        (t.port p).core = { s.port p with lockRun := 0, frameSeen := true }.core) ∧
      (0 < (s.port p).lockRun ∧ (s.port p).lockRun < 31 ∧ f.number = (s.port p).seekNumber + 1 ∧ f.ident = (s.port p).seekIdent →
        ∃ t, exec (.validFrame p f w) s = .next t ∧ s.OtherPortsStand p t ∧
          (t.port p).core =
            { s.port p with lockRun := (s.port p).lockRun + 1, seekNumber := f.number, frameSeen := true }.core) ∧
      (¬(0 < (s.port p).lockRun ∧ f.number = (s.port p).seekNumber + 1 ∧ f.ident = (s.port p).seekIdent) →
        ∃ t, exec (.validFrame p f w) s = .next t ∧ s.OtherPortsStand p t ∧
          (t.port p).core = { s.port p with lockRun := 1, seekNumber := f.number, seekIdent := f.ident, frameSeen := true }.core))) ∧
  (∀ (p : LinkPort) (f : StageFrame) (w : Bool) (s : State), s.powered = true → (s.port p).state = .seeking →
    31 ≤ (s.port p).lockRun → f.number = (s.port p).seekNumber + 1 → f.ident = (s.port p).seekIdent →
    ∃ t, exec (.validFrame p f w) s = .next t ∧ s.OtherPortsStand p t ∧
      (t.port p).core = { s.port p with
        state := .locked, lockRun := (s.port p).lockRun + 1, seekNumber := f.number, identSeen := some f.ident,
        roleSeen := some (if f.roleCode = 0 then .front else if f.roleCode = 1 then .monitor else .general),
        expected := f.number + 1, missingRun := 0, mismatchRun := 0, windowPos := 0, windowCount := 0, lastWindowCount := 0,
        buffer := [f], frameSeen := true }.core)

/-- A frame period of a LOCKED or ERRORED port that is no port loss: a valid frame of the identity seen, a CRC-failed frame, a missing
frame and a frame of another identity. Nothing but ports, slots and lanes changes when nothing can switch and no message completes. -/
def Obligations.LockedPeriods : Prop :=
  ∀ (p : LinkPort) (f : StageFrame) (w : Bool) (s : State), s.powered = true → (s.port p).usable = true →
    (s.port p).windowPos < 4800 →
    ((s.port p).identSeen = some f.ident →
      ∃ t, exec (.validFrame p f w) s = .next t ∧ s.OtherPortsStand p t ∧
        (t.port p).core = { s.port p with
          expected := f.number + 1, missingRun := 0, mismatchRun := 0, windowPos := (s.port p).windowPos + 1,
          buffer := if f.number = (s.port p).expected then
              ((s.port p).buffer.filter fun (g : StageFrame) => decide ((f.number - g.number).toNat < 64 ∧ g.number ≠ f.number)) ++ [f]
            else [f],
          frameSeen := true }.core ∧
        (s.QuietLinks p → nth f.lane 0 0 = 0x00#8 → s.SameButLinks t)) ∧
    (∃ t, exec (.crcFailedFrame p) s = .next t ∧ s.OtherPortsStand p t ∧
      (t.port p).core = { s.port p with
        windowCount := (s.port p).windowCount + 1, missingRun := 0, expected := (s.port p).expected + 1,
        windowPos := (s.port p).windowPos + 1, frameSeen := true }.core ∧
      (s.QuietLinks p → s.SameButLinks t)) ∧
    ((s.port p).missingRun < 3 →
      ∃ t, exec (.missingFrame p w) s = .next t ∧ s.OtherPortsStand p t ∧
        (t.port p).core = { s.port p with
          missingRun := (s.port p).missingRun + 1, expected := (s.port p).expected + 1,
          windowPos := (s.port p).windowPos + 1, frameSeen := true }.core ∧
        (s.QuietLinks p → s.SameButLinks t)) ∧
    ((s.port p).identSeen ≠ some f.ident → (s.port p).mismatchRun < 3 →
      ∃ t, exec (.validFrame p f w) s = .next t ∧ s.OtherPortsStand p t ∧
        (t.port p).core = { s.port p with
          mismatchRun := (s.port p).mismatchRun + 1, missingRun := 0, expected := (s.port p).expected + 1,
          windowPos := (s.port p).windowPos + 1, frameSeen := true }.core ∧
        (s.QuietLinks p → s.SameButLinks t))

/-- The delivery of a slot's active path: a valid frame is taken as it came, any other period with the held samples, and its lane bytes
go to the receiver; concealment shapes it; a port that delivers from its buffer gives the number after its last; a slot whose samples
of the period a concealed switch has fixed takes the frame without its audio (DEDUCED, log 14); one that has taken its delivery of the
period takes no second (DEDUCED, logs 13 and 14); and a standby port's frames do not reach the slot. -/
def Obligations.ActivePathDelivery : Prop :=
  ∀ (p : LinkPort) (d : Desk) (f : StageFrame) (w : Bool) (s : State), s.powered = true → s.AttachLawful →
    (s.port p).usable = true → (s.port p).windowPos < 4800 → s.NoneReturned → (s.port p).identSeen = some f.ident →
    (s.RunsOn d p → (s.port p).bufLast = none →
      ((s.slot d).conceal = .none →
        (∃ t, exec (.validFrame p f w) s = .next t ∧ (t.slot d).samples = f.audio ∧ (t.slot d).lastTaken = some f.number ∧
          (t.slot d).taken = true ∧ (t.port p).held = f.audio ∧
          ∀ r, settleMessage (assemble (s.lane d).receiver (some f.lane)) = (r, none) → (t.lane d).receiver = r) ∧
        (∃ t, exec (.crcFailedFrame p) s = .next t ∧ (t.slot d).samples = (s.port p).held ∧
          (t.slot d).lastTaken = (s.slot d).lastTaken ∧ (t.port p).held = (s.port p).held ∧ (t.lane d).receiver = none) ∧
        ((s.port p).missingRun < 3 →
          ∃ t, exec (.missingFrame p w) s = .next t ∧ (t.slot d).samples = (s.port p).held ∧
            (t.slot d).lastTaken = (s.slot d).lastTaken ∧ (t.port p).held = (s.port p).held ∧ (t.lane d).receiver = none)) ∧
      ((s.slot d).conceal = .fadingOut → (s.slot d).step < 64 →
        ∃ t, exec (.validFrame p f w) s = .next t ∧ (t.slot d).conceal = .fadingOut ∧
          (t.slot d).step = (s.slot d).step + 1 ∧
          (t.slot d).samples = (s.slot d).origin.map (fun x => (x * ((64 - ((s.slot d).step + 1) : Nat) : Int)).tdiv 64) ∧
          (t.slot d).lastTaken = some f.number) ∧
      ((s.slot d).conceal = .silentGap →
        (∃ t, exec (.validFrame p f w) s = .next t ∧ (t.slot d).conceal = .fadingIn ∧ (t.slot d).step = 1 ∧
          (t.slot d).samples = f.audio.map (fun x => x.tdiv 64)) ∧
        (∃ t, exec (.crcFailedFrame p) s = .next t ∧ (t.slot d).conceal = .silentGap ∧
          (t.slot d).samples = Audio.silent)) ∧
      ((s.slot d).conceal = .fadingIn → (s.slot d).step < 64 →
        (∃ t, exec (.validFrame p f w) s = .next t ∧ (t.slot d).conceal = .fadingIn ∧
          (t.slot d).step = (s.slot d).step + 1 ∧
          (t.slot d).samples = f.audio.map (fun x => (x * (((s.slot d).step + 1 : Nat) : Int)).tdiv 64)) ∧
        (∃ t, exec (.crcFailedFrame p) s = .next t ∧ (t.slot d).step = (s.slot d).step + 1 ∧
          (t.slot d).samples = (s.port p).held.map (fun x => (x * (((s.slot d).step + 1 : Nat) : Int)).tdiv 64)))) ∧
    (∀ n, s.RunsOn d p → (s.port p).bufLast = some n → (s.port p).skip = false → (s.slot d).conceal = .none →
      f.number = (s.port p).expected →
      ∃ t g, exec (.validFrame p f w) s = .next t ∧ g = ((s.port p).store f).query (n + 1) ∧
        (t.port p).bufLast = some (n + 1) ∧
        (t.slot d).samples = (match g with | some x => x.audio | none => (s.port p).held) ∧
        (t.port p).held = (t.slot d).samples ∧
        (t.slot d).lastTaken = (match g with | some _ => some (n + 1) | none => (s.slot d).lastTaken)) ∧
    (∀ r, (s.slot d).state = .active → (s.slot d).active = some p → (s.port p).bufLast = none → (s.port p).frameSeen = false →
      (s.slot d).taken = false → (s.slot d).produced = true → (s.slot d).conceal = .fadingOut → (s.slot d).step < 64 →
      settleMessage (assemble (s.lane d).receiver (some f.lane)) = (r, none) →
      ∃ t, exec (.validFrame p f w) s = .next t ∧
        t.slot d = { s.slot d with taken := true, lastTaken := some f.number } ∧ (t.lane d).receiver = r) ∧
    ((s.slot d).active = some p → (s.port p).bufLast = none → (s.port p).frameSeen = false → (s.slot d).taken = true →
      ∃ t, exec (.validFrame p f w) s = .next t ∧ t.slot d = s.slot d ∧ t.lane d = s.lane d) ∧
    (p ∈ (s.slot d).bound → (s.slot d).active ≠ some p →
      ∃ t, exec (.validFrame p f w) s = .next t ∧ t.slot d = s.slot d ∧ t.lane d = s.lane d)

/-- Port loss by a fourth missing or a fourth mismatched frame, or by no light: the port hunts again with its record as R11 leaves it,
and the last window count is kept. `w` says that a window that completes in the same period is completed first (DESIGN CHOICE, log 20).
The loss of a bound port with a surplus port of its slot's identity: the first of those, A to D, is bound in its place, and if the lost
port was the active path the slot goes to the port that was already bound; if that port is the active path and ERRORED, the slot goes to
the surplus port, if it is LOCKED and no concealment is under way. That a fourth missing period adds 1 to the expected number too is
the model's (DESIGN CHOICE, log 48). -/
def Obligations.PortLossEffect : Prop :=
  ∀ (p : LinkPort) (f : StageFrame) (w : Bool) (s : State), s.powered = true → (s.port p).usable = true →
    (s.port p).windowPos < 4800 →
    (3 ≤ (s.port p).missingRun →
      ∃ t, exec (.missingFrame p w) s = .next t ∧ s.OtherPortsStand p t ∧
        (t.port p).core = { s.port p with
          state := .seeking, lockRun := 0, identSeen := none, roleSeen := none, expected := (s.port p).expected + 1,
          missingRun := 0, mismatchRun := 0, windowPos := 0, windowCount := 0, lossAge := 0, buffer := [], frameSeen := true,
          lastWindowCount := if w = true ∧ (s.port p).windowPos = 4799 then (s.port p).windowCount
            else (s.port p).lastWindowCount }.core ∧
        p ∉ t.waitList) ∧
    ((s.port p).identSeen ≠ some f.ident → 3 ≤ (s.port p).mismatchRun →
      ∃ t, exec (.validFrame p f w) s = .next t ∧ s.OtherPortsStand p t ∧
        (t.port p).core = { s.port p with
          state := .seeking, lockRun := 0, identSeen := none, roleSeen := none, expected := (s.port p).expected + 1,
          missingRun := 0, mismatchRun := 0, windowPos := 0, windowCount := 0, lossAge := 0, buffer := [], frameSeen := true,
          lastWindowCount := if w = true ∧ (s.port p).windowPos = 4799 then (s.port p).windowCount
            else (s.port p).lastWindowCount }.core ∧
        p ∉ t.waitList) ∧
    (∀ reading, reading = LightReading.power (-36001) → 48 ≤ (s.port p).lightFrames →
      ∃ t, exec (.lightMeasurement p reading) s = .next t ∧ s.OtherPortsStand p t ∧
        (t.port p).core = { s.port p with
          state := .dark, lightCode := 254, lightFrames := 0, lockRun := 0, identSeen := none, roleSeen := none, missingRun := 0,
          mismatchRun := 0, windowPos := 0, windowCount := 0, lossAge := 0, buffer := [] }.core ∧
        p ∉ t.waitList) ∧
    (∀ d q, s.AttachLawful → s.NoneReturned → 3 ≤ (s.port p).missingRun → p ∈ (s.slot d).bound →
      let surplus := fun x : LinkPort =>
        (∀ e, x ∉ (s.slot e).bound) ∧ (s.port x).usable = true ∧ (s.port x).identSeen = (s.slot d).ident
      surplus q → (∀ x, x.code < q.code → ¬surplus x) →
      ∃ t, exec (.missingFrame p false) s = .next t ∧
        (t.slot d).bound = ((s.slot d).bound.map fun x => if x = p then q else x) ∧
        (∀ r, (s.slot d).active = some p → r ∈ (s.slot d).bound → r ≠ p → (t.slot d).active = some r) ∧
        (∀ r, (s.slot d).active = some r → r ≠ p → (s.port r).state = .locked ∨ (s.slot d).conceal ≠ .none →
          (t.slot d).active = some r) ∧
        (∀ r, (s.slot d).active = some r → r ≠ p → (s.port r).state = .errored → (s.slot d).conceal = .none →
          (t.slot d).active = (if (s.port q).state = .locked then some q else some r) ∧
          ((s.port q).state = .locked →
            (t.slot d).switchovers = if (s.slot d).switchovers < 65535 then (s.slot d).switchovers + 1 else 65535)))

/-- ERROR_WINDOW_COMPLETE: a window of 4,800 periods is acted on, the count kept and the next window begun; before its end the event
changes nothing (log 1). An errored event of the active path of a slot that does not conceal moves the slot to its other port if that
is LOCKED, a recovered event of the other port of an ERRORED active path moves it to that port, and no other window moves a slot. -/
def Obligations.ErrorWindowEffect : Prop :=
  ∀ (p : LinkPort) (s : State), s.powered = true →
    (¬((s.port p).usable = true ∧ 4800 ≤ (s.port p).windowPos) →
      exec (.errorWindowComplete p) s = .next s.settleReturned) ∧
    ((s.port p).usable = true → 4800 ≤ (s.port p).windowPos →
      ∃ t, exec (.errorWindowComplete p) s = .next t ∧ s.OtherPortsStand p t ∧
        (t.port p).core = { s.port p with
          lastWindowCount := (s.port p).windowCount, windowPos := 0, windowCount := 0,
          state := if (s.port p).state = PortState.locked ∧ 8 ≤ (s.port p).windowCount then PortState.errored
            else if (s.port p).state = PortState.errored ∧ (s.port p).windowCount ≤ 1 then PortState.locked else (s.port p).state }.core) ∧
    ((s.port p).usable = true → 4800 ≤ (s.port p).windowPos → s.AttachLawful → s.NoneReturned →
      let fails := (s.port p).state = .locked ∧ 8 ≤ (s.port p).windowCount
      let recovers := (s.port p).state = .errored ∧ (s.port p).windowCount ≤ 1
      (∀ d x y, (s.slot d).state = .active → (s.slot d).conceal = .none → x ∈ (s.slot d).bound → y ∈ (s.slot d).bound → x ≠ y →
        (s.slot d).active = some x →
        (x = p ∧ fails ∧ (s.port y).state = .locked) ∨ (y = p ∧ recovers ∧ (s.port x).state = .errored) →
        ∃ t, exec (.errorWindowComplete p) s = .next t ∧ (t.slot d).active = some y ∧
          (t.slot d).switchovers = (if (s.slot d).switchovers < 65535 then (s.slot d).switchovers + 1 else 65535) ∧
          ∀ e, e ≠ d → t.slot e = s.slot e) ∧
      ((∀ d x y, (s.slot d).state = .active → (s.slot d).conceal = .none → x ∈ (s.slot d).bound → y ∈ (s.slot d).bound → x ≠ y →
          (s.slot d).active = some x →
          ¬((x = p ∧ fails ∧ (s.port y).state = .locked) ∨ (y = p ∧ recovers ∧ (s.port x).state = .errored))) →
        (∀ d x y, (s.slot d).active = some x → y ∈ (s.slot d).bound → x ≠ y → (s.port x).state = .errored →
          (s.port y).state ≠ .locked) →
        ∃ t, exec (.errorWindowComplete p) s = .next t ∧ t.slots = s.slots))

/-- A frame returned at a hitless switch is taken by the slot that runs on the port, in the first period in which the slot has taken
none; the port's own event of that period, if it is still to come, then delivers nothing, so that the next number follows in the next
period; with no such frame nothing is left to settle. -/
def Obligations.ReturnedFrameIsTaken : Prop :=
  (∀ s : State, s.NoneReturned → s.settleReturned = s) ∧
  ∀ (s : State) (d : Desk) (p : LinkPort) (g : StageFrame), s.AttachLawful → s.RunsOn d p → (s.slot d).conceal = .none →
    (s.port p).captured = some g →
    (s.settleReturned.slot d).samples = g.audio ∧ (s.settleReturned.slot d).lastTaken = some g.number ∧
    (s.settleReturned.slot d).produced = true ∧ (s.settleReturned.slot d).taken = true ∧
    (s.settleReturned.port p).captured = none ∧ (s.settleReturned.port p).skip = !(s.port p).frameSeen ∧
    ∀ (f : StageFrame) (w : Bool), s.powered = true → (s.port p).usable = true → (s.port p).windowPos < 4800 →
      (s.port p).identSeen = some f.ident → (s.port p).expected = f.number → (s.port p).frameSeen = false →
      (s.port p).bufLast = some g.number →
      ∃ t, exec (.validFrame p f w) s.settleReturned = .next t ∧ (t.port p).bufLast = some g.number ∧
        t.slot d = s.settleReturned.slot d

/-- Frames survive their bytes: what a console sends is read back field by field, its check passes, and its period is the row of a
valid frame; a frame is 72 bytes. -/
def Obligations.StageFramesRoundTrip : Prop :=
  ∀ (f : StageFrame), f.ok = true →
    (stageBytes f).length = 72 ∧ stageCheckPasses (stageBytes f) = true ∧ stageParse (stageBytes f) = f ∧
    ∀ (p : LinkPort) (w : Bool), periodCommand p (some (stageBytes f)) w = .validFrame p f w

/-- Messages survive their bytes: the content of a message, with or without the filling of its last frame, is read back as its kind,
tag and body; its length is 6 + L; and the receiver hands it over once, when its last byte has come. The receiver's table of lane
codes, and the messages it drops; and the transmitter: the kinds in rotation from the one that follows the last sent (DEDUCED, log 36),
seven bytes a frame, the first marked FIRST and the others NEXT, an answer leaving its queue with its last frame, and IDLE with zero
content when nothing waits or the slot is not ACTIVE. -/
def Obligations.MessagesRoundTrip : Prop :=
  (∀ (kind tag : Byte) (body fill : List Byte), body.length ≤ 1023 →
    (messageContent kind tag body).length = 6 + body.length ∧
    messageParse (messageContent kind tag body ++ fill) = some (kind, tag, body) ∧
    settleMessage (some (messageContent kind tag body ++ fill)) = (none, some (kind, tag, body)) ∧
    ∀ n, n < 6 + body.length →
      settleMessage (some ((messageContent kind tag body).take n)) = (some ((messageContent kind tag body).take n), none)) ∧
  ((∀ (held : Option (List Byte)) (code : Byte) (content : List Byte), content.length = 7 →
    assemble held none = none ∧
    (code = 0x01#8 → assemble held (some (code :: content)) = some content) ∧
    (code = 0x02#8 → assemble held (some (code :: content)) = held.map (· ++ content)) ∧
    (code ≠ 0x01#8 → code ≠ 0x02#8 → assemble held (some (code :: content)) = none)) ∧
  (∀ c : List Byte, 4 ≤ c.length →
    let len := 256 * (nth c 2 0).toNat + (nth c 3 0).toNat
    (1023 < len → settleMessage (some c) = (none, none)) ∧
    (len ≤ 1023 → 6 + len ≤ c.length →
      messageCheck (c.take (4 + len)) ≠ nth c (4 + len) 0 ++ nth c (5 + len) 0 → settleMessage (some c) = (none, none))) ∧
  settleMessage none = (none, none) ∧
  ∀ l : Lane,
    let idle : List Byte := [0, 0, 0, 0, 0, 0, 0, 0]
    let first := l.tx.next
    let second := first.following
    let third := second.following
    l.frame false = (l, idle) ∧
    (l.waiting .answer = match l.answers with
      | a :: _ => if a.complete = true then some a.content else none
      | [] => none) ∧
    l.waiting .meter = l.tx.pendingMeter.map (messageContent 0x82#8 0#8) ∧
    l.waiting .digest = l.tx.pendingDigest.map (messageContent 0x81#8 0#8) ∧
    (∀ m, l.tx.sending = some m →
      l.frame true =
        ({ l with
            tx := { l.tx with
              sending := if m.rest.length ≤ 7 then none else some { cls := m.cls, rest := m.rest.drop 7, first := false },
              next := if m.rest.length ≤ 7 then m.cls.following else l.tx.next },
            answers := if m.rest.length ≤ 7 ∧ m.cls = .answer then l.answers.drop 1 else l.answers },
          (if m.first = true then 0x01#8 else 0x02#8) :: (m.rest.take 7 ++ List.replicate (7 - m.rest.length) 0#8))) ∧
    (l.tx.sending = none → (∀ c, l.waiting c = none) → l.frame true = (l, idle)) ∧
    ∀ c content, l.tx.sending = none → l.waiting c = some content →
      (c = first ∨ (c = second ∧ l.waiting first = none) ∨
        (c = third ∧ l.waiting first = none ∧ l.waiting second = none)) →
      l.frame true = ({ l with tx := { l.tx with
        sending := some { cls := c, rest := content, first := true },
        pendingMeter := if c = .meter then none else l.tx.pendingMeter,
        pendingDigest := if c = .digest then none else l.tx.pendingDigest } } : Lane).frame true)

/-! ## Attachments -/

/-- The lock event of a port: a console that has a slot gains the port as its standby; one that has none is admitted to the lowest VACANT
slot with its role and talk class and the locking frame as its first delivery, or waits in line. A port bound to the slot of another
console leaves that slot, whose state stands; of two bound ports one that is DARK or SEEKING gives up its place, the one lost for longer
or the later of A to D, and with both in use the port is surplus. A
slot that runs on an ERRORED path and does not conceal switches to the port, newly bound or bound and locked again; any other stays on
its path. A SILENT slot is revived on a port that carries its identifier, the
locking frame being the first step of its fade-in. The outputs hear of the returns that come back. -/
def Obligations.LockEventEffect : Prop :=
  (∀ (p : LinkPort) (f : StageFrame) (w : Bool) (s : State), s.powered = true → s.AttachLawful → s.NoneReturned →
    (s.port p).state = .seeking → 31 ≤ (s.port p).lockRun → f.number = (s.port p).seekNumber + 1 →
    f.ident = (s.port p).seekIdent → (∀ d, p ∉ (s.slot d).bound) →
    (∀ d, (∀ e, (s.slot e).state ≠ .vacant → (s.slot e).ident ≠ some f.ident) → s.firstVacant = some d →
      (s.lane d).receiver = none →
      ∃ t, exec (.validFrame p f w) s = .next t ∧ (t.slot d).state = .active ∧ (t.slot d).ident = some f.ident ∧
        (t.slot d).bound = [p] ∧ (t.slot d).active = some p ∧ (t.slot d).conceal = .none ∧ (t.slot d).switchovers = 0 ∧
        (t.slot d).role = some (if f.roleCode = 0 then .front
          else if f.roleCode = 1 then
            (if Desk.all.any fun e => decide (e ≠ d ∧ (s.slot e).state ≠ .vacant ∧ (s.slot e).role = some .monitor) then .general
             else .monitor)
          else .general) ∧
        (∀ role, (t.slot d).role = some role →
          (t.slot d).talkClass = (match role with | .monitor => 3 | .front => 2 | .general => 1)) ∧
        (t.slot d).samples = f.audio ∧ (t.slot d).lastTaken = some f.number ∧ t.waitList = [] ∧
        (∀ e, e ≠ d → t.slot e = s.slot e) ∧ t.meter.returnPeaks = s.meter.returnPeaks.set d (List.replicate 16 0) ∧
        t.overs = s.overs.set (.desk d) OverSet.empty ∧ (t.lane d).tx.pendingDigest.isSome = true ∧
        s.SourcesBack (IsReturn d) t) ∧
    ((∀ e, (s.slot e).state ≠ .vacant ∧ (s.slot e).ident ≠ some f.ident) → p ∉ s.waitList →
      ∃ t, exec (.validFrame p f w) s = .next t ∧ t.waitList = s.waitList ++ [p] ∧ t.slots = s.slots) ∧
    (∀ d, (s.slot d).state = .active → (s.slot d).ident = some f.ident → (s.slot d).bound.length = 1 →
      ∃ t, exec (.validFrame p f w) s = .next t ∧ (t.slot d).bound = (s.slot d).bound ++ [p] ∧
        (t.slot d).state = .active ∧ t.waitList = s.waitList ∧
        (¬((s.slot d).conceal = .none ∧ ∃ q, (s.slot d).active = some q ∧ (s.port q).state = .errored) →
          (t.slot d).active = (s.slot d).active ∧ ∀ e, e ≠ d → t.slot e = s.slot e))) ∧
  (∀ (p : LinkPort) (f : StageFrame) (w : Bool) (s : State), s.powered = true → s.AttachLawful → s.NoneReturned →
    (s.port p).state = .seeking → 31 ≤ (s.port p).lockRun → f.number = (s.port p).seekNumber + 1 →
    f.ident = (s.port p).seekIdent →
    (∀ e, p ∈ (s.slot e).bound → (s.slot e).ident ≠ some f.ident →
      ∃ t, exec (.validFrame p f w) s = .next t ∧ t.slot e = { s.slot e with bound := (s.slot e).bound.filter (· ≠ p) } ∧
        ((∀ k, (s.slot k).state ≠ .vacant ∧ (s.slot k).ident ≠ some f.ident) → t.waitList = s.waitList ++ [p]) ∧
        (∀ d, (s.slot d).state ≠ .vacant → (s.slot d).ident = some f.ident → (s.slot d).bound.length ≤ 1 →
          (t.slot d).bound = (s.slot d).bound ++ [p] ∧ (t.slot d).state = .active ∧
          ((s.slot d).state = .silent → (t.slot d).active = some p)) ∧
        ∀ d, (∀ k, (s.slot k).state ≠ .vacant → (s.slot k).ident ≠ some f.ident) → s.firstVacant = some d →
          (t.slot d).state = .active ∧ (t.slot d).ident = some f.ident ∧ (t.slot d).bound = [p] ∧
          (t.slot d).active = some p) ∧
    ∀ d, (∀ e, p ∉ (s.slot e).bound) → (s.slot d).state ≠ .vacant → (s.slot d).ident = some f.ident →
      (s.slot d).bound.length = 2 →
      (∀ q, q ∈ (s.slot d).bound → (s.port q).usable = false →
        (∀ r, r ∈ (s.slot d).bound → r ≠ q → (s.port r).usable = true ∨ (s.port r).lossAge < (s.port q).lossAge ∨
          ((s.port r).lossAge = (s.port q).lossAge ∧ r.code < q.code)) →
        ∃ t, exec (.validFrame p f w) s = .next t ∧
          (t.slot d).bound = ((s.slot d).bound.map fun r => if r = q then p else r) ∧ (t.slot d).state = .active ∧
          ((s.slot d).state = .silent → (t.slot d).active = some p) ∧
          (∀ r, (s.slot d).active = some r → (s.port r).state = .locked → (t.slot d).active = some r)) ∧
      ((∀ q, q ∈ (s.slot d).bound → (s.port q).usable = true) →
        ∃ t, exec (.validFrame p f w) s = .next t ∧ t.slots = s.slots ∧ t.waitList = s.waitList)) ∧
  (∀ (p q : LinkPort) (d : Desk) (f : StageFrame) (w : Bool) (s : State), s.powered = true → s.AttachLawful → s.NoneReturned →
    (s.port p).state = .seeking → 31 ≤ (s.port p).lockRun → f.number = (s.port p).seekNumber + 1 →
    f.ident = (s.port p).seekIdent → (s.slot d).state = .active → (s.slot d).ident = some f.ident → (s.slot d).active = some q →
    (p ∈ (s.slot d).bound ∨ ((∀ e, p ∉ (s.slot e).bound) ∧
      ((s.slot d).bound.length = 1 ∨ ∃ x, x ∈ (s.slot d).bound ∧ (s.port x).usable = false))) →
    ∃ t, exec (.validFrame p f w) s = .next t ∧ (t.slot d).state = .active ∧ p ∈ (t.slot d).bound ∧ q ∈ (t.slot d).bound ∧
      (p ∈ (s.slot d).bound → (t.slot d).bound = (s.slot d).bound) ∧
      ((s.port q).state = .errored → (s.slot d).conceal = .none →
        (t.slot d).active = some p ∧
        (t.slot d).switchovers = if (s.slot d).switchovers < 65535 then (s.slot d).switchovers + 1 else 65535) ∧
      ((s.port q).state = .locked ∨ (s.slot d).conceal ≠ .none →
        (t.slot d).active = some q ∧ (t.slot d).switchovers = (s.slot d).switchovers ∧ ∀ e, e ≠ d → t.slot e = s.slot e)) ∧
  (∀ (p : LinkPort) (d : Desk) (f : StageFrame) (w : Bool) (s : State), s.powered = true → s.AttachLawful → s.NoneReturned →
    (s.port p).state = .seeking → 31 ≤ (s.port p).lockRun → f.number = (s.port p).seekNumber + 1 →
    f.ident = (s.port p).seekIdent → (s.slot d).state = .silent → (s.slot d).ident = some f.ident →
    (s.lane d).receiver = none → (p ∈ (s.slot d).bound ∨ ((∀ e, p ∉ (s.slot e).bound) ∧ (s.slot d).bound.length < 2)) →
    ∃ t, exec (.validFrame p f w) s = .next t ∧ (t.slot d).state = .active ∧ (t.slot d).active = some p ∧
      (t.slot d).grace = none ∧ (t.slot d).switchovers = (s.slot d).switchovers ∧ (t.slot d).role = (s.slot d).role ∧
      (t.slot d).talkClass = (s.slot d).talkClass ∧
      (t.slot d).bound = (if p ∈ (s.slot d).bound then (s.slot d).bound else (s.slot d).bound ++ [p]) ∧
      ((s.slot d).conceal = .silentGap →
        (t.slot d).conceal = .fadingIn ∧ (t.slot d).step = 1 ∧ (t.slot d).samples = f.audio.map (fun x => x.tdiv 64)) ∧
      s.SourcesBack (IsReturn d) t ∧ ∀ e, e ≠ d → t.slot e = s.slot e)

/-- An ACTIVE slot whose last usable port is lost becomes SILENT: its audio fades, unless its fade-out has ended, its grace timer
starts, it leaves the talk buses, its batch is discarded and the answer of a sealed one completed FAILED, its lane is quiet and the
outputs lose its returns; what identifies it stays. -/
def Obligations.SilentEffect : Prop :=
  ∀ (p : LinkPort) (d : Desk) (s : State), s.powered = true → s.AttachLawful → s.TalkLawful → s.NoneReturned →
    (s.port p).usable = true → (s.port p).windowPos < 4800 → 3 ≤ (s.port p).missingRun → (s.slot d).state = .active →
    (s.slot d).active = some p → (∀ q, q ∈ (s.slot d).bound → q ≠ p → (s.port q).usable = false) →
    ∃ t, exec (.missingFrame p false) s = .next t ∧
      (t.slot d).state = .silent ∧ (t.slot d).active = none ∧
      (t.slot d).grace = some { count := 0, limit := s.graceTime * 48 } ∧
      ((s.slot d).conceal = .silentGap ∨ ((s.slot d).conceal = .fadingOut ∧ 64 ≤ (s.slot d).step) →
        (t.slot d).conceal = .silentGap) ∧
      ((s.slot d).conceal ≠ .silentGap → ¬((s.slot d).conceal = .fadingOut ∧ 64 ≤ (s.slot d).step) →
        (t.slot d).conceal = .fadingOut ∧ (t.slot d).step = 0 ∧ (t.slot d).origin = (s.slot d).samples) ∧
      (t.slot d).samples = (s.slot d).samples ∧ (t.slot d).ident = (s.slot d).ident ∧ (t.slot d).role = (s.slot d).role ∧
      (t.slot d).bound = (s.slot d).bound ∧ (t.slot d).talkClass = (s.slot d).talkClass ∧
      (t.slot d).switchovers = (s.slot d).switchovers ∧ (t.slot d).lastTaken = (s.slot d).lastTaken ∧
      (t.lane d).receiver = none ∧ (t.lane d).tx.sending = none ∧
      (t.lane d).tx.pendingMeter = (s.lane d).tx.pendingMeter ∧ (t.lane d).tx.pendingDigest = (s.lane d).tx.pendingDigest ∧
      (∀ b, (t.bus b).talker ≠ some (.desk d) ∧ .desk d ∉ (t.bus b).waiting ∧
        (t.bus b).waiting.Sublist (s.bus b).waiting ∧ (t.bus b).notices.get (.desk d) = false ∧
        ((s.bus b).talker = some (.desk d) → (t.bus b).talker = (s.bus b).waiting.head?)) ∧
      (t.batch (.desk d)).state = .none ∧ ((s.batch (.desk d)).state ≠ .none → (t.batch (.desk d)).staged = []) ∧
      ((s.batch (.desk d)).state ≠ .sealed → (t.lane d).answers = (s.lane d).answers) ∧
      (∀ (before after : List Answer) (a : Answer), (s.batch (.desk d)).state = .sealed →
        (s.lane d).answers = before ++ a :: after → (∀ x, x ∈ before → x.complete = true) → a.complete = false →
        let lost := (s.batch (.desk d)).staged.length + (s.batch (.desk d)).dropped
        (t.lane d).answers = before ++
          { a with result := .failed, data := .counts 0 (if lost ≤ 65535 then lost else 65535), complete := true } :: after) ∧
      s.SourcesGone (IsReturn d) t ∧
      t.domains = s.domains ∧ t.comp = s.comp ∧ t.mixes = s.mixes ∧ t.channels = s.channels ∧ t.memory = s.memory ∧
      ∀ e, e ≠ d → t.slot e = s.slot e

/-- A switchover at the loss of the active path, with no control message in the frames held: counted; hitless with the frame that
follows when the other port holds it, taken at once if the slot has taken none in the period and else left to the next, or concealed
from the present samples; always concealed while a concealment is under way, which a fade-in is until its step 64. -/
def Obligations.SwitchoverEffect : Prop :=
  ∀ (p q : LinkPort) (d : Desk) (s : State), s.powered = true → s.AttachLawful → s.NoneReturned →
    (s.port p).usable = true → (s.port p).windowPos < 4800 → 3 ≤ (s.port p).missingRun → (s.slot d).state = .active →
    (s.slot d).active = some p → q ∈ (s.slot d).bound → q ≠ p → (s.port q).usable = true →
    (∀ g, g ∈ (s.port q).buffer → nth g.lane 0 0 = 0x00#8) →
    let quiet := (s.slot d).conceal = .none ∨ ((s.slot d).conceal = .fadingIn ∧ 64 ≤ (s.slot d).step)
    ∃ t, exec (.missingFrame p false) s = .next t ∧ (t.slot d).state = .active ∧ (t.slot d).active = some q ∧
      (t.slot d).switchovers = (if (s.slot d).switchovers < 65535 then (s.slot d).switchovers + 1 else 65535) ∧
      (∀ n g, quiet → (s.slot d).lastTaken = some n → (s.port q).query (n + 1) = some g →
        (t.slot d).conceal = .none ∧ (t.port q).bufLast = some (n + 1) ∧
        ((s.slot d).produced = false → (s.slot d).taken = false ∨ (s.port p).frameSeen = true →
          (t.slot d).samples = g.audio ∧ (t.slot d).lastTaken = some (n + 1) ∧ (t.port q).held = g.audio) ∧
        ((s.slot d).taken = true → (s.port p).frameSeen = false →
          (t.slot d).samples = (s.slot d).samples ∧ (t.slot d).lastTaken = some n ∧ (t.port q).captured = some g)) ∧
      (¬quiet ∨ (∀ n, (s.slot d).lastTaken = some n → (s.port q).query (n + 1) = none) →
        (t.slot d).conceal = .fadingOut ∧ (t.slot d).step = 0 ∧ (t.slot d).origin = (s.slot d).samples ∧
        (t.slot d).samples = (s.slot d).samples ∧ (t.lane d).receiver = none ∧ (t.slot d).lastTaken = (s.slot d).lastTaken) ∧
      ∀ e, e ≠ d → t.slot e = s.slot e

/-- FADE_OUT_END and FADE_IN_END: a fade ends after its step 64, the fade-out in the gap and the fade-in in NONE; a switch deferred by
the concealment is made at once. The step in the gap is the model's choice (log 19). -/
def Obligations.FadeEnds : Prop :=
  ∀ (d : Desk) (s : State), s.powered = true →
    ((s.slot d).conceal = .fadingOut → (s.slot d).step = 64 →
      exec (.fadeOutEnd d) s = .next (s.modSlot d fun r => { r with conceal := .silentGap, step := 0 })) ∧
    (¬((s.slot d).conceal = .fadingOut ∧ 64 ≤ (s.slot d).step) → exec (.fadeOutEnd d) s = .next s) ∧
    ((s.slot d).conceal = .fadingIn → (s.slot d).step = 64 → s.NoneReturned →
      (¬∃ p q, (s.slot d).state = .active ∧ (s.slot d).active = some p ∧ q ∈ (s.slot d).bound ∧ q ≠ p ∧
          (s.port p).state = .errored ∧ (s.port q).state = .locked) →
        exec (.fadeInEnd d) s = .next (s.modSlot d fun r => { r with conceal := .none, step := 0 })) ∧
    (∀ p q, s.AttachLawful → (s.slot d).conceal = .fadingIn → (s.slot d).step = 64 → (s.slot d).state = .active →
      (s.slot d).active = some p → q ∈ (s.slot d).bound → q ≠ p → (s.port p).state = .errored → (s.port q).state = .locked →
      ∃ t, exec (.fadeInEnd d) s = .next t ∧ (t.slot d).active = some q) ∧
    (¬((s.slot d).conceal = .fadingIn ∧ 64 ≤ (s.slot d).step) → exec (.fadeInEnd d) s = .next s.settleReturned)

/-- GRACE_EXPIRY: a SILENT slot whose grace timer has run its length becomes VACANT with all it held released, and the oldest waiting
port is admitted to it at once; before that the event changes nothing. -/
def Obligations.GraceExpiryEffect : Prop :=
  ∀ (d : Desk) (s : State), s.powered = true →
    (∀ g, (s.slot d).grace = some g → (s.slot d).state = .silent → g.limit ≤ g.count →
      (s.waitList = [] → ∃ t, exec (.graceExpiry d) s = .next t ∧ (t.slot d).state = .vacant ∧ (t.slot d).ident = none ∧
        (t.slot d).role = none ∧ (t.slot d).bound = [] ∧ (t.slot d).active = none ∧ (t.slot d).conceal = .none ∧
        (t.slot d).step = 0 ∧ (t.slot d).samples = Audio.silent ∧ (t.slot d).origin = Audio.silent ∧
        (t.slot d).lastTaken = none ∧ (t.slot d).grace = none ∧ (t.slot d).switchovers = 0 ∧ (t.slot d).talkClass = 0 ∧
        (∀ e, e ≠ d → t.slot e = s.slot e ∧ t.lane e = s.lane e) ∧
        (t.lane d).answers = [] ∧ (t.lane d).receiver = none ∧ (t.lane d).tx.sending = none ∧
        (t.lane d).tx.pendingMeter = none ∧ (t.lane d).tx.pendingDigest = none ∧ (t.lane d).dropped = false ∧
        t.domains = (s.domains.map fun x => if x.owner = some (.desk d) then Domain.reset else x) ∧
        t.comp = (s.comp.map fun ic => { ic with cells := ic.cells.set d.column Cell.reset }) ∧
        t.ports = s.ports ∧ t.channels = s.channels ∧ t.mixes = s.mixes ∧ t.outputs = s.outputs ∧ t.memory = s.memory) ∧
      (∀ p rest x role, s.AttachLawful → s.waitList = p :: rest → (s.port p).identSeen = some x → (s.port p).roleSeen = some role →
        ∃ t, exec (.graceExpiry d) s = .next t ∧ (t.slot d).state = .active ∧ (t.slot d).ident = some x ∧
          (t.slot d).bound.head? = some p ∧ p ∉ t.waitList ∧ t.waitList.Sublist rest ∧ s.SourcesBack (IsReturn d) t ∧
          ∀ e, e ≠ d → t.slot e = s.slot e)) ∧
    ((s.slot d).state ≠ .silent ∨ (∀ g, (s.slot d).grace = some g → g.count < g.limit) →
      exec (.graceExpiry d) s = .next s)

/-- PATH-PREFER, row by row: the slot concerned, the answer and the effect, with the answer at the end of the requester's queue. -/
def Obligations.PathPreferAnswers : Prop :=
  ∀ (sl : SlotId) (tag : Byte) (p : LinkPort) (s : State), s.Accepts sl → s.NoneReturned → s.AttachLawful →
    (∀ code : Byte, LinkPort.ofCode code.toNat = none →
      exec (.pathPrefer sl tag code) s = .next (s.answer sl tag 0x3A#8 .badValue .none)) ∧
    ((∀ d, (sl = .panel ∨ sl = .desk d) → p ∉ (s.slot d).bound) →
      exec (.pathPrefer sl tag (BitVec.ofNat 8 p.code)) s = .next (s.answer sl tag 0x3A#8 .notAvailable .none)) ∧
    ∀ d, (sl = .panel ∨ sl = .desk d) → p ∈ (s.slot d).bound →
      ((s.slot d).active = some p →
        exec (.pathPrefer sl tag (BitVec.ofNat 8 p.code)) s = .next (s.answer sl tag 0x3A#8 .done .none)) ∧
      ((s.slot d).active ≠ some p → (s.port p).state ≠ .locked →
        exec (.pathPrefer sl tag (BitVec.ofNat 8 p.code)) s = .next (s.answer sl tag 0x3A#8 .notAvailable .none)) ∧
      ((s.slot d).active ≠ some p → (s.port p).state = .locked → (s.slot d).conceal ≠ .none →
        exec (.pathPrefer sl tag (BitVec.ofNat 8 p.code)) s = .next (s.answer sl tag 0x3A#8 .busy .none)) ∧
      ((s.slot d).active ≠ some p → (s.port p).state = .locked → (s.slot d).conceal = .none →
        exec (.pathPrefer sl tag (BitVec.ofNat 8 p.code)) s =
            .next ((s.switchover d p).answer sl tag 0x3A#8 .done .none).settleReturned ∧
          ((s.switchover d p).slot d).active = some p)

/-! ## Front end -/

/-- GAIN_CHANGE_MARKER: a channel in flight whose card is there applies what was sent, hands the new effective gain to the compensation
stage, and settles for a hold that is owed or is free again; any other marker changes nothing. With the new gain every ON cell that is
not ramping takes the trim 2 × (Eref − E), clamped to ±36, one that is ramping moves by as much as its target does, clamped, and goes on
with its count, and LIMITED says whether the target was clamped; an OFF cell stands. A step a cell took ahead of the frame is taken back
first (the model's reading, log 3). -/
def Obligations.MarkerEffect : Prop :=
  (∀ (i : Fin 64) (s : State), s.powered = true → s.Shaped →
    (∀ x, (s.channel i).op = .inFlight → (s.channel i).sent = some x → (s.card (i.val / 8)).present = true →
      ∃ t, exec (.gainChangeMarker i) s = .next t ∧ (t.channel i).applied = x ∧ (t.channel i).sent = none ∧
        (t.channel i).markerTimer = none ∧ (t.channel i).holdOwed = false ∧ (t.channel i).desired = (s.channel i).desired ∧
        (t.channel i).link = (if (s.channel i).link = .fault then .ready else (s.channel i).link) ∧
        ((s.channel i).link = .fault → (t.channel i).retryTimer = none) ∧
        ((s.channel i).holdOwed = true → (t.channel i).op = .settling ∧ (t.channel i).holdTimer = some 0 ∧
          (t.channel i).gateOpen = false ∧ t.cardQueue = s.cardQueue) ∧
        ((s.channel i).holdOwed = false → (t.channel i).gateOpen = true ∧
          (if (t.channel i).link = .ready ∧ (s.channel i).desired ≠ x then
            (t.channel i).op = .queued ∧ t.cardQueue = s.cardQueue ++ [i]
          else (t.channel i).op = .idle ∧ t.cardQueue = s.cardQueue)) ∧
        (t.inputComp i).stageGain = x.gain - (if x.pad = true then 20 else 0) ∧
        (∀ j, j < 64 → j ≠ i.val → t.channel j = s.channel j ∧ t.inputComp j = s.inputComp j) ∧
        t.sendList = s.sendList ∧ t.cards = s.cards ∧ t.line = s.line ∧ t.mixes = s.mixes ∧ t.outputs = s.outputs ∧
        t.ports = s.ports ∧ t.slots = s.slots ∧ t.domains = s.domains ∧ t.memory = s.memory) ∧
    ((s.channel i).op ≠ .inFlight ∨ (s.card (i.val / 8)).present = false → exec (.gainChangeMarker i) s = .next s)) ∧
  (∀ (i : Fin 64) (col : Fin 4) (x : Setting) (s : State), s.powered = true → s.Shaped → (s.channel i).op = .inFlight →
    (s.channel i).sent = some x → (s.card (i.val / 8)).present = true → (s.inputComp i).stageGain ≠ x.effective →
    let clamp := fun v : Int => if v < -36 then -36 else if 36 < v then 36 else v
    let c := (s.cell i col).settled
    ∃ t, exec (.gainChangeMarker i) s = .next t ∧
      ((s.cell i col).on = false → t.cell i col = s.cell i col) ∧
      ∀ r, (s.cell i col).on = true → (s.cell i col).eref = some r →
        let goal := clamp (2 * (r - x.effective))
        let moved := if c.current = c.target then goal else clamp (c.current + (goal - c.target))
        t.cell i col = { s.cell i col with
          target := goal, current := moved, count := if moved = goal then 0 else c.count,
          limited := decide (2 * (r - x.effective) < -36 ∨ 36 < 2 * (r - x.effective)), undo := none })

/-- SETTING_SLOT, once in each setting slot: the send list's closed gates first, then the card-line queue's head; what is sent is the
desired setting as it then stands (a second event in the slot changes nothing, log 1). SETTING_ANSWER counts only when it names the
channel of the command; SETTING_NO_ANSWER, at whichever frame of the slot it comes (DESIGN CHOICE, log 43), leaves a channel
that is IN_FLIGHT in FAULT with its operation ended; one whose marker came first stands as it is (DESIGN CHOICE, log 46). -/
def Obligations.SettingExchanges : Prop :=
  (∀ s : State, s.powered = true → s.Shaped →
    (s.line.slotTaken = true ∨ s.line.slotNumber % 10 = 0 → exec .settingSlot s = .next s) ∧
    (s.line.slotTaken = false → s.line.slotNumber % 10 ≠ 0 → s.line.exchange = .none →
      (∀ i rest, s.sendList = i :: rest → i ∉ rest → (s.channel i).gate = 0 → (s.channel i).desired ≠ (s.channel i).applied →
        exec .settingSlot s = .next { s with
          sendList := rest, line := { s.line with slotTaken := true, exchange := .setting i (s.channel i).desired },
          channels := modNth s.channels i fun c => { c with
            sent := some (s.channel i).desired, op := .inFlight, markerTimer := some 0,
            holdOwed := decide ((s.channel i).desired.phantom ≠ (s.channel i).applied.phantom) } }) ∧
      (∀ i rest, s.sendList = [] → s.cardQueue = i :: rest → i ∉ rest →
        (s.channel i).desired ≠ (s.channel i).applied → (s.channel i).desired.phantom = (s.channel i).applied.phantom →
        exec .settingSlot s = .next { s with
          cardQueue := rest, line := { s.line with slotTaken := true, exchange := .setting i (s.channel i).desired },
          channels := modNth s.channels i fun c => { c with
            sent := some (s.channel i).desired, op := .inFlight, markerTimer := some 0, holdOwed := false } }) ∧
      (∀ i, s.sendList = [] → s.cardQueue = [i] → (s.channel i).desired.phantom ≠ (s.channel i).applied.phantom →
        exec .settingSlot s = .next { s with
          cardQueue := [], sendList := [i], line := { s.line with slotTaken := true },
          channels := modNth s.channels i fun c => { c with op := .muting, gateOpen := false } }) ∧
      (∀ i, s.sendList = [] → s.cardQueue = [i] → (s.channel i).desired = (s.channel i).applied →
        exec .settingSlot s = .next { s with
          cardQueue := [], line := { s.line with slotTaken := true },
          channels := modNth s.channels i fun c => { c with op := .idle } }) ∧
      (∀ i rest, s.sendList = i :: rest → i ∉ rest → (s.channel i).gate = 0 → (s.channel i).desired = (s.channel i).applied →
        rest = [] → s.cardQueue = [] →
        exec .settingSlot s = .next { s with
          sendList := [], line := { s.line with slotTaken := true },
          channels := modNth s.channels i fun c => { c with gateOpen := true, op := .idle } }) ∧
      (s.sendList = [] → s.cardQueue = [] →
        exec .settingSlot s = .next { s with line := { s.line with slotTaken := true } }))) ∧
  (∀ (i : Fin 64) (x : Setting) (s : State), s.powered = true → s.Shaped → s.line.exchange = .setting i x →
    (∀ card channel : Fin 8, i.val = 8 * card.val + channel.val →
      exec (.settingAnswer card channel) s = .next { s with line := { s.line with exchange := .none } }) ∧
    (∀ card channel : Fin 8, i.val ≠ 8 * card.val + channel.val → exec (.settingAnswer card channel) s = .next s) ∧
    ((s.channel i).op = .inFlight →
      exec .settingNoAnswer s = .next { s with
        line := { s.line with exchange := .none },
        channels := modNth s.channels i fun c => { c with
          link := .fault, retryTimer := some 0, sent := none, holdOwed := false, markerTimer := none, gateOpen := true,
          op := .idle } }) ∧
    ((s.channel i).op ≠ .inFlight →
      exec .settingNoAnswer s = .next { s with line := { s.line with exchange := .none } }) ∧
    ∀ u : State, u.powered = true → (u.line.exchange = .none ∨ ∃ c rest, u.line.exchange = .poll c rest) →
      exec .settingNoAnswer u = .next u)

/-- MARKER_TIMEOUT, HOLD_END and RETRY_TIMER_EXPIRY: at 960, 12,000 and 48,000 frames; before that each changes nothing (log 1). -/
def Obligations.ChannelTimers : Prop :=
  ∀ (i : Fin 64) (s : State), s.powered = true → s.Shaped →
    ((s.channel i).op = .inFlight → (s.channel i).markerTimer = some 960 → (s.channel i).holdOwed = true →
      exec (.markerTimeout i) s = .next { s with channels := modNth s.channels i fun c => { c with
        link := .fault, retryTimer := some 0, sent := none, markerTimer := none, op := .settling, holdOwed := false,
        holdTimer := some 0, gateOpen := false } }) ∧
    ((s.channel i).op = .inFlight → (s.channel i).markerTimer = some 960 → (s.channel i).holdOwed = false →
      exec (.markerTimeout i) s = .next { s with channels := modNth s.channels i fun c => { c with
        link := .fault, retryTimer := some 0, sent := none, markerTimer := none, op := .idle, gateOpen := true } }) ∧
    ((∀ k, (s.channel i).markerTimer = some k → k < 960) → exec (.markerTimeout i) s = .next s) ∧
    ((s.channel i).op = .settling → (s.channel i).holdTimer = some 12000 →
      exec (.holdEnd i) s = .next (
        if (s.channel i).link = .ready ∧ (s.channel i).desired ≠ (s.channel i).applied then
          { s with
            channels := modNth s.channels i fun c => { c with holdTimer := none, gateOpen := true, op := .queued },
            cardQueue := s.cardQueue ++ [i] }
        else
          { s with channels := modNth s.channels i fun c => { c with holdTimer := none, gateOpen := true, op := .idle } })) ∧
    ((∀ k, (s.channel i).holdTimer = some k → k < 12000) → exec (.holdEnd i) s = .next s) ∧
    ((s.channel i).link = .fault → (s.channel i).retryTimer = some 48000 →
      exec (.retryTimerExpiry i) s = .next (
        if (s.channel i).op = .idle ∧ (s.channel i).desired ≠ (s.channel i).applied then
          { s with
            channels := modNth s.channels i fun c => { c with retryTimer := some 0, op := .queued },
            cardQueue := s.cardQueue ++ [i] }
        else { s with channels := modNth s.channels i fun c => { c with retryTimer := some 0 } })) ∧
    ((∀ k, (s.channel i).retryTimer = some k → k < 48000) → exec (.retryTimerExpiry i) s = .next s)

/-- POLL_SLOT and POLL_ANSWER: slot 10 × k polls the cards in turn, an ABSENT one with the rest request, and counts as begun (DEDUCED,
log 30); an answered rest request brings the card and its channels back, with the event their inputs give the outputs, and an answer of
a PRESENT card acts on its overcurrent indications. POLL_UNANSWERED, at whichever frame of the slot it comes (DESIGN CHOICE, log 43): the
count stays at 3, and a PRESENT card's third makes it ABSENT and ends what its channels were at, without their phantom, and the outputs
lose its inputs. -/
def Obligations.PollEffects : Prop :=
  (∀ (s : State), s.powered = true → s.Shaped →
    (s.line.slotTaken = false → s.line.slotNumber % 10 = 0 → s.line.exchange = .none →
      let c := (s.line.slotNumber / 10 + 7) % 8
      ∃ k : Fin 8, k.val = c ∧ exec .pollSlot s = .next { s with
        line := { s.line with
          slotTaken := true, pollsBegun := s.line.pollsBegun + 1, exchange := .poll k (!(s.card c).present) } }) ∧
    (s.line.slotTaken = true ∨ s.line.slotNumber % 10 ≠ 0 → exec .pollSlot s = .next s) ∧
    ∀ (c : Fin 8) (oc : BitVec 8),
      (s.line.exchange = .poll c true → ∃ t, exec (.pollAnswer c oc) s = .next t ∧ t.line = { s.line with exchange := .none } ∧
        t.card c = { present := true, unanswered := 0 } ∧ (∀ e, e < 8 → e ≠ c.val → t.card e = s.card e) ∧
        (∀ i, i < 64 → i / 8 ≠ c.val → t.channel i = s.channel i) ∧
        (∀ i, i < 64 → i / 8 = c.val → (t.channel i).link = .ready ∧ (t.channel i).desired = (s.channel i).desired ∧
          (t.channel i).applied = { gain := 0, pad := false, phantom := false } ∧
          (t.channel i).gateOpen = !(s.channel i).desired.phantom ∧ (t.channel i).handOver = true ∧
          ((s.channel i).op = .idle →
            (t.channel i).op = if (s.channel i).desired = { gain := 0, pad := false, phantom := false } then .idle else .queued)) ∧
        s.SourcesBack (IsInputOf c.val) t ∧
        t.comp = s.comp ∧ t.mixes = s.mixes ∧ t.slots = s.slots ∧ t.ports = s.ports) ∧
      (s.line.exchange = .poll c false → ∃ t, exec (.pollAnswer c oc) s = .next t ∧ t.line = { s.line with exchange := .none } ∧
        t.card c = { present := true, unanswered := 0 } ∧
        (∀ i : Fin 64, i.val / 8 = c.val → oc.getLsbD (i.val % 8) = true →
          (t.channel i).desired = { (s.channel i).desired with phantom := false } ∧
          (t.channel i).applied = { (s.channel i).applied with phantom := false } ∧ (t.channel i).latch = true ∧
          (t.channel i).gateOpen = false ∧ i ∉ t.cardQueue ∧ i ∉ t.sendList ∧
          ((s.channel i).op = .inFlight → (t.channel i).op = .inFlight ∧ (t.channel i).holdOwed = true ∧
            (t.channel i).sent = (s.channel i).sent.map fun x => { x with phantom := false }) ∧
          ((s.channel i).op ≠ .inFlight → (t.channel i).op = .settling ∧ (t.channel i).holdTimer = some 0)) ∧
        (∀ i : Fin 64, (i.val / 8 ≠ c.val ∨ oc.getLsbD (i.val % 8) = false) → t.channel i = s.channel i ∧
          (i ∈ t.cardQueue ↔ i ∈ s.cardQueue)) ∧
        t.comp = s.comp ∧ t.mixes = s.mixes ∧ t.outputs = s.outputs ∧ t.slots = s.slots ∧ t.ports = s.ports) ∧
      ((∀ e rest, s.line.exchange = .poll e rest → e ≠ c) → exec (.pollAnswer c oc) s = .next s)) ∧
  (∀ (c : Fin 8) (rest : Bool) (s : State), s.powered = true → s.Shaped → s.line.exchange = .poll c rest →
    (¬((s.card c).present = true ∧ 2 ≤ (s.card c).unanswered) →
      exec .pollUnanswered s = .next { s with
        line := { s.line with exchange := .none },
        cards := modNth s.cards c fun r => { r with unanswered := if r.unanswered < 3 then r.unanswered + 1 else 3 } }) ∧
    ((s.card c).present = true → 2 ≤ (s.card c).unanswered →
      ∃ t, exec .pollUnanswered s = .next t ∧ t.line = { s.line with exchange := .none } ∧
        t.card c = { present := false, unanswered := 3 } ∧ (∀ e, e < 8 → e ≠ c.val → t.card e = s.card e) ∧
        (∀ i : Fin 64, i.val / 8 ≠ c.val → t.channel i = s.channel i ∧ (i ∈ t.cardQueue ↔ i ∈ s.cardQueue)) ∧
        (∀ i : Fin 64, i.val / 8 = c.val → i ∉ t.cardQueue ∧ i ∉ t.sendList ∧
          t.channel i = { s.channel i with
            link := .absent, op := .idle, sent := none, holdOwed := false, markerTimer := none, holdTimer := none,
            retryTimer := none, applied := { (s.channel i).applied with phantom := false }, gate := 0, gateOpen := false,
            handOver := false }) ∧
        s.SourcesGone (IsInputOf c.val) t ∧
        t.comp = s.comp ∧ t.mixes = s.mixes ∧ t.slots = s.slots ∧ t.ports = s.ports ∧ t.domains = s.domains))

/-! ## Levels, trims, ramps and outputs -/

/-- A level of `g` hdB with g = 12 k + r applied to a sample: the product with M[r], and the quotient by 2 to the shift 16 − k, rounded
to the nearest integer with halves going up; 0, +12 and −12 hdB, and zero, come out as the rule says. Saturation to 24 bits, and the
clip indication it sets. -/
def Obligations.LevelArithmetic : Prop :=
  ((∀ (g x k r : Int), -180 ≤ g → g ≤ 56 → g = 12 * k + r → 0 ≤ r → r < 12 →
    let m := nth [65536, 69419, 73533, 77890, 82505, 87394, 92572, 98057, 103868, 110022, 116541, 123447] r.toNat 0
    let s := (16 - k).toNat
    2 ^ s * applyLevel g x ≤ x * m + 2 ^ (s - 1) ∧ x * m + 2 ^ (s - 1) < 2 ^ s * (applyLevel g x + 1)) ∧
  (∀ x, applyLevel 0 x = x) ∧ (∀ x, applyLevel 12 x = 2 * x) ∧ (∀ x, applyLevel (-12) x = (x + 1) / 2) ∧
  (∀ g, -180 ≤ g → g ≤ 56 → applyLevel g 0 = 0) ∧ applyLevel (-12) 3 = 2 ∧ applyLevel (-12) (-3) = -1) ∧
  (∀ x : Int, (8388607 < x → saturate x = 8388607 ∧ clips x = true) ∧ (x < -8388608 → saturate x = -8388608 ∧ clips x = true) ∧
    (-8388608 ≤ x → x ≤ 8388607 → saturate x = x ∧ clips x = false))

/-- The meter scale: full scale lowered by each level in turn, falling with every step; and the level code of a peak, the smallest
level whose threshold it reaches. -/
def Obligations.MeterScale : Prop :=
  (∀ n, n ≤ 180 → threshold n = applyLevel (-(n : Int)) 8388607) ∧ (∀ n, n < 180 → threshold (n + 1) < threshold n) ∧
  threshold 0 = 8388607 ∧ (∀ j, 1 ≤ j → j ≤ 15 → threshold (12 * j) = 2 ^ (23 - j)) ∧
  (∀ p n : Nat, n ≤ 180 → threshold n ≤ p → (∀ k, k < n → (p : Int) < threshold k) → levelCode p = n) ∧
  (∀ p : Nat, (∀ k, k ≤ 180 → (p : Int) < threshold k) → levelCode p = 180) ∧
  levelCode 8388607 = 0 ∧ levelCode 8388608 = 0 ∧ levelCode 4194304 = 12 ∧ levelCode 4194303 = 13 ∧ levelCode 256 = 180 ∧
  levelCode 255 = 180

/-- TRIM_RAMP_STEP, LEVEL_RAMP_STEP and DUCK_RELEASE_STEP: a step falls in the frame in which the count reaches its length, and is
taken once, by its own command or by the frame; a command that takes it ahead of the frame keeps what it stepped from (the model's
reading, log 3). The duck goes by the target of the frame to be formed, its ramps taken. -/
def Obligations.RampStepCommands : Prop :=
  ∀ s : State, s.powered = true → s.Shaped →
    (∀ (i : Fin 64) (c : Fin 4),
      ((s.cell i c).current ≠ (s.cell i c).target → (s.cell i c).count = 7 → (s.cell i c).undo = none →
        ∃ t, exec (.trimRampStep i c) s = .next t ∧ t = { s with comp := t.comp } ∧
          t.cell i c = { s.cell i c with
            current := if (s.cell i c).current < (s.cell i c).target then (s.cell i c).current + 1 else (s.cell i c).current - 1,
            count := 0, undo := some (s.cell i c).current } ∧
          (∀ e, e ≠ c → t.cell i e = s.cell i e) ∧ ∀ j, j < 64 → j ≠ i.val → t.inputComp j = s.inputComp j) ∧
      ((s.cell i c).current = (s.cell i c).target ∨ (s.cell i c).count < 7 ∨ (s.cell i c).undo ≠ none →
        exec (.trimRampStep i c) s = .next s)) ∧
    (∀ r : LevelRef,
      (∀ goal, (s.level r).target = some goal → (s.level r).on = true → (s.level r).current ≠ goal → (s.level r).count = 7 →
        (s.level r).undo = none →
        ∃ t, exec (.levelRampStep r) s = .next t ∧
          t = { s with mixes := t.mixes, outputs := t.outputs } ∧
          t.level r = { s.level r with
            current := if (s.level r).current < goal then (s.level r).current + 1 else (s.level r).current - 1, count := 0,
            undo := some (s.level r).current } ∧
          ∀ q, q ≠ r → t.level q = s.level q) ∧
      ((s.level r).target = none → (s.level r).on = true → -180 < (s.level r).current → (s.level r).count = 7 →
        (s.level r).undo = none →
        ∃ t, exec (.levelRampStep r) s = .next t ∧ t = { s with mixes := t.mixes, outputs := t.outputs } ∧
          t.level r = { s.level r with
            on := decide ((s.level r).current ≠ -179), current := (s.level r).current - 1, count := 0,
            undo := some (s.level r).current } ∧
          ∀ q, q ≠ r → t.level q = s.level q) ∧
      ((s.level r).on = false ∨ (s.level r).current = (s.level r).target.getD (-180) ∨ (s.level r).count < 7 ∨
          (s.level r).undo ≠ none →
        exec (.levelRampStep r) s = .next s)) ∧
    (∀ m : Fin 24,
      let goal := (s.mix m).rampAll.wantedDuck (s.hasTalker .tb1) (s.hasTalker .tb2)
      (goal < (s.mix m).duck → (s.mix m).release = 31 → (s.mix m).duckUndo = none →
        exec (.duckReleaseStep m) s = .next { s with
          mixes := modNth s.mixes m fun x =>
            { x with duckTarget := goal, duck := x.duck - 1, release := 0, duckUndo := some x.duck } }) ∧
      ((s.mix m).duck ≤ goal ∨ (s.mix m).release < 31 ∨ (s.mix m).duckUndo ≠ none →
        exec (.duckReleaseStep m) s = .next s))

/-- CROSSFADE_END and REVERT_HOLD_EXPIRY, and the events of a source that leaves or returns, as an output answers them. -/
def Obligations.OutputSelectionEvents : Prop :=
  (∀ (o : Fin 32) (s : State), s.powered = true →
    exec (.crossfadeEnd o) s = .next { s with outputs := modNth s.outputs o fun r =>
      if r.selection = .toFallback ∧ r.primaryShare = 0 ∧ r.fallbackShare = 240 then { r with selection := .fallback }
      else if r.selection = .toPrimary ∧ r.primaryShare = 240 ∧ r.fallbackShare = 0 then { r with selection := .primary }
      else r } ∧
    exec (.revertHoldExpiry o) s = .next { s with outputs := modNth s.outputs o fun r =>
      match r.hold with
      | some h => if h.limit ≤ h.count then { r with hold := none, selection := .toPrimary } else r
      | none => r }) ∧
  ∀ (r : Output),
    (∀ f, r.selection = .primary ∨ r.selection = .toPrimary →
      r.primaryLost f = { r with selection := if f then .toFallback else .noneAvailable }) ∧
    (∀ f, r.selection = .toFallback ∨ r.selection = .fallback → r.primaryLost f = { r with hold := none }) ∧
    (∀ f, r.selection = .noneAvailable → r.primaryLost f = r) ∧
    (∀ ms, r.selection = .toFallback ∨ r.selection = .fallback →
      r.primaryRegained ms = if ms = 0 then { r with selection := .toPrimary }
        else { r with hold := some { count := 0, limit := ms * 48 } }) ∧
    (∀ ms, r.selection = .noneAvailable → r.primaryRegained ms = { r with selection := .toPrimary }) ∧
    (∀ ms, r.selection = .primary ∨ r.selection = .toPrimary → r.primaryRegained ms = r) ∧
    (r.selection = .toFallback ∨ r.selection = .fallback →
      r.fallbackLost = if r.hold.isSome = true then { r with hold := none, selection := .toPrimary }
        else { r with selection := .noneAvailable }) ∧
    (r.selection ≠ .toFallback → r.selection ≠ .fallback → r.fallbackLost = r) ∧
    (r.selection = .noneAvailable → r.fallbackRegained = { r with selection := .toFallback }) ∧
    (r.selection ≠ .noneAvailable → r.fallbackRegained = r)

/-! ## The frame period and the meter -/

/-- FRAME_PERIOD, its counts and ramps: with `u` the state once what was due has been taken and the slots' samples stand, the frame
counter, the gates of channels and outputs, trims, levels, ducks, shares and every timer move by one frame, a returned card's gain
reaches the trims, an output's content changes when its gate is shut, the card line counts its slot, and every port sends one frame
whose header and lane bytes say what R15 and R21 give, by the slot the port is bound to at that FRAME_PERIOD (DESIGN CHOICE, log 49).
A ramp's step is the frame's own: one that a command took ahead of the frame is
taken back first and taken with it (the model's reading, log 3). What was due is taken by the events' own commands, one after another in
a fixed order, and nothing else is (DESIGN CHOICE, log 2); a slot that has taken no delivery goes on with its fade-out or stays in the
gap, and outside them keeps its samples (in a fade-in: DEDUCED, log 18). -/
def Obligations.FramePeriodCounts : Prop :=
  (∀ (lanes : List Sample) (stageTalk : Sample) (s : State), s.powered = true → s.Shaped →
    let u := s.takeDue.closeSlots
    ∃ t, exec (.framePeriod lanes stageTalk) s = .next t ∧ t.frameCounter = s.frameCounter + 1 ∧
      (∀ p, (t.sent.get p).number = s.frameCounter ∧ (t.sent.get p).unit = s.unitNumber ∧
        (u.boundTo p = none → (t.sent.get p).slot = 0 ∧ (t.sent.get p).ready = false ∧
          (t.sent.get p).admission = (if u.started = true then .notAdmitted else .unitStarting) ∧
          (t.sent.get p).inputs = List.replicate 64 0 ∧ (t.sent.get p).talk1 = 0 ∧ (t.sent.get p).talk2 = 0 ∧
          (t.sent.get p).lane = [0#8, 0#8, 0#8, 0#8, 0#8, 0#8, 0#8, 0#8]) ∧
        ∀ d, u.boundTo p = some d → (t.sent.get p).slot = d.number ∧
          (t.sent.get p).ready = decide ((u.lane d).answers.length < 32) ∧
          (t.sent.get p).admission = (if u.started = true then .admitted else .unitStarting) ∧
          (t.sent.get p).lane = ((u.lane d).frame (decide ((u.slot d).state = .active))).2 ∧
          ∀ q, u.boundTo q = some d → t.sent.get q = t.sent.get p) ∧
      (∀ d, t.lane d = ((u.lane d).frame (decide ((u.slot d).state = .active))).1) ∧
      (∀ p, t.port p = { u.port p with
        lightFrames := if (u.port p).lightFrames < 48 then (u.port p).lightFrames + 1 else 48,
        lossAge := if (u.port p).lossAge < 4294967295 then (u.port p).lossAge + 1 else 4294967295,
        skip := false, frameSeen := false }) ∧
      (let counted := fun (n : Nat) (x : Option Nat) => x.map fun k => if k < n then k + 1 else k
       ∀ i, i < 64 → t.channel i = { u.channel i with
         gate :=
           let goal := if (u.channel i).gateOpen = true then 64 else 0
           if (u.channel i).gate < goal then (u.channel i).gate + 1
           else if goal < (u.channel i).gate then (u.channel i).gate - 1 else (u.channel i).gate,
         markerTimer := counted 960 (u.channel i).markerTimer, holdTimer := counted 12000 (u.channel i).holdTimer,
         retryTimer := counted 48000 (u.channel i).retryTimer, handOver := false }) ∧
      t.line = (if u.line.slotFrame + 1 < 48 then { u.line with slotFrame := u.line.slotFrame + 1 }
        else { u.line with
          slotNumber := u.line.slotNumber + 1, slotFrame := 0, slotTaken := false,
          polled := u.line.polled || decide (u.line.slotNumber % 10 = 0 ∧ 8 ≤ u.line.pollsBegun) }) ∧
      (∀ i : Fin 64, (t.inputComp i).stageGain =
        if (u.channel i).handOver = true then (u.channel i).applied.effective else (u.inputComp i).stageGain) ∧
      (∀ (i : Fin 64) (c : Fin 4),
        let e := (u.channel i).applied.effective
        let clamp := fun v : Int => if v < -36 then -36 else if 36 < v then 36 else v
        let y := (u.cell i c).settled
        let x := match y.eref with
          | none => y
          | some r =>
            let goal := clamp (2 * (r - e))
            let moved := if y.current = y.target then goal else clamp (y.current + (goal - y.target))
            if (u.channel i).handOver = true ∧ (u.inputComp i).stageGain ≠ e ∧ y.on = true then
              { y with
                target := goal, current := moved, count := if moved = goal then 0 else y.count,
                limited := decide (2 * (r - e) < -36 ∨ 36 < 2 * (r - e)) }
            else y
        t.cell i c =
          if x.current = x.target then { x with count := 0 }
          else if x.count + 1 < 8 then { x with count := x.count + 1 }
          else { x with current := if x.current < x.target then x.current + 1 else x.current - 1, count := 0 }) ∧
      (∀ r : LevelRef,
        let l := (u.level r).settled
        let goal := l.target.getD (-180)
        let moved := if l.current < goal then l.current + 1 else l.current - 1
        t.level r =
          if l.on = false ∨ l.current = goal then { l with count := 0 }
          else if l.count + 1 < 8 then { l with count := l.count + 1 }
          else if l.target = none ∧ moved = -180 then { on := false, target := none, current := -180, count := 0 }
          else { l with current := moved, count := 0 }) ∧
      (∀ m : Fin 24,
        let x := (u.mix m).settleDuck
        let goal := (t.mix m).wantedDuck (u.hasTalker .tb1) (u.hasTalker .tb2)
        (t.mix m).duckTarget = goal ∧ (t.mix m).duckUndo = none ∧ (t.mix m).ceiling = (u.mix m).ceiling ∧
        (t.mix m).duck = (if x.duck < goal then x.duck + 1 else if goal < x.duck ∧ 32 ≤ x.release + 1 then x.duck - 1 else x.duck) ∧
        (t.mix m).release = (if goal < x.duck ∧ x.release + 1 < 32 then x.release + 1 else 0)) ∧
      (∀ o, o < 32 → (t.output o).selection = (u.output o).selection ∧
        (t.output o).primaryShare = stepNat (u.output o).selection.targets.1 (u.output o).primaryShare ∧
        (t.output o).fallbackShare = stepNat (u.output o).selection.targets.2 (u.output o).fallbackShare ∧
        (t.output o).hold = (u.output o).hold.map fun g => { g with count := if g.count < g.limit then g.count + 1 else g.count }) ∧
      (∀ o, o < 32 →
        let r := u.output o
        let q := t.output o
        let fits := decide (r.override = .mute ∨ r.toneContent = decide (r.override = .tone))
        let goal := if u.started = true ∧ r.override ≠ .mute ∧ fits = true then 64 else 0
        let gate := if r.gate < goal then r.gate + 1 else if goal < r.gate then r.gate - 1 else r.gate
        let changes := decide (gate = 0 ∧ fits = false)
        let tone := if changes = true then decide (r.override = .tone) else r.toneContent
        q.primary = r.primary ∧ q.fallback = r.fallback ∧ q.override = r.override ∧ q.gate = gate ∧ q.toneContent = tone ∧
        q.phase = (if tone = true then ((if changes = true then 0 else r.phase) + 1) % 48 else r.phase)) ∧
      (∀ d, t.slot d = { u.slot d with
        grace := (u.slot d).grace.map fun g => { g with count := if g.count < g.limit then g.count + 1 else g.count },
        produced := false, taken := false }) ∧
      (∀ b, t.bus b = { u.bus b with
        timer := (u.bus b).timer.map fun g => { g with count := if g.count < 12240000 then g.count + 1 else g.count } }) ∧
      t.meter.frames = u.meter.frames + 1 ∧ t.boundary.opened = decide (480 ≤ u.meter.frames + 1) ∧
      t.sendList = u.sendList ∧ t.cardQueue = u.cardQueue ∧ t.cards = u.cards ∧ t.waitList = u.waitList ∧
      t.domains = u.domains ∧ t.batches = u.batches ∧ t.overs = u.overs ∧ t.panelQueue = u.panelQueue ∧
      t.memory = u.memory ∧ t.config = u.config) ∧
  (∀ s : State, s.powered = true → s.Shaped → State.RunsTo dueCommands s s.takeDue ∧ (s.NothingDue → s.takeDue = s)) ∧
  (∀ s : State,
    let v := s.settleReturned
    s.closeSlots = { v with slots := s.closeSlots.slots } ∧
    ∀ d, let r := v.slot d
      let silent : Audio := { returns := List.replicate 16 0, talk := 0 }
      s.closeSlots.slot d =
        if r.produced = true then r
        else if r.state = .vacant then { r with samples := silent }
        else match r.conceal with
          | .none => r
          | .fadingOut => { r with
              step := r.step + 1, samples := r.origin.map fun x => (x * ((64 - (r.step + 1) : Nat) : Int)).tdiv 64 }
          | .silentGap => { r with samples := silent }
          | .fadingIn => r)

/-- FRAME_PERIOD, its audio: the gated samples, the views that the slots' frames carry, the talk buses, the mixes and the stage
outputs, each from the settings as the frame leaves them; the peaks of the 360 metered streams and the clip indications of the views,
the mixes and the outputs. -/
def Obligations.FramePeriodAudio : Prop :=
  ∀ (lanes : List Sample) (stageTalk : Sample) (s : State), s.powered = true → s.Shaped → lanes.length = 64 →
    let u := s.takeDue.closeSlots
    ∃ (t : State) (mixes : List Sample), exec (.framePeriod lanes stageTalk) s = .next t ∧
      (let gated := fun i : Nat =>
        if (u.card (i / 8)).present = true then (nth lanes i 0 * ((t.channel i).gate : Int)).tdiv 64 else 0
      let view := fun (i : Nat) (c : Fin 4) => saturate (applyLevel (t.cell i c).current (gated i))
      let talk := fun b : Bus => match (u.bus b).talker with
        | some .panel => stageTalk
        | some (.desk d) => (u.slot d).samples.talk
        | none => 0
      let level := fun (l : Level) (x : Sample) => if l.on = true then applyLevel l.current x else 0
      let source := fun code : Nat => match sourceOf code with
        | some .none => 0
        | some (.mix m) => nth mixes m 0
        | some (.input n) => view n 0
        | some (.ret d n) => nth (u.slot d).samples.returns n 0
        | some (.bus b) => talk b
        | none => 0
      let raised := fun (peak : Nat) (x : Sample) => if peak < x.natAbs then x.natAbs else peak
      let clipped := fun x : Int => decide (x < -8388608 ∨ 8388607 < x)
      let noPeaks : PerColumn Nat := { c0 := 0, c1 := 0, c2 := 0, c3 := 0 }
      let noClips : PerColumn Bool := { c0 := false, c1 := false, c2 := false, c3 := false }
      (∀ p d i, u.boundTo p = some d → i < 64 → nth (t.sent.get p).inputs i 0 = view i d.column) ∧
      (∀ (i : Nat) (c : Fin 4), i < 64 →
        (nth t.meter.viewPeaks i noPeaks).get c = raised ((nth u.meter.viewPeaks i noPeaks).get c) (view i c) ∧
        (nth t.meter.viewClips i noClips).get c =
          ((nth u.meter.viewClips i noClips).get c || clipped (applyLevel (t.cell i c).current (gated i)))) ∧
      (∀ d n, n < 16 → nth (t.meter.returnPeaks.get d) n 0 =
        raised (nth (u.meter.returnPeaks.get d) n 0) (nth (u.slot d).samples.returns n 0)) ∧
      (∀ p d, u.boundTo p = some d → (t.sent.get p).talk1 = talk .tb1 ∧ (t.sent.get p).talk2 = talk .tb2) ∧
      mixes.length = 24 ∧
      (∀ m, m < 24 →
        let program := sumInts ((List.range 64).map fun j => level ((t.mix m).xp j) (view j 0))
        let master := if (t.mix m).master.current - (t.mix m).duck < -180 then -180
          else (t.mix m).master.current - (t.mix m).duck
        let full := (if (t.mix m).master.on = true then applyLevel master program else 0) +
          (level ((t.mix m).xp 64) (talk .tb1) + level ((t.mix m).xp 65) (talk .tb2))
        nth mixes m 0 = saturate full ∧ (t.mix m).clip = ((u.mix m).clip || clipped full) ∧
        nth t.meter.mixPeaks m 0 = raised (nth u.meter.mixPeaks m 0) (nth mixes m 0)) ∧
      ∀ o, o < 32 →
        let r := t.output o
        let selected := (source r.primary * (r.primaryShare : Int) +
          source (r.fallback.getD 0) * (r.fallbackShare : Int)).tdiv 240
        let content := if r.toneContent = true then toneSample ((r.phase + 47) % 48) else level r.level selected
        nth t.stageOut o 0 = saturate ((content * (r.gate : Int)).tdiv 64) ∧
        r.clip = ((u.output o).clip || clipped ((content * (r.gate : Int)).tdiv 64)) ∧
        nth t.meter.outPeaks o 0 = raised (nth u.meter.outPeaks o 0) (nth t.stageOut o 0) ∧
        nth t.meter.outNone o true = decide (r.selection = .noneAvailable))

/-- METER_PERIOD_END, once at each boundary: the count goes up, the ACTIVE slots' reports are handed over from what the period
gathered, stream by stream by the code table, the panel's in place of one it has not read, the clips join every over set, and all peaks and clips
start again. DIGEST_CADENCE, once at every tenth period end: each ACTIVE desk slot gains a pending digest, field by field at its offset,
and its notices are cleared; the panel's digest takes the place of an unread one, or joins the queue if there is room. At any other time each changes nothing (log 1). What stands for the role of a VACANT slot and for the class of an absent waiting slot is a free
value (log 27); a withheld trespass record is sent as 0, FFh and 0 (DESIGN CHOICE, log 44). -/
def Obligations.MeterBoundaryEvents : Prop :=
  (∀ s : State, s.powered = true →
    (s.boundary.opened = false ∨ s.boundary.ended = true → exec .meterPeriodEnd s = .next s) ∧
    (s.boundary.opened = true → s.boundary.ended = false →
      ∃ t, exec .meterPeriodEnd s = .next t ∧ t.meter.periodCount = s.meter.periodCount + 1 ∧ t.meter.frames = 0 ∧
        t.boundary.ended = true ∧ t.boundary.digestDue = decide (9 ≤ s.meter.tenth) ∧
        t.meter.tenth = (if s.meter.tenth < 9 then s.meter.tenth + 1 else 0) ∧
        (∀ d, (s.slot d).state = .active →
          (t.lane d).tx.pendingMeter = some (s.meterBody (s.meter.periodCount + 1) (.desk d))) ∧
        (∀ d, (s.slot d).state ≠ .active → t.lane d = s.lane d) ∧
        (s.meter.panelOn = false → t.panelQueue = s.panelQueue) ∧
        (s.meter.panelOn = true → (∀ m, m ∈ s.panelQueue → m.isMeter = false) → s.panelReady = true →
          t.panelQueue = s.panelQueue ++ [.meter (s.meterBody (s.meter.periodCount + 1) .panel)]) ∧
        (s.meter.panelOn = true → (∀ m, m ∈ s.panelQueue → m.isMeter = false) → s.panelReady = false →
          t.panelQueue = s.panelQueue) ∧
        (∀ before after m, s.meter.panelOn = true → s.panelQueue = before ++ m :: after →
          (∀ x, x ∈ before → x.isMeter = false) → m.isMeter = true →
          t.panelQueue = before ++ .meter (s.meterBody (s.meter.periodCount + 1) .panel) :: after) ∧
        (∀ sl, t.overs.get sl = (s.overs.get sl).join
          { mixes := BitVec.ofNat 24 (bitsOf (s.mixes.map Mix.clip)), outs := BitVec.ofNat 32 (bitsOf (s.outputs.map Output.clip)) }) ∧
        (∀ m, m ∈ t.mixes → m.clip = false) ∧ (∀ o, o ∈ t.outputs → o.clip = false) ∧
        t.meter.viewPeaks = List.replicate 64 { c0 := 0, c1 := 0, c2 := 0, c3 := 0 } ∧
        t.meter.viewClips = List.replicate 64 { c0 := false, c1 := false, c2 := false, c3 := false } ∧
        t.meter.mixPeaks = List.replicate 24 0 ∧ t.meter.outPeaks = List.replicate 32 0 ∧
        (∀ d, t.meter.returnPeaks.get d = List.replicate 16 0) ∧
        t.slots = s.slots ∧ t.ports = s.ports ∧ t.channels = s.channels ∧ t.comp = s.comp ∧ t.domains = s.domains ∧
        t.buses = s.buses ∧ t.batches = s.batches ∧ t.memory = s.memory)) ∧
  (∀ (s : State) (count : Word) (sl : SlotId), s.Shaped →
    let body := s.meterBody count sl
    let code := fun offset n : Nat => nth body offset 0 = BitVec.ofNat 8 n
    let column : Fin 4 := match sl with | .panel => 0 | .desk d => d.column
    let noPeaks : PerColumn Nat := { c0 := 0, c1 := 0, c2 := 0, c3 := 0 }
    let noClips : PerColumn Bool := { c0 := false, c1 := false, c2 := false, c3 := false }
    body.length = 170 ∧ nth body 0 0 = BitVec.ofNat 8 (count.toNat / 256) ∧ nth body 1 0 = BitVec.ofNat 8 count.toNat ∧
    (∀ i, i < 64 → code (2 + i) (
      if (s.channel i).link = .absent then 241
      else if (nth s.meter.viewClips i noClips).get column = true then 240
      else if (s.channel i).link = .fault then 243
      else levelCode ((nth s.meter.viewPeaks i noPeaks).get column))) ∧
    (∀ m, m < 24 → code (66 + m) (if (s.mix m).clip = true then 240 else levelCode (nth s.meter.mixPeaks m 0))) ∧
    (∀ o, o < 32 → code (90 + o) (
      if nth s.meter.outNone o true = true then 241 else if (s.output o).clip = true then 240
      else levelCode (nth s.meter.outPeaks o 0))) ∧
    ∀ d n, n < 16 → code (106 + 16 * d.number + n) (
      if (s.slot d).state = .vacant then 241 else if (s.slot d).state = .silent then 242
      else levelCode (nth (s.meter.returnPeaks.get d) n 0))) ∧
  (∀ s : State, s.powered = true →
    (s.boundary.digestDue = false → exec .digestCadence s = .next s) ∧
    (s.boundary.digestDue = true →
      ∃ t, exec .digestCadence s = .next t ∧ t.boundary.digestDue = false ∧
        (∀ d, (s.slot d).state = .active →
          (∃ k, (t.lane d).tx.pendingDigest = some (State.digestBody (.desk d) { s with free := k })) ∧
          (t.lane d).dropped = false ∧ ∀ b, (t.bus b).notices.get (.desk d) = false) ∧
        (∀ b, (t.bus b).notices.get .panel = false) ∧
        (let mine := PanelMsg.digest (s.digestBody .panel)
         ((∀ m, m ∈ s.panelQueue → m.isDigest = false) →
           t.panelQueue = if s.panelReady = true then s.panelQueue ++ [mine] else s.panelQueue) ∧
         ∀ before after m, s.panelQueue = before ++ m :: after → (∀ x, x ∈ before → x.isDigest = false) → m.isDigest = true →
           t.panelQueue = before ++ mine :: after) ∧
        (∀ d, (s.slot d).state ≠ .active → t.lane d = s.lane d) ∧
        t.slots = s.slots ∧ t.ports = s.ports ∧ t.channels = s.channels ∧ t.comp = s.comp ∧ t.mixes = s.mixes ∧
        t.outputs = s.outputs ∧ t.domains = s.domains ∧ t.batches = s.batches ∧ t.memory = s.memory)) ∧
  (∀ (s : State) (sl : SlotId), s.Shaped →
    let body := s.digestBody sl
    let byte := fun offset n : Nat => nth body offset 0 = BitVec.ofNat 8 n
    let pair := fun offset n : Nat => byte offset (n / 256) ∧ byte (offset + 1) n
    let four := fun offset n : Nat => pair offset (n / 65536) ∧ pair (offset + 2) n
    let flag := fun b : Bool => if b = true then 1 else 0
    let port := fun p : Option LinkPort => match p with | some x => x.code | none => 255
    let slot := fun x : Option SlotId => match x with | some y => y.number | none => 255
    body.length = 204 ∧ pair 0 s.meter.periodCount.toNat ∧ byte 2 sl.number ∧
    byte 3 (flag (match sl with | .panel => false | .desk d => (s.lane d).dropped)) ∧ pair 4 s.config.status.toNat ∧
    (∀ c, c < 8 → (nth body 6 0).getLsbD c = (s.card c).present) ∧ byte 7 (flag s.allGood) ∧
    (∀ p : LinkPort, let at' := 8 + 5 * p.code
      byte at' (match (s.port p).state with | .dark => 0 | .seeking => 1 | .locked => 2 | .errored => 3) ∧
      byte (at' + 1) (s.port p).lightCode ∧ byte (at' + 2) (flag (s.port p).lowLight) ∧
      pair (at' + 3) (s.port p).lastWindowCount) ∧
    (∀ d : Desk, let at' := 11 + 17 * d.number
      let r := s.slot d
      byte at' (match r.state with | .vacant => 0 | .active => 1 | .silent => 2) ∧
      pair (at' + 1) ((r.ident.getD 0).toNat / 4294967296) ∧ four (at' + 3) (r.ident.getD 0).toNat ∧
      (∀ role, r.role = some role → byte (at' + 7) (match role with | .front => 0 | .monitor => 1 | .general => 2)) ∧
      byte (at' + 8) (port r.bound[0]?) ∧ byte (at' + 9) (port r.bound[1]?) ∧ byte (at' + 10) (port r.active) ∧
      byte (at' + 11) (match r.conceal with | .none => 0 | .fadingOut => 1 | .silentGap => 2 | .fadingIn => 3) ∧
      pair (at' + 12) r.switchovers ∧ byte (at' + 14) r.talkClass ∧
      pair (at' + 15) (match r.grace with
        | some g => if r.state = .silent then (g.limit - g.count) / 48 else 0
        | none => 0)) ∧
    byte 79 s.panelClass ∧ (∀ k, k < 4 → byte (80 + k) (port s.waitList[k]?)) ∧
    (∀ n, n < 16 → let x := s.domain n
      byte (84 + 4 * n) (slot x.owner) ∧
      (x.owner = some sl → byte (85 + 4 * n) (flag x.trespass) ∧ byte (86 + 4 * n) (slot x.trespasser) ∧
        byte (87 + 4 * n) x.count) ∧
      (x.owner ≠ some sl → byte (85 + 4 * n) 0 ∧ byte (86 + 4 * n) 255 ∧ byte (87 + 4 * n) 0)) ∧
    byte 148 (match (s.batch sl).state with | .none => 0 | .opened => 1 | .sealed => 2) ∧
    pair 149 (s.batch sl).staged.length ∧ pair 151 (s.batch sl).dropped ∧
    (∀ b : Bus, let at' := match b with | .tb1 => 153 | .tb2 => 167
      let r := s.bus b
      byte at' (slot r.talker) ∧ (∀ k, k < 3 → byte (at' + 1 + k) (slot r.waiting[k]?) ∧
        ∀ x, r.waiting[k]? = some x → byte (at' + 4 + k) (s.talkClassOf x)) ∧
      four (at' + 7) (match r.timer with
        | some g => if g.limit = 0 then 4294967295 else (g.limit - g.count) / 48
        | none => 4294967295) ∧
      byte (at' + 11) (if r.talker = some sl then 1 else if sl ∈ r.waiting then 2 else 0) ∧
      (∀ k, (∀ j, j < k → r.waiting[j]? ≠ some sl) → r.waiting[k]? = some sl → byte (at' + 12) (k + 1)) ∧
      (sl ∉ r.waiting → byte (at' + 12) 0) ∧ byte (at' + 13) (flag (r.notices.get sl))) ∧
    byte 181 ((s.overs.get sl).mixes.toNat / 65536) ∧ pair 182 (s.overs.get sl).mixes.toNat ∧
    four 184 (s.overs.get sl).outs.toNat ∧
    ∀ i, i < 64 →
      (∀ d, sl = .desk d → (nth body (195 - i / 8) 0).getLsbD (i % 8) = (s.cell i d.column).limited) ∧
      (sl = .panel → nth body (195 - i / 8) 0 = 0#8) ∧ (nth body (203 - i / 8) 0).getLsbD (i % 8) = (s.cell i 0).limited)

/-! ## Requests -/

/-- The checks every request passes before its own rule, in order: a VACANT slot's is nothing (log 21), one that finds no room is not
acted upon and sets a desk slot's flag (the panel's is not taken, log 21), one before start-up is NOT_READY, a panel's own request from
a desk slot is NOT_PERMITTED, and a body that does not fit is BAD_VALUE. An answer joins the end of its slot's queue and changes nothing
else. -/
def Obligations.RequestChecks : Prop :=
  (∀ (c : Instr) (sl : SlotId) (tag : Byte) (r : Request) (s : State), c.request = some (sl, tag, r) → s.powered = true →
    s.NoneReturned →
    (∀ d, sl = .desk d → (s.slot d).state = .vacant → exec c s = .next s) ∧
    (s.NoRoom sl → exec c s = .next (match sl with
      | .panel => s
      | .desk d => s.modLane d fun l => { l with dropped := true })) ∧
    (s.HasRoom sl →
      (s.started = false → exec c s = .next (s.answer sl tag r.kind .notReady .none)) ∧
      (s.started = true → r.panelOnly = true → sl ≠ .panel → exec c s = .next (s.answer sl tag r.kind .notPermitted .none)) ∧
      (s.started = true → (∃ k, r = .badBody k) →
        exec c s = .next (s.answer sl tag r.kind .badValue .none)))) ∧
  (∀ (tag kind : Byte) (r : Result) (data : AnswerData) (s : State),
    s.answer .panel tag kind r data = { s with
      panelQueue := s.panelQueue ++ [.answer { tag := tag, kind := kind, result := r, data := data, complete := true }] } ∧
    ∀ d, s.answer (.desk d) tag kind r data = s.modLane d fun l => { l with
      answers := l.answers ++ [{ tag := tag, kind := kind, result := r, data := data, complete := true }] })

/-- GET reads what the owning block holds, index by index of the map, and DESCRIBE, an unknown kind, an unknown or read-only index and a
range that cannot be read are answered as the rules say (a count out of range before a missing index: DEDUCED, log 22); none changes
anything but the answer queue. A current trim reads as its record stands between two frames (DESIGN CHOICE, log 47). -/
def Obligations.ReadsAnswer : Prop :=
  ∀ (sl : SlotId) (tag : Byte) (s : State), s.Accepts sl →
    let reads := fun (index : Nat) (v : Int) =>
      exec (.get sl tag (BitVec.ofNat 16 index) 1#8) s = .next (s.answer sl tag 0x10#8 .done (.values [v]))
    let flag := fun b : Bool => if b = true then (1 : Int) else 0
    let off := fun t : Option Int => t.getD (-181)
    (∀ i, i < 64 → reads i (s.channel i).desired.gain ∧ reads (64 + i) (flag (s.channel i).desired.pad) ∧
      reads (128 + i) (flag (s.channel i).desired.phantom) ∧ reads (256 + i) (flag (s.cell i 0).on) ∧
      reads (384 + i) ((s.cell i 0).eref.getD (-32768)) ∧ reads (512 + i) (s.cell i 0).current ∧
      reads (576 + i) (s.channel i).applied.gain ∧
      reads (640 + i) ((s.channel i).link.code + 4 * (s.channel i).op.code + if (s.channel i).latch = true then 32 else 0) ∧
      ∀ d, sl = .desk d → reads (192 + i) (flag (s.cell i d.column).on) ∧
        reads (320 + i) ((s.cell i d.column).eref.getD (-32768)) ∧ reads (448 + i) (s.cell i d.column).current) ∧
    (∀ j m, j < 66 → m < 24 → reads (1024 + 24 * j + m) (off ((s.mix m).xp j).target)) ∧
    (∀ m, m < 24 → reads (2700 + m) (off (s.mix m).master.target) ∧ reads (2730 + m) (s.mix m).ceiling) ∧
    (∀ o, o < 32 → reads (2800 + o) (s.output o).primary ∧ reads (2840 + o) (((s.output o).fallback.getD 0 : Nat) : Int) ∧
      reads (2880 + o) (off (s.output o).level.target) ∧ reads (2920 + o) (s.output o).override.code) ∧
    (∀ x : SlotId, reads (3000 + x.number) (s.talkClassOf x)) ∧ reads 3010 s.talkLimit ∧
    reads 3011 ((s.graceTime / 50 : Nat) : Int) ∧ reads 3012 ((s.revertTime / 100 : Nat) : Int) ∧
    (∀ (first : Word) (n : Byte), n = 0#8 ∨ 64 < n.toNat →
      exec (.get sl tag first n) s = .next (s.answer sl tag 0x10#8 .badValue .none)) ∧
    (∀ (first : Word) (n : Byte) (k : Nat), 1 ≤ n.toNat → n.toNat ≤ 64 → k < n.toNat → paramOf (first.toNat + k) = none →
      exec (.get sl tag first n) s = .next (s.answer sl tag 0x10#8 .noSuch .none)) ∧
    (∀ (first : Word) (n : Byte), sl = .panel → 1 ≤ n.toNat → 192 ≤ first.toNat → first.toNat + n.toNat ≤ 256 →
      exec (.get sl tag first n) s = .next (s.answer sl tag 0x10#8 .notPermitted .none)) ∧
    (∀ (first : Word) (n : Byte), first.toNat + n.toNat ≤ 64 → 1 ≤ n.toNat →
      exec (.get sl tag first n) s = .next (s.answer sl tag 0x10#8 .done
        (.values ((List.range n.toNat).map fun k => (s.channel (first.toNat + k)).desired.gain)))) ∧
    exec (.describe sl tag) s = .next (s.answer sl tag 0x40#8 .done
      (.description s.unitNumber.toNat sl.number s.config.unitName)) ∧
    (∀ kind, exec (.unknownKind sl tag kind) s = .next (s.answer sl tag kind .noSuch .none)) ∧
    (∀ (index v : Word) (e : Byte), e.toNat ≤ 1 → paramOf index.toNat = none →
      exec (.writeOtherIndex sl tag index v e) s = .next (s.answer sl tag 0x11#8 .noSuch .none)) ∧
    (∀ (index v : Word) (e : Byte), e.toNat ≤ 1 →
      (320 ≤ index.toNat ∧ index.toNat < 704) → exec (.writeOtherIndex sl tag index v e) s =
        .next (s.answer sl tag 0x11#8 .notPermitted .none)) ∧
    (∀ (index v : Word) (e : Byte), 1 < e.toNat →
      exec (.writeOtherIndex sl tag index v e) s = .next (s.answer sl tag 0x11#8 .badValue .none))

/-- SETs of desired settings and of compensation modes: what changes in the channel or the cell, and the answer. The own-column mode
has no domain, and a SILENT slot's write of it is NOT_AVAILABLE all the same (DEDUCED, log 23); a cell's step taken ahead of the frame is taken back first
(the model's reading, log 3). -/
def Obligations.InputWrites : Prop :=
  ∀ (sl : SlotId) (tag e : Byte) (i : Fin 64) (v : Word) (s : State), s.Accepts sl → s.Unstaged sl → e.toNat ≤ 1 → s.Shaped →
    (s.MayWrite sl (i.val / 8) →
      let wrote := fun (f : Setting → Setting) (u : State) =>
        if f (s.channel i).desired = (s.channel i).desired then u
        else if (s.channel i).link = .ready ∧ (s.channel i).op = .idle ∧ f (s.channel i).desired ≠ (s.channel i).applied then
          { u with
            channels := modNth u.channels i fun c => { c with desired := f c.desired, op := .queued },
            cardQueue := s.cardQueue ++ [i] }
        else { u with channels := modNth u.channels i fun c => { c with desired := f c.desired } }
      let unlatched := { s with channels := modNth s.channels i fun c => { c with latch := false } }
      (let g := if v.toInt < 0 then 0 else if 60 < v.toInt then 60 else v.toInt
       exec (.writeDesiredSetting sl tag (BitVec.ofNat 16 i) v e) s = .next ((wrote (fun x => { x with gain := g }) s).answer sl tag
         0x11#8 (if 0 ≤ v.toInt ∧ v.toInt ≤ 60 then .done else .clamped) (echoOf e g))) ∧
      (v = 0 ∨ v = 1 →
        exec (.writeDesiredSetting sl tag (BitVec.ofNat 16 (64 + i)) v e) s =
          .next ((wrote (fun x => { x with pad := decide (v = 1) }) s).answer sl tag 0x11#8 .done (echoOf e v.toInt)) ∧
        exec (.writeDesiredSetting sl tag (BitVec.ofNat 16 (128 + i)) v e) s =
          .next ((wrote (fun x => { x with phantom := decide (v = 1) }) (if v = 1 then unlatched else s)).answer sl tag 0x11#8
            .done (echoOf e v.toInt)))) ∧
    (v ≠ 0 → v ≠ 1 →
      exec (.writeDesiredSetting sl tag (BitVec.ofNat 16 (64 + i)) v e) s = .next (s.answer sl tag 0x11#8 .badValue .none) ∧
      exec (.writeDesiredSetting sl tag (BitVec.ofNat 16 (128 + i)) v e) s = .next (s.answer sl tag 0x11#8 .badValue .none) ∧
      exec (.writeColumnMode sl tag (BitVec.ofNat 16 (256 + i)) v e) s = .next (s.answer sl tag 0x11#8 .badValue .none)) ∧
    (v = 0 ∨ v = 1 →
      let moded := fun col : Fin 4 => s.modCell i col fun gain c =>
        if c.on = decide (v = 1) then c
        else { c.settled with on := decide (v = 1), eref := if v = 1 then some gain else none, target := 0, limited := false,
                              count := if c.settled.current = 0 then 0 else c.settled.count }
      (s.MayWrite sl 15 →
        exec (.writeColumnMode sl tag (BitVec.ofNat 16 (256 + i)) v e) s =
          .next ((moded 0).answer sl tag 0x11#8 .done (echoOf e v.toInt))) ∧
      ∀ d, sl = .desk d →
        ((s.slot d).state = .active →
          exec (.writeColumnMode sl tag (BitVec.ofNat 16 (192 + i)) v e) s =
            .next ((moded d.column).answer sl tag 0x11#8 .done (echoOf e v.toInt))) ∧
        ((s.slot d).state = .silent →
          exec (.writeColumnMode sl tag (BitVec.ofNat 16 (192 + i)) v e) s =
            .next (s.answer sl tag 0x11#8 .notAvailable .none))) ∧
    (sl = .panel →
      exec (.writeColumnMode sl tag (BitVec.ofNat 16 (192 + i)) v e) s = .next (s.answer sl tag 0x11#8 .notPermitted .none))

/-- SETs of crosspoints, masters and ceilings: −181 and below is off, +20 the top; an OFF level enters at −180 and rises, an ON one
ramps to its new target or out. A step the level took ahead of the frame is taken back first (the model's reading, log 3). -/
def Obligations.MixWrites : Prop :=
  ∀ (sl : SlotId) (tag e : Byte) (v : Word) (m : Fin 24) (s : State), s.Accepts sl → s.Unstaged sl → e.toNat ≤ 1 → s.Shaped →
    s.MayWrite sl (8 + m.val / 4) →
    let stored := if v.toInt ≤ -181 then -181 else if 20 < v.toInt then 20 else v.toInt
    let result : Result := if 20 < v.toInt then .clamped else .done
    let written := fun x : Level =>
      let l := x.settled
      if stored = -181 then
        if l.on = true then (if l.current = -180 then { on := false, target := none, current := -180, count := 0 }
          else { l with target := none })
        else l
      else if l.on = true then { l with target := some stored, count := if stored = l.current then 0 else l.count }
      else { on := true, target := some stored, current := -180, count := 0 }
    (∀ j : Fin 66,
      exec (.writeCrosspoint sl tag (BitVec.ofNat 16 (1024 + 24 * j.val + m.val)) v e) s =
        .next ({ s with mixes := modNth s.mixes m fun x => { x with xps := modNth x.xps j written } }.answer sl tag 0x11#8 result
          (echoOf e (match (written ((s.mix m).xp j)).target with | some t => t | none => -181)))) ∧
    exec (.writeCrosspoint sl tag (BitVec.ofNat 16 (2700 + m.val)) v e) s =
      .next ({ s with mixes := modNth s.mixes m fun x => { x with master := written x.master } }.answer sl tag 0x11#8 result
        (echoOf e (match (written (s.mix m).master).target with | some t => t | none => -181))) ∧
    (let ceiling := if v.toInt < -180 then -180 else if 0 < v.toInt then 0 else v.toInt
     exec (.writeDuckCeiling sl tag (BitVec.ofNat 16 (2730 + m.val)) v e) s =
      .next ({ s with mixes := modNth s.mixes m fun x => { x with ceiling := ceiling } }.answer sl tag 0x11#8
        (if -180 ≤ v.toInt ∧ v.toInt ≤ 0 then .done else .clamped) (echoOf e ceiling)))

/-- SETs of the patch: a source code of the table that leaves no refused pair replaces the one held and the output selects afresh; a
level ramps like a crosspoint; an override is written, and the frames that follow act on it (FramePeriodCounts). -/
def Obligations.OutputWrites : Prop :=
  ∀ (sl : SlotId) (tag e : Byte) (v : Word) (o : Fin 32) (s : State), s.Accepts sl → s.Unstaged sl → e.toNat ≤ 1 → s.Shaped →
    s.MayWrite sl 14 →
    (∀ code : Nat, v = BitVec.ofNat 16 code → code < 32768 →
      (sourceOf code = none →
        exec (.writeOutputSource sl tag (BitVec.ofNat 16 (2800 + o.val)) v e) s = .next (s.answer sl tag 0x11#8 .badValue .none) ∧
        exec (.writeOutputSource sl tag (BitVec.ofNat 16 (2840 + o.val)) v e) s = .next (s.answer sl tag 0x11#8 .badValue .none)) ∧
      (sourceOf code ≠ none → pairRefused code ((s.output o).fallback.getD 0) = false →
        let r := { s.output o with primary := code }
        exec (.writeOutputSource sl tag (BitVec.ofNat 16 (2800 + o.val)) v e) s =
          .next ({ s with outputs := modNth s.outputs o fun x => if x.primary = code then x else
            { r with hold := none, selection :=
              if s.available code = true then (if r.primaryShare = 240 ∧ r.fallbackShare = 0 then .primary else .toPrimary)
              else if s.fallbackAvailable r = true then
                (if r.primaryShare = 0 ∧ r.fallbackShare = 240 then .fallback else .toFallback)
              else .noneAvailable } }.answer sl tag 0x11#8 .done (echoOf e code))) ∧
      (sourceOf code ≠ none → pairRefused (s.output o).primary code = false →
        let second := if code = 0 then none else some code
        let r := { s.output o with fallback := second }
        exec (.writeOutputSource sl tag (BitVec.ofNat 16 (2840 + o.val)) v e) s =
          .next ({ s with outputs := modNth s.outputs o fun x => if x.fallback = second then x else
            { r with hold := none, selection :=
              if s.available r.primary = true then (if r.primaryShare = 240 ∧ r.fallbackShare = 0 then .primary else .toPrimary)
              else if s.fallbackAvailable r = true then
                (if r.primaryShare = 0 ∧ r.fallbackShare = 240 then .fallback else .toFallback)
              else .noneAvailable } }.answer sl tag 0x11#8 .done
                (echoOf e code))) ∧
      (sourceOf code ≠ none → pairRefused code ((s.output o).fallback.getD 0) = true →
        exec (.writeOutputSource sl tag (BitVec.ofNat 16 (2800 + o.val)) v e) s =
          .next (s.answer sl tag 0x11#8 .badValue .none)) ∧
      (sourceOf code ≠ none → pairRefused (s.output o).primary code = true →
        exec (.writeOutputSource sl tag (BitVec.ofNat 16 (2840 + o.val)) v e) s =
          .next (s.answer sl tag 0x11#8 .badValue .none))) ∧
    (v.toInt < 0 →
      exec (.writeOutputSource sl tag (BitVec.ofNat 16 (2800 + o.val)) v e) s = .next (s.answer sl tag 0x11#8 .badValue .none) ∧
      exec (.writeOutputSource sl tag (BitVec.ofNat 16 (2840 + o.val)) v e) s = .next (s.answer sl tag 0x11#8 .badValue .none)) ∧
    exec (.writeOutputLevel sl tag (BitVec.ofNat 16 (2880 + o.val)) v e) s =
      .next ({ s with outputs := modNth s.outputs o fun x => { x with
          level := x.level.write (if v.toInt ≤ -181 then none else if 20 < v.toInt then some 20 else some v.toInt) } }.answer
        sl tag 0x11#8 (if 20 < v.toInt then .clamped else .done)
        (echoOf e (match ((s.output o).level.write
            (if v.toInt ≤ -181 then none else if 20 < v.toInt then some 20 else some v.toInt)).target with
          | some t => t
          | none => -181))) ∧
    (∀ ov : Override, v = BitVec.ofInt 16 ov.code →
      exec (.writeOverride sl tag (BitVec.ofNat 16 (2920 + o.val)) v e) s =
        .next ({ s with outputs := modNth s.outputs o fun x => { x with override := ov } }.answer sl tag 0x11#8 .done
          (echoOf e v.toInt))) ∧
    (v.toInt < 0 ∨ 2 < v.toInt →
      exec (.writeOverride sl tag (BitVec.ofNat 16 (2920 + o.val)) v e) s = .next (s.answer sl tag 0x11#8 .badValue .none))

/-- SETs of the stage settings: talk classes with the re-ordering they bring, the talk limit, the grace time and the revert hold
time. -/
def Obligations.StageWrites : Prop :=
  ∀ (sl : SlotId) (tag e : Byte) (v : Word) (s : State), s.Accepts sl → s.Unstaged sl → e.toNat ≤ 1 → s.Shaped →
    s.MayWrite sl 14 →
    (∀ x : SlotId, 0 ≤ v.toInt → v.toInt ≤ 3 → s.slotState x ≠ .vacant → s.TalkLawful →
      ∃ u : State, exec (.writeTalkClass sl tag (BitVec.ofNat 16 (3000 + x.number)) v e) s =
          .next (u.answer sl tag 0x11#8 .done (echoOf e v.toInt)) ∧
        u.talkClassOf x = v.toInt.toNat ∧ (∀ y, y ≠ x → u.talkClassOf y = s.talkClassOf y) ∧
        (∀ b, (u.bus b).talker = (s.bus b).talker ∧ (u.bus b).timer = (s.bus b).timer ∧
          (u.bus b).waiting.Perm (s.bus b).waiting ∧
          (u.bus b).waiting.Pairwise (fun y z => u.talkClassOf z ≤ u.talkClassOf y) ∧
          (u.bus b).waiting.filter (· ≠ x) = (s.bus b).waiting.filter (· ≠ x)) ∧
        u = { s with slots := u.slots, panelClass := u.panelClass, buses := u.buses }) ∧
    (∀ d, (s.slot d).state = .vacant → 0 ≤ v.toInt → v.toInt ≤ 3 →
      exec (.writeTalkClass sl tag (BitVec.ofNat 16 (3000 + d.number)) v e) s =
        .next (s.answer sl tag 0x11#8 .notAvailable .none)) ∧
    (∀ x : SlotId, v.toInt < 0 ∨ 3 < v.toInt →
      exec (.writeTalkClass sl tag (BitVec.ofNat 16 (3000 + x.number)) v e) s = .next (s.answer sl tag 0x11#8 .badValue .none)) ∧
    (0 ≤ v.toInt → v.toInt ≤ 255 →
      exec (.writeTalkLimit sl tag 3010#16 v e) s =
        .next ({ s with talkLimit := v.toInt.toNat }.answer sl tag 0x11#8 .done (echoOf e v.toInt))) ∧
    (v.toInt < 0 ∨ 255 < v.toInt →
      exec (.writeTalkLimit sl tag 3010#16 v e) s = .next (s.answer sl tag 0x11#8 .badValue .none)) ∧
    (5 ≤ v.toInt → v.toInt ≤ 200 →
      exec (.writeGraceTime sl tag 3011#16 v e) s =
        .next ({ s with graceTime := 50 * v.toInt.toNat }.answer sl tag 0x11#8 .done (echoOf e v.toInt))) ∧
    (v.toInt < 5 ∨ 200 < v.toInt →
      exec (.writeGraceTime sl tag 3011#16 v e) s = .next (s.answer sl tag 0x11#8 .badValue .none)) ∧
    (0 ≤ v.toInt → v.toInt ≤ 300 →
      exec (.writeRevertHoldTime sl tag 3012#16 v e) s =
        .next ({ s with revertTime := 100 * v.toInt.toNat }.answer sl tag 0x11#8 .done (echoOf e v.toInt))) ∧
    (v.toInt < 0 ∨ 300 < v.toInt →
      exec (.writeRevertHoldTime sl tag 3012#16 v e) s = .next (s.answer sl tag 0x11#8 .badValue .none))

/-- A SET of a domain's parameter that fails the rights test changes nothing but the domain's trespass record: NOT_OWNER while the owner
is ACTIVE, OWNER_SILENT while it is SILENT; and a SILENT requester is NOT_AVAILABLE, which is no trespass. -/
def Obligations.TrespassIsRecorded : Prop :=
  ∀ (c : Instr) (sl : SlotId) (tag : Byte) (index echo dom : Nat) (v : Int) (p : Param) (s : State),
    c.request = some (sl, tag, .set index v echo) → s.Accepts sl → s.Shaped → echo ≤ 1 → paramOf index = some p →
    p.domain = some dom → p.valueOk v = true →
    (s.slotState sl = .silent → exec c s = .next (s.answer sl tag 0x11#8 .notAvailable .none)) ∧
    (s.slotState sl = .active → ∀ o, (s.domain dom).owner = some o → o ≠ sl →
      exec c s = .next ((s.modDomain dom fun x => { x with
          trespass := true, trespasser := some sl, count := if x.count < 255 then x.count + 1 else 255 }).answer sl tag 0x11#8
        (if s.slotState o = .active then .notOwner else .ownerSilent) .none))

/-- With a batch OPEN a SET or a SET-WINDOW of either form is staged and not applied: its values as they will be written, in their order,
an own-column mode with no domain, QUEUED or CLAMPED; or FULL when the list has no room, and then nothing of it is staged. -/
def Obligations.WritesAreStaged : Prop :=
  (∀ (c : Instr) (sl : SlotId) (tag echo : Byte) (index : Nat) (v : Int) (p : Param) (s : State),
    c.request = some (sl, tag, .set index v echo.toNat) → s.Accepts sl → s.Shaped → echo.toNat ≤ 1 → paramOf index = some p →
    writeBarred sl p = false → p.valueOk v = true → s.slotState sl = .active →
    (∀ dom, p.domain = some dom → s.MayWrite sl dom) → (s.batch sl).state = .opened →
    ((s.batch sl).staged.length < 256 →
      exec c s = .next ((s.setBatch sl { s.batch sl with
          staged := (s.batch sl).staged ++ [{ index := index, value := p.stored v, domain := p.domain }] }).answer sl tag 0x11#8
        (if p.stored v = v ∨ (p.stored v = -181 ∧ v < -181) then .queued else .clamped) (echoOf echo (p.stored v)))) ∧
    (256 ≤ (s.batch sl).staged.length → exec c s = .next (s.answer sl tag 0x11#8 .full .none))) ∧
  (∀ (sl : SlotId) (tag e : Byte) (vs : List Word) (s : State), s.Accepts sl → s.Shaped → e.toNat ≤ 1 →
    s.slotState sl = .active → (s.batch sl).state = .opened →
    let fits := (s.batch sl).staged.length + vs.length ≤ 256
    let staged := fun es : List Staged => s.setBatch sl { s.batch sl with staged := (s.batch sl).staged ++ es }
    let echo := fun es : List Staged => if e = 1#8 then AnswerData.values (es.map Staged.value) else .none
    (∀ s1 s2 m1 m2 : Byte, 1 ≤ s1.toNat → s1.toNat ≤ s2.toNat → s2.toNat ≤ 66 → 1 ≤ m1.toNat → m1.toNat ≤ m2.toNat →
      m2.toNat ≤ 24 → (s2.toNat - s1.toNat + 1) * (m2.toNat - m1.toNat + 1) ≤ 64 →
      vs.length = (s2.toNat - s1.toNat + 1) * (m2.toNat - m1.toNat + 1) →
      (∀ m, m1.toNat - 1 ≤ m → m < m2.toNat → s.MayWrite sl (8 + m / 4)) →
      (¬fits → exec (.setWindowMatrix sl tag s1 s2 m1 m2 e vs) s = .next (s.answer sl tag 0x12#8 .full .none)) ∧
      (fits → ∃ es : List Staged, es.length = vs.length ∧
        (∀ j m, s1.toNat - 1 ≤ j → j < s2.toNat → m1.toNat - 1 ≤ m → m < m2.toNat →
          let k := (j - (s1.toNat - 1)) * (m2.toNat - m1.toNat + 1) + (m - (m1.toNat - 1))
          es[k]? = some { index := 1024 + 24 * j + m, value := levelStored (nth vs k 0).toInt, domain := some (8 + m / 4) }) ∧
        exec (.setWindowMatrix sl tag s1 s2 m1 m2 e vs) s = .next ((staged es).answer sl tag 0x12#8
          (if vs.any (fun v => decide (20 < v.toInt)) then .clamped else .queued) (echo es)))) ∧
    ∀ (first : Word) (items : List Item), 1 ≤ vs.length → vs.length ≤ 64 →
      itemsFrom first.toNat (vs.map BitVec.toInt) = some items → (∀ x, x ∈ items → writeBarred sl x.param = false) →
      (∀ x, x ∈ items → x.param.valueOk x.value = true) →
      (∀ x, x ∈ items → ∀ dom, x.param.domain = some dom → s.MayWrite sl dom) →
      let es := items.map fun x : Item => ({ index := x.index, value := x.param.stored x.value, domain := x.param.domain } : Staged)
      (¬fits → exec (.setWindowRun sl tag first e vs) s = .next (s.answer sl tag 0x12#8 .full .none)) ∧
      (fits → exec (.setWindowRun sl tag first e vs) s = .next ((staged es).answer sl tag 0x12#8
        (if items.any (fun x => x.param.clamps x.value) then .clamped else .queued) (echo es))))

/-- SET-WINDOW: an accepted matrix window writes each crosspoint of the window and no other, and echoes the targets as they then stand;
a run writes its parameters one after another or none at all. A window that fails its checks is BAD_VALUE. Either form is refused whole
when a domain of it is another's, each such domain's trespass record marked, with the code of the lowest-numbered, and when the
requester is SILENT, with NOT_AVAILABLE. A run with an index that does not exist is NO_SUCH, else one with a barred index NOT_PERMITTED,
else one with a value that is refused BAD_VALUE (between these and the count of its values: DEDUCED, log 22). A run that writes the
class of a VACANT slot is refused whole (DEDUCED, log 24). -/
def Obligations.WindowWrites : Prop :=
  ∀ (sl : SlotId) (tag s1 s2 m1 m2 e : Byte) (vs : List Word) (s : State), s.Accepts sl → s.Unstaged sl → e.toNat ≤ 1 → s.Shaped →
    (1 ≤ s1.toNat → s1.toNat ≤ s2.toNat → s2.toNat ≤ 66 → 1 ≤ m1.toNat → m1.toNat ≤ m2.toNat → m2.toNat ≤ 24 →
      (s2.toNat - s1.toNat + 1) * (m2.toNat - m1.toNat + 1) ≤ 64 →
      vs.length = (s2.toNat - s1.toNat + 1) * (m2.toNat - m1.toNat + 1) →
      ((∀ m, m1.toNat - 1 ≤ m → m < m2.toNat → s.MayWrite sl (8 + m / 4)) →
        ∃ (u : State) (data : AnswerData), exec (.setWindowMatrix sl tag s1 s2 m1 m2 e vs) s =
            .next (u.answer sl tag 0x12#8 (if vs.any (fun v => decide (20 < v.toInt)) then .clamped else .done) data) ∧
          u = { s with mixes := u.mixes } ∧ (e = 0#8 → data = .none) ∧
          (e = 1#8 → ∃ values : List Int, data = .values values ∧ values.length = vs.length ∧
            ∀ j m, s1.toNat - 1 ≤ j → j < s2.toNat → m1.toNat - 1 ≤ m → m < m2.toNat →
              nth values ((j - (s1.toNat - 1)) * (m2.toNat - m1.toNat + 1) + (m - (m1.toNat - 1))) 0 =
                match ((u.mix m).xp j).target with | some g => g | none => -181) ∧
          ∀ j m, j < 66 → m < 24 → (u.mix m).xp j =
            if s1.toNat - 1 ≤ j ∧ j < s2.toNat ∧ m1.toNat - 1 ≤ m ∧ m < m2.toNat then
              ((s.mix m).xp j).write (targetOf (levelStored
                (nth vs ((j - (s1.toNat - 1)) * (m2.toNat - m1.toNat + 1) + (m - (m1.toNat - 1))) 0).toInt))
            else (s.mix m).xp j) ∧
      (s.slotState sl = .silent →
        exec (.setWindowMatrix sl tag s1 s2 m1 m2 e vs) s = .next (s.answer sl tag 0x12#8 .notAvailable .none)) ∧
      (∀ dom o, 8 + (m1.toNat - 1) / 4 ≤ dom → dom ≤ 8 + (m2.toNat - 1) / 4 → s.slotState sl = .active →
        (s.domain dom).owner = some o → o ≠ sl →
        (∀ x, 8 + (m1.toNat - 1) / 4 ≤ x → x < dom → s.MayWrite sl x) →
        ∃ u : State, exec (.setWindowMatrix sl tag s1 s2 m1 m2 e vs) s = .next (u.answer sl tag 0x12#8
            (if s.slotState o = .active then .notOwner else .ownerSilent) .none) ∧
          u = { s with domains := u.domains } ∧
          ∀ x, x < 16 → u.domain x =
            if 8 + (m1.toNat - 1) / 4 ≤ x ∧ x ≤ 8 + (m2.toNat - 1) / 4 ∧ (s.domain x).owner ≠ none ∧
                (s.domain x).owner ≠ some sl then
              { s.domain x with
                trespass := true, trespasser := some sl,
                count := if (s.domain x).count < 255 then (s.domain x).count + 1 else 255 }
            else s.domain x)) ∧
    (s1.toNat < 1 ∨ 66 < s2.toNat ∨ m1.toNat < 1 ∨ 24 < m2.toNat ∨ s2.toNat < s1.toNat ∨ m2.toNat < m1.toNat ∨
        64 < (s2.toNat - s1.toNat + 1) * (m2.toNat - m1.toNat + 1) ∨
        vs.length ≠ (s2.toNat - s1.toNat + 1) * (m2.toNat - m1.toNat + 1) →
      exec (.setWindowMatrix sl tag s1 s2 m1 m2 e vs) s = .next (s.answer sl tag 0x12#8 .badValue .none)) ∧
    (∀ (first : Word) (items : List Item), 1 ≤ vs.length → vs.length ≤ 64 →
      itemsFrom first.toNat (vs.map BitVec.toInt) = some items → (∀ x, x ∈ items → writeBarred sl x.param = false) →
      (∀ x, x ∈ items → x.param.valueOk x.value = true) →
      (s.slotState sl = .silent →
        exec (.setWindowRun sl tag first e vs) s = .next (s.answer sl tag 0x12#8 .notAvailable .none)) ∧
      (s.slotState sl = .active → (∀ x, x ∈ items → ∀ dom, x.param.domain = some dom → s.MayWrite sl dom) →
        let w := s.writeItems sl items
        (w.2 = none →
          exec (.setWindowRun sl tag first e vs) s = .next (w.1.answer sl tag 0x12#8
            (if items.any (fun x => x.param.clamps x.value) then .clamped else .done)
            (if e = 1#8 then .values (items.map fun x => w.1.readParam sl x.param) else .none))) ∧
        (∀ r, w.2 = some r → exec (.setWindowRun sl tag first e vs) s = .next (s.answer sl tag 0x12#8 r .none))) ∧
      (∀ dom o, s.slotState sl = .active → (∃ x, x ∈ items ∧ x.param.domain = some dom) → (s.domain dom).owner = some o →
        o ≠ sl → (∀ x low, x ∈ items → x.param.domain = some low → low < dom → s.MayWrite sl low) →
        ∃ u : State, exec (.setWindowRun sl tag first e vs) s = .next (u.answer sl tag 0x12#8
            (if s.slotState o = .active then .notOwner else .ownerSilent) .none) ∧
          u = { s with domains := u.domains } ∧
          ∀ n, n < 16 → u.domain n =
            if items.any (fun x => decide (x.param.domain = some n)) = true ∧ (s.domain n).owner ≠ none ∧
                (s.domain n).owner ≠ some sl then
              { s.domain n with
                trespass := true, trespasser := some sl,
                count := if (s.domain n).count < 255 then (s.domain n).count + 1 else 255 }
            else s.domain n)) ∧
    (∀ first : Word, vs.length < 1 ∨ 64 < vs.length →
      exec (.setWindowRun sl tag first e vs) s = .next (s.answer sl tag 0x12#8 .badValue .none)) ∧
    (∀ first : Word, 1 ≤ vs.length → vs.length ≤ 64 →
      let there := ∀ k, k < vs.length → paramOf (first.toNat + k) ≠ none
      let allowed := ∀ k p, k < vs.length → paramOf (first.toNat + k) = some p → writeBarred sl p = false
      (¬there → exec (.setWindowRun sl tag first e vs) s = .next (s.answer sl tag 0x12#8 .noSuch .none)) ∧
      (there → ¬allowed → exec (.setWindowRun sl tag first e vs) s = .next (s.answer sl tag 0x12#8 .notPermitted .none)) ∧
      (there → allowed →
        (∃ k p, k < vs.length ∧ paramOf (first.toNat + k) = some p ∧ p.valueOk (nth vs k 0).toInt = false) →
        exec (.setWindowRun sl tag first e vs) s = .next (s.answer sl tag 0x12#8 .badValue .none)))

/-- CLAIM, by the first row of R156 that applies; RELEASE, FORCE-RELEASE from the panel, and CLEAR-TRESPASS: a domain and its trespass
record. -/
def Obligations.ClaimRequests : Prop :=
  (∀ (sl : SlotId) (tag d : Byte) (s : State), s.Accepts sl →
    (16 ≤ d.toNat → exec (.claim sl tag d) s = .next (s.answer sl tag 0x20#8 .badValue .none)) ∧
    (d.toNat < 16 → s.slotState sl ≠ .active → exec (.claim sl tag d) s = .next (s.answer sl tag 0x20#8 .notAvailable .none)) ∧
    (d.toNat < 16 → s.slotState sl = .active → (s.domain d.toNat).owner = some sl →
      exec (.claim sl tag d) s = .next (s.answer sl tag 0x20#8 .granted .none)) ∧
    (d.toNat < 16 → s.slotState sl = .active → (s.domain d.toNat).owner = none →
      exec (.claim sl tag d) s = .next ({ s with domains := modNth s.domains d.toNat fun _ =>
        { owner := some sl, trespass := false, trespasser := none, count := 0 } }.answer sl tag 0x20#8 .granted .none)) ∧
    (∀ o, d.toNat < 16 → s.slotState sl = .active → (s.domain d.toNat).owner = some o → o ≠ sl →
      exec (.claim sl tag d) s = .next (s.answer sl tag 0x20#8 .claimedByOther .none))) ∧
  (∀ (sl : SlotId) (tag d : Byte) (s : State), s.Accepts sl →
    (16 ≤ d.toNat →
      exec (.release sl tag d) s = .next (s.answer sl tag 0x21#8 .badValue .none) ∧
      exec (.clearTrespass sl tag d) s = .next (s.answer sl tag 0x23#8 .badValue .none) ∧
      (sl = .panel → exec (.forceRelease sl tag d) s = .next (s.answer sl tag 0x22#8 .badValue .none))) ∧
    (d.toNat < 16 → (s.domain d.toNat).owner = some sl →
      exec (.release sl tag d) s = .next ({ s with domains := modNth s.domains d.toNat fun _ =>
        { owner := none, trespass := false, trespasser := none, count := 0 } }.answer sl tag 0x21#8 .done .none) ∧
      exec (.clearTrespass sl tag d) s = .next ({ s with domains := modNth s.domains d.toNat fun x =>
        { x with trespass := false, count := 0 } }.answer sl tag 0x23#8 .done .none)) ∧
    (d.toNat < 16 → (s.domain d.toNat).owner ≠ some sl →
      exec (.release sl tag d) s = .next (s.answer sl tag 0x21#8 .notOwner .none) ∧
      exec (.clearTrespass sl tag d) s = .next (s.answer sl tag 0x23#8 .notOwner .none)) ∧
    (d.toNat < 16 → sl = .panel →
      let cleared := fun b : Batch => { b with
        staged := b.staged.filter fun x => decide (x.domain ≠ some d.toNat),
        dropped := if b.dropped + (b.staged.filter fun x => decide (x.domain = some d.toNat)).length ≤ 65535 then
          b.dropped + (b.staged.filter fun x => decide (x.domain = some d.toNat)).length else 65535 }
      let freed := modNth s.domains d.toNat fun _ => { owner := none, trespass := false, trespasser := none, count := 0 }
      let batches : PerSlot Batch := { panel := s.batches.panel, desks := {
        d1 := cleared s.batches.desks.d1, d2 := cleared s.batches.desks.d2, d3 := cleared s.batches.desks.d3 } }
      exec (.forceRelease sl tag d) s =
        .next ({ s with domains := freed, batches := batches }.answer sl tag 0x22#8 .done .none)))

/-- BATCH-OPEN, BATCH-APPLY and BATCH-DROP, by the batch state: an OPEN batch is sealed by its apply, whose answer takes its place in the
queue, uncompleted; an apply answered at once carries no counts (DESIGN CHOICE, log 45). -/
def Obligations.BatchRequests : Prop :=
  (∀ (sl : SlotId) (tag : Byte) (s : State), s.Accepts sl →
    (s.slotState sl ≠ .active → exec (.batchOpen sl tag) s = .next (s.answer sl tag 0x28#8 .notAvailable .none)) ∧
    (s.slotState sl = .active → (s.batch sl).state ≠ .none →
      exec (.batchOpen sl tag) s = .next (s.answer sl tag 0x28#8 .busy .none)) ∧
    (s.slotState sl = .active → (s.batch sl).state = .none →
      exec (.batchOpen sl tag) s =
        .next ((s.setBatch sl { state := .opened, staged := [], dropped := 0 }).answer sl tag 0x28#8 .done .none))) ∧
  (∀ (sl : SlotId) (tag : Byte) (s : State), s.Accepts sl →
    ((s.batch sl).state = .none → exec (.batchApply sl tag) s = .next (s.answer sl tag 0x29#8 .notAvailable .none)) ∧
    ((s.batch sl).state = .sealed → exec (.batchApply sl tag) s = .next (s.answer sl tag 0x29#8 .busy .none)) ∧
    ((s.batch sl).state = .opened →
      exec (.batchApply sl tag) s = .next ((s.setBatch sl { s.batch sl with state := .sealed }).pushAnswer sl
        { tag := tag, kind := 0x29#8, result := .done, data := .none, complete := false }))) ∧
  (∀ (sl : SlotId) (tag : Byte) (s : State), s.Accepts sl →
    ((s.batch sl).state = .none → exec (.batchDrop sl tag) s = .next (s.answer sl tag 0x2A#8 .notAvailable .none)) ∧
    ((s.batch sl).state = .opened → exec (.batchDrop sl tag) s =
      .next ((s.setBatch sl { state := .none, staged := [], dropped := 0 }).answer sl tag 0x2A#8 .done .none)) ∧
    ((s.batch sl).state = .sealed → exec (.batchDrop sl tag) s = .next (s.answer sl tag 0x2A#8 .tooLate .none)))

/-- BATCH_EFFECT, at the boundary: the entries of a SEALED batch in staging order, each tested for rights again and then written or
dropped; its answer is completed DONE with the two counts, and the batch is NONE; at any other time nothing changes (log 1). From the
first batch effect of a boundary on, a batch sealed later waits for the next (between two slots' effects: DESIGN CHOICE, log 51). Of
the entries for one crosspoint, master or ceiling that pass the rights test the last alone has any effect, and the others count as
applied; entries for any other parameter are written one after another, each by its own write rule (both DEDUCED, log 42). -/
def Obligations.BatchTakesEffect : Prop :=
  (∀ (sl : SlotId) (s : State), s.powered = true →
    (s.boundary.opened = false ∨ (s.batch sl).state ≠ .sealed ∨ s.boundary.effects.get sl = true →
      exec (.batchEffect sl) s = .next s) ∧
    (s.boundary.opened = true → (s.batch sl).state = .sealed → s.boundary.effects.get sl = false →
      let r := s.applyStaged sl (s.batch sl).staged
      let dropped := if (s.batch sl).dropped + r.2.2 ≤ 65535 then (s.batch sl).dropped + r.2.2 else 65535
      r.2.1 + r.2.2 = (s.batch sl).staged.length ∧
      ∃ t, exec (.batchEffect sl) s = .next t ∧ t.batch sl = { state := .none, staged := [], dropped := 0 } ∧
        (∀ x, t.boundary.effects.get x = (s.boundary.effects.get x || decide (x = sl ∨ (s.batch x).state ≠ .sealed))) ∧
        t.channels = r.1.channels ∧ t.comp = r.1.comp ∧ t.mixes = r.1.mixes ∧
        t.outputs = r.1.outputs ∧ t.slots = r.1.slots ∧ t.buses = r.1.buses ∧ t.domains = s.domains ∧ t.ports = s.ports ∧
        t.memory = s.memory ∧
        ∀ (before after : List Answer) (a : Answer),
          (∀ x, x ∈ before → x.complete = true) → a.complete = false →
          (∀ d, sl = .desk d → (s.lane d).answers = before ++ a :: after →
            (t.lane d).answers =
              before ++ { a with result := .done, data := .counts r.2.1 dropped, complete := true } :: after) ∧
          (sl = .panel → s.panelQueue = before.map PanelMsg.answer ++ .answer a :: after.map PanelMsg.answer →
            t.panelQueue = before.map PanelMsg.answer ++
              .answer { a with result := .done, data := .counts r.2.1 dropped, complete := true } ::
                after.map PanelMsg.answer))) ∧
  ∀ (sl : SlotId) (e : Staged) (es : List Staged) (s : State) (p : Param), paramOf e.index = some p →
    let allowed := fun x : Staged => ∀ dom, x.domain = some dom → s.MayWrite sl dom
    let replaced := ((∃ j m, p = .crosspoint j m) ∨ (∃ m, p = .master m) ∨ ∃ m, p = .ceiling m) ∧
      ∃ x, x ∈ es ∧ x.index = e.index ∧ allowed x
    s.applyStaged sl [] = (s, 0, 0) ∧
    (¬allowed e →
      s.applyStaged sl (e :: es) = ((s.applyStaged sl es).1, (s.applyStaged sl es).2.1, (s.applyStaged sl es).2.2 + 1)) ∧
    (allowed e → replaced →
      s.applyStaged sl (e :: es) = ((s.applyStaged sl es).1, (s.applyStaged sl es).2.1 + 1, (s.applyStaged sl es).2.2)) ∧
    (allowed e → ¬replaced → (s.writeParam sl p e.value).2 = none →
      s.applyStaged sl (e :: es) =
        let u := (s.writeParam sl p e.value).1
        ((u.applyStaged sl es).1, (u.applyStaged sl es).2.1 + 1, (u.applyStaged sl es).2.2))

/-- TALK-PRESS against the bus it names, by the first row that applies, with BAD_VALUE for another bus, from any slot (DEDUCED, log 22);
TALK-RELEASE and TALK_TIMEOUT: the bus is handed on to the head of its list, and a slot that lost it to its limit has its notice set (a
timer with no limit, or one still running, is left alone, log 1). -/
def Obligations.TalkRequests : Prop :=
  (∀ (sl : SlotId) (tag : Byte) (b : Bus) (s : State), s.Accepts sl →
    let code := match b with | .tb1 => 1#8 | .tb2 => 2#8
    let granted := fun (waiting : List SlotId) => s.modBus b fun r => { r with
      talker := some sl, waiting := waiting, timer := some { count := 0, limit := s.talkLimit * 48000 } }
    (s.slotState sl = .active →
      ((s.bus b).talker = some sl → exec (.talkPress sl tag code) s = .next (s.answer sl tag 0x30#8 .granted .none)) ∧
      ((s.bus b).talker ≠ some sl → sl ∈ (s.bus b).waiting →
        exec (.talkPress sl tag code) s = .next (s.answer sl tag 0x30#8 .queued .none)) ∧
      ((s.bus b).talker = none → sl ∉ (s.bus b).waiting →
        exec (.talkPress sl tag code) s = .next ((granted (s.bus b).waiting).answer sl tag 0x30#8 .granted .none)) ∧
      (∀ x, (s.bus b).talker = some x → x ≠ sl → sl ∉ (s.bus b).waiting → s.talkClassOf x < s.talkClassOf sl →
        ∃ higher lower, (s.bus b).waiting = higher ++ lower ∧ (∀ y, y ∈ higher → s.talkClassOf x < s.talkClassOf y) ∧
          (∀ y, lower.head? = some y → s.talkClassOf y ≤ s.talkClassOf x) ∧
          exec (.talkPress sl tag code) s = .next ((granted (higher ++ x :: lower)).answer sl tag 0x30#8 .granted .none)) ∧
      (∀ x, (s.bus b).talker = some x → x ≠ sl → sl ∉ (s.bus b).waiting → s.talkClassOf sl ≤ s.talkClassOf x →
        ∃ before after, (s.bus b).waiting = before ++ after ∧ (∀ y, y ∈ before → s.talkClassOf sl ≤ s.talkClassOf y) ∧
          (∀ y, after.head? = some y → s.talkClassOf y < s.talkClassOf sl) ∧
          exec (.talkPress sl tag code) s =
            .next ((s.modBus b fun r => { r with waiting := before ++ sl :: after }).answer sl tag 0x30#8 .queued .none))) ∧
    (s.slotState sl ≠ .active → exec (.talkPress sl tag code) s = .next (s.answer sl tag 0x30#8 .notAvailable .none)) ∧
    (∀ n : Byte, n ≠ 1#8 → n ≠ 2#8 → exec (.talkPress sl tag n) s = .next (s.answer sl tag 0x30#8 .badValue .none))) ∧
  (∀ (b : Bus) (s : State),
    let handed := fun r : BusRec => match r.waiting with
      | [] => { r with talker := none, timer := none }
      | x :: xs => { r with talker := some x, timer := some { count := 0, limit := s.talkLimit * 48000 }, waiting := xs }
    (∀ (sl : SlotId) (tag : Byte), s.Accepts sl →
      let code := match b with | .tb1 => 1#8 | .tb2 => 2#8
      ((s.bus b).talker = some sl →
        exec (.talkRelease sl tag code) s = .next ((s.modBus b handed).answer sl tag 0x31#8 .done .none)) ∧
      ((s.bus b).talker ≠ some sl → sl ∈ (s.bus b).waiting →
        exec (.talkRelease sl tag code) s = .next ((s.modBus b fun r => { r with
          waiting := r.waiting.filter (· ≠ sl) }).answer sl tag 0x31#8 .done .none)) ∧
      ((s.bus b).talker ≠ some sl → sl ∉ (s.bus b).waiting →
        exec (.talkRelease sl tag code) s = .next (s.answer sl tag 0x31#8 .tooLate .none)) ∧
      (∀ n : Byte, n ≠ 1#8 → n ≠ 2#8 → exec (.talkRelease sl tag n) s = .next (s.answer sl tag 0x31#8 .badValue .none))) ∧
    (s.powered = true →
      (∀ x g, (s.bus b).talker = some x → (s.bus b).timer = some g → g.limit ≠ 0 → g.limit ≤ g.count →
        exec (.talkTimeout b) s = .next (s.modBus b fun r => { handed r with notices := r.notices.set x true })) ∧
      ((∀ g, (s.bus b).timer = some g → g.limit = 0 ∨ g.count < g.limit) → exec (.talkTimeout b) s = .next s)))

/-- REBASE: in the requester's own column, or in the engine column with the right to domain 15, every ON cell of the inputs named takes
the stage gain as its reference and goes to a trim of 0; OFF cells and other inputs stand. A SILENT slot is NOT_AVAILABLE; without the
right the engine column is refused and domain 15 records the trespass. A cell's step taken ahead of the frame is taken back first (the
model's reading, log 3). -/
def Obligations.RebaseEffect : Prop :=
  ∀ (sl : SlotId) (tag first last column : Byte) (s : State), s.Accepts sl →
    (1 < column.toNat ∨ first.toNat < 1 ∨ 64 < last.toNat ∨ last.toNat < first.toNat →
      exec (.rebase sl tag first last column) s = .next (s.answer sl tag 0x38#8 .badValue .none)) ∧
    (column.toNat ≤ 1 → 1 ≤ first.toNat → first.toNat ≤ last.toNat → last.toNat ≤ 64 → s.slotState sl = .silent →
      exec (.rebase sl tag first last column) s = .next (s.answer sl tag 0x38#8 .notAvailable .none)) ∧
    (column.toNat ≤ 1 → 1 ≤ first.toNat → first.toNat ≤ last.toNat → last.toNat ≤ 64 → s.slotState sl = .active → s.Shaped →
      (column = 0#8 → sl = .panel → exec (.rebase sl tag first last column) s = .next (s.answer sl tag 0x38#8 .notPermitted .none)) ∧
      (∀ o, column = 1#8 → (s.domain 15).owner = some o → o ≠ sl →
        exec (.rebase sl tag first last column) s = .next ((s.modDomain 15 fun x => { x with
            trespass := true, trespasser := some sl, count := if x.count < 255 then x.count + 1 else 255 }).answer sl tag 0x38#8
          (if s.slotState o = .active then .notOwner else .ownerSilent) .none)) ∧
      ∀ col : Fin 4, (column = 0#8 ∧ ∃ d, sl = .desk d ∧ col = d.column) ∨ (column = 1#8 ∧ s.MayWrite sl 15 ∧ col = 0) →
        ∃ u : State, exec (.rebase sl tag first last column) s = .next (u.answer sl tag 0x38#8 .done .none) ∧
          u = { s with comp := u.comp } ∧ u.comp.length = 64 ∧
          ∀ i, i < 64 → (u.inputComp i).stageGain = (s.inputComp i).stageGain ∧
            (∀ c, c ≠ col → u.cell i c = s.cell i c) ∧
            u.cell i col =
              if first.toNat ≤ i + 1 ∧ i + 1 ≤ last.toNat ∧ (s.cell i col).on = true then
                { (s.cell i col).settled with
                  eref := some (s.inputComp i).stageGain, target := 0, limited := false,
                  count := if (s.cell i col).settled.current = 0 then 0 else (s.cell i col).settled.count }
              else s.cell i col)

/-- RECALL-SAFE: every mix of a group the requester may write is written with the safe copy, the others stand and no trespass is
recorded; with no such group it is NOT_OWNER. -/
def Obligations.RecallEffect : Prop :=
  ∀ (sl : SlotId) (tag : Byte) (s : State), s.Accepts sl → s.Shaped →
    (s.slotState sl ≠ .active → exec (.recallSafe sl tag) s = .next (s.answer sl tag 0x3B#8 .notAvailable .none)) ∧
    ((∃ dom, 8 ≤ dom ∧ dom ≤ 13 ∧ s.MayWrite sl dom) →
      ∃ u : State, exec (.recallSafe sl tag) s = .next (u.answer sl tag 0x3B#8 .done .none) ∧ u = { s with mixes := u.mixes } ∧
        ∀ m, m < 24 →
          (s.MayWrite sl (8 + m / 4) →
            (u.mix m).ceiling = (nth s.safe m SafeMix.default).ceiling ∧
            (u.mix m).master = (s.mix m).master.write (nth s.safe m SafeMix.default).master ∧
            ∀ j, j < 66 → (u.mix m).xp j = ((s.mix m).xp j).write (nth (nth s.safe m SafeMix.default).xps j none)) ∧
          (¬s.MayWrite sl (8 + m / 4) → u.mix m = s.mix m)) ∧
    (s.slotState sl = .active → (∀ dom, 8 ≤ dom → dom ≤ 13 → ¬s.MayWrite sl dom) →
      exec (.recallSafe sl tag) s = .next (s.answer sl tag 0x3B#8 .notOwner .none))

/-- CLEAR-OVERS empties the requester's over set and no other; METERS-ON and METERS-OFF from the panel set the panel's meter enable. -/
def Obligations.MeterRequests : Prop :=
  ∀ (sl : SlotId) (tag : Byte) (s : State), s.Accepts sl →
    (s.slotState sl = .active →
      exec (.clearOvers sl tag) s =
        .next ({ s with overs := s.overs.set sl { mixes := 0, outs := 0 } }.answer sl tag 0x39#8 .done .none)) ∧
    (s.slotState sl ≠ .active → exec (.clearOvers sl tag) s = .next (s.answer sl tag 0x39#8 .notAvailable .none)) ∧
    (sl = .panel →
      exec (.metersOn sl tag) s =
        .next ({ s with meter := { s.meter with panelOn := true } }.answer sl tag 0x4A#8 .done .none) ∧
      exec (.metersOff sl tag) s =
        .next ({ s with meter := { s.meter with panelOn := false } }.answer sl tag 0x4B#8 .done .none)) ∧
    (sl ≠ .panel →
      exec (.metersOn sl tag) s = .next (s.answer sl tag 0x4A#8 .notPermitted .none) ∧
      exec (.metersOff sl tag) s = .next (s.answer sl tag 0x4B#8 .notPermitted .none) ∧
      (∀ d, exec (.forceRelease sl tag d) s = .next (s.answer sl tag 0x22#8 .notPermitted .none)) ∧
      (∀ codes : List Byte, 1 ≤ codes.length → codes.length ≤ 8 →
        exec (.store sl tag codes) s = .next (s.answer sl tag 0x48#8 .notPermitted .none)) ∧
      exec (.restart sl tag) s = .next (s.answer sl tag 0x49#8 .notPermitted .none))

/-- The transactions of the panel port: the status byte, the head message taken or the empty message, a request written while there is
room, and nothing for an unknown code. -/
def Obligations.PanelTransactions : Prop :=
  ∀ s : State, s.powered = true →
    exec .statusRead s = .next { s with panelReturn := [s.statusByte] } ∧
    (s.panelReserved + s.panelQueue.length ≤ 32 →
      (s.statusByte.getLsbD 7 = decide (s.panelQueue.length + s.panelReserved < 32)) ∧ s.statusByte.getLsbD 6 = s.started ∧
      ((∀ m, m ∈ s.panelQueue → m.uncompleted = false) → (s.statusByte &&& 0x3F#8).toNat = s.panelQueue.length)) ∧
    (∀ m rest, s.panelQueue = m :: rest → m.uncompleted = false →
      exec .messageRead s = .next { s with panelQueue := rest, panelReturn := m.content }) ∧
    ((∀ m rest, s.panelQueue = m :: rest → m.uncompleted = true) →
      ∃ tag, exec .messageRead s = .next { s with panelReturn := messageContent 0#8 tag [], free := s.free + 1 }) ∧
    (∀ message, s.NoneReturned → s.panelReady = false ∨ messageParse message = none →
      exec (.requestWrite message) s = .next { s with panelReturn := [s.statusByte] }) ∧
    (∀ (kind tag : Byte) (body : List Byte), s.panelReady = true → body.length ≤ 1023 →
      exec (.requestWrite (messageContent kind tag body)) s =
        .next ({ (s.answerRequest .panel tag (requestParse kind body)) with panelReturn := [s.statusByte] }).settleReturned) ∧
    (∀ (tag d : Byte), s.NoneReturned → s.panelReady = true →
      ∃ t, exec (.claim .panel tag d) s = .next t ∧
        exec (.requestWrite (messageContent 0x20#8 tag [d])) s = .next { t with panelReturn := [s.statusByte] }) ∧
    ∀ code, exec (.unknownTransaction code) s = .next { s with panelReturn := [] }
end

