-- ==== Sys2Proof/Laws/Exec.lean ====
section
/-!
SUPPORT. What one step can do, said once: every command but FULL_RESET is one function on the state of a powered part, and a law that each of them keeps is kept by every step.
-/
namespace Sys2Proof

open Sys2Proof.Machine

/-- What a command does to the state of a powered part. -/
def Instr.effect (i : Instr) (s : State) : State :=
  match i with
  | .fullReset straps => s.fullReset straps
  | .lightMeasurement p reading => (s.lightMeasurement p reading).settleReturned
  | .validFrame p f windowFirst => (s.validFrame p f windowFirst).settleReturned
  | .crcFailedFrame p => (s.crcFailedFrame p).settleReturned
  | .missingFrame p windowFirst => (s.missingFrame p windowFirst).settleReturned
  | .errorWindowComplete p => (s.errorWindowComplete p).settleReturned
  | .fadeOutEnd d => State.fadeOutEnd d s
  | .fadeInEnd d => (s.fadeInEnd d).settleReturned
  | .graceExpiry d => State.graceExpiry d s
  | .framePeriod lanes stageTalk => State.framePeriod lanes stageTalk s
  | .trimRampStep input column => State.trimRampStep input column s
  | .levelRampStep level => State.levelRampStep level s
  | .duckReleaseStep mix => State.duckReleaseStep mix s
  | .crossfadeEnd o => s.modOutput o Output.crossfadeEnd
  | .gainChangeMarker input => State.marker input s
  | .settingSlot => State.settingSlot s
  | .settingAnswer card channel => State.settingAnswer card channel s
  | .settingNoAnswer => State.settingNoAnswer s
  | .markerTimeout input => State.markerTimeout input s
  | .holdEnd input => State.holdEnd input s
  | .retryTimerExpiry input => State.retryExpiry input s
  | .pollSlot => State.pollSlot s
  | .pollAnswer card overcurrent => State.pollAnswer card overcurrent s
  | .pollUnanswered => State.pollUnanswered s
  | .revertHoldExpiry o => s.modOutput o Output.holdExpiry
  | .talkTimeout b => s.modBus b (BusRec.timeout s.grantLimit)
  | .meterPeriodEnd => State.meterPeriodEnd s
  | .batchEffect slot => State.batchEffect slot s
  | .digestCadence => State.digestCadence s
  | .loadEnd silentFrom => State.loadEnd silentFrom s
  | .startupComplete => State.startupComplete s
  | .storeRecordChecked readBack => State.storeRecordChecked readBack s
  | .unknownKind slot tag kind => State.takeRequest slot tag (.unknown kind) s
  | .get slot tag first count => State.takeRequest slot tag (.get first.toNat count.toNat) s
  | .writeDesiredSetting slot tag index value echo => State.takeSet slot tag index value echo s
  | .writeColumnMode slot tag index value echo => State.takeSet slot tag index value echo s
  | .writeCrosspoint slot tag index value echo => State.takeSet slot tag index value echo s
  | .writeDuckCeiling slot tag index value echo => State.takeSet slot tag index value echo s
  | .writeOutputSource slot tag index value echo => State.takeSet slot tag index value echo s
  | .writeOutputLevel slot tag index value echo => State.takeSet slot tag index value echo s
  | .writeOverride slot tag index value echo => State.takeSet slot tag index value echo s
  | .writeTalkClass slot tag index value echo => State.takeSet slot tag index value echo s
  | .writeTalkLimit slot tag index value echo => State.takeSet slot tag index value echo s
  | .writeGraceTime slot tag index value echo => State.takeSet slot tag index value echo s
  | .writeRevertHoldTime slot tag index value echo => State.takeSet slot tag index value echo s
  | .writeOtherIndex slot tag index value echo => State.takeSet slot tag index value echo s
  | .setWindowMatrix slot tag firstSource lastSource firstMix lastMix echo values =>
    State.takeRequest slot tag (.windowMatrix firstSource.toNat lastSource.toNat firstMix.toNat lastMix.toNat echo.toNat (values.map BitVec.toInt)) s
  | .setWindowRun slot tag first echo values =>
    State.takeRequest slot tag (.windowRun first.toNat echo.toNat (values.map BitVec.toInt)) s
  | .claim slot tag domain => State.takeRequest slot tag (.claim domain.toNat) s
  | .release slot tag domain => State.takeRequest slot tag (.release domain.toNat) s
  | .forceRelease slot tag domain => State.takeRequest slot tag (.forceRelease domain.toNat) s
  | .clearTrespass slot tag domain => State.takeRequest slot tag (.clearTrespass domain.toNat) s
  | .batchOpen slot tag => State.takeRequest slot tag .batchOpen s
  | .batchApply slot tag => State.takeRequest slot tag .batchApply s
  | .batchDrop slot tag => State.takeRequest slot tag .batchDrop s
  | .talkPress slot tag bus => State.takeRequest slot tag (.talkPress bus.toNat) s
  | .talkRelease slot tag bus => State.takeRequest slot tag (.talkRelease bus.toNat) s
  | .rebase slot tag first last column => State.takeRequest slot tag (.rebase first.toNat last.toNat column.toNat) s
  | .clearOvers slot tag => State.takeRequest slot tag .clearOvers s
  | .pathPrefer slot tag port => (s.takeRequest slot tag (.pathPrefer port.toNat)).settleReturned
  | .recallSafe slot tag => State.takeRequest slot tag .recallSafe s
  | .describe slot tag => State.takeRequest slot tag .describe s
  | .store slot tag codes => State.takeRequest slot tag (parseStore codes) s
  | .restart slot tag => State.takeRequest slot tag .restart s
  | .metersOn slot tag => State.takeRequest slot tag .metersOn s
  | .metersOff slot tag => State.takeRequest slot tag .metersOff s
  | .statusRead => State.statusRead s
  | .requestWrite message => (s.requestWrite message).settleReturned
  | .messageRead => State.messageRead s
  | .unknownTransaction _code => { s with panelReturn := [] }
  | .powerLoss => State.powerLoss s

/-- FULL_RESET, the one command an unpowered part acts on. -/
def Instr.isFullReset : Instr → Bool
  | .fullReset _ => true
  | _ => false

end Sys2Proof

namespace Sys2Proof.Machine

/-- A command other than FULL_RESET acts on a powered part only. -/
theorem exec_live (i : Instr) (s : State) (hi : i.isFullReset = false) : exec i s = live i.effect s := by
  cases i
  case fullReset => cases hi
  all_goals rfl

/-- Every command is its effect, taken by a powered part; FULL_RESET is taken without power too. -/
theorem exec_eq (i : Instr) (s : State) :
    exec i s = if s.powered = true ∨ i.isFullReset = true then .next (i.effect s) else .next s := by
  cases hi : i.isFullReset with
  | true =>
    cases i
    case fullReset straps => simp; rfl
    all_goals cases hi
  | false =>
    rw [exec_live i s hi]
    cases h : s.powered with
    | true => simp [live, h]
    | false => simp [live, h]

/-- A law that no effect breaks, and that does not look at the queue of waiting commands, is kept by every step. -/
theorem step_keeps (P : State → Prop) (hq : ∀ s l, P s → P { s with pending := l }) (he : ∀ (i : Instr) s, P s → P (i.effect s))
    (s t : State) (hs : P s) (h : step s = .next t) : P t := by
  unfold step at h
  split at h
  · cases h; exact hs
  · rename_i c rest _
    rw [exec_eq] at h
    split at h
    · cases h; exact he c _ (hq s rest hs)
    · cases h; exact hq s rest hs

end Sys2Proof.Machine
end

