-- ==== Sys2Proof/Laws/State.lean ====
section
/-!
SUPPORT. What each update of the state does to each field, so that no later proof unfolds a record update; reading one of several after writing one.
-/
namespace Sys2Proof.Machine

/-! ## One of several -/

theorem PerPort.get_set {α : Type} (t : PerPort α) (p q : LinkPort) (x : α) :
    (t.set p x).get q = if q = p then x else t.get q := by cases p <;> cases q <;> rfl

theorem PerDesk.get_set {α : Type} (t : PerDesk α) (d e : Desk) (x : α) :
    (t.set d x).get e = if e = d then x else t.get e := by cases d <;> cases e <;> rfl

theorem PerBus.get_set {α : Type} (t : PerBus α) (b c : Bus) (x : α) :
    (t.set b x).get c = if c = b then x else t.get c := by cases b <;> cases c <;> rfl

theorem PerSlot.get_set {α : Type} (t : PerSlot α) (x y : SlotId) (v : α) :
    (t.set x v).get y = if y = x then v else t.get y := by
  cases x with
  | panel => cases y with
    | panel => rfl
    | desk e => rfl
  | desk d => cases y with
    | panel => rfl
    | desk e => cases d <;> cases e <;> rfl

theorem PerColumn.get_set {α : Type} (t : PerColumn α) (c e : Fin 4) (x : α) :
    (t.set c x).get e = if e = c then x else t.get e := by
  match c, e with
  | 0, 0 => rfl
  | 0, 1 => rfl
  | 0, 2 => rfl
  | 0, 3 => rfl
  | 1, 0 => rfl
  | 1, 1 => rfl
  | 1, 2 => rfl
  | 1, 3 => rfl
  | 2, 0 => rfl
  | 2, 1 => rfl
  | 2, 2 => rfl
  | 2, 3 => rfl
  | 3, 0 => rfl
  | 3, 1 => rfl
  | 3, 2 => rfl
  | 3, 3 => rfl

@[simp] theorem PerPort.get_map {α β : Type} (f : LinkPort → α → β) (t : PerPort α) (p : LinkPort) :
    (t.map f).get p = f p (t.get p) := by cases p <;> rfl

@[simp] theorem PerDesk.get_map {α β : Type} (f : Desk → α → β) (t : PerDesk α) (d : Desk) :
    (t.map f).get d = f d (t.get d) := by cases d <;> rfl

@[simp] theorem PerColumn.get_map {α β : Type} (f : Fin 4 → α → β) (t : PerColumn α) (c : Fin 4) :
    (t.map f).get c = f c (t.get c) := by
  match c with
  | 0 => rfl
  | 1 => rfl
  | 2 => rfl
  | 3 => rfl

@[simp] theorem PerPort.get_all {α : Type} (x : α) (p : LinkPort) : (PerPort.all x).get p = x := by cases p <;> rfl

@[simp] theorem PerDesk.get_all {α : Type} (x : α) (d : Desk) : (PerDesk.all x).get d = x := by cases d <;> rfl

@[simp] theorem PerSlot.get_all {α : Type} (x : α) (y : SlotId) : (PerSlot.all x).get y = x := by
  cases y with
  | panel => rfl
  | desk d => cases d <;> rfl

/-- Changing an entry that the list has. -/
theorem nth_modNth_same {α : Type} (l : List α) (i : Nat) (f : α → α) (x : α) (h : i < l.length) :
    nth (modNth l i f) i x = f (nth l i x) := by
  simp [nth, modNth, h]

/-- The other entries stand. -/
theorem nth_modNth_ne {α : Type} (l : List α) (i j : Nat) (f : α → α) (x : α) (h : i ≠ j) :
    nth (modNth l i f) j x = nth l j x := by
  simp [nth, modNth, h]

/-- Every entry of a list of equal entries, and what stands past its end if that is the same. -/
@[simp] theorem nth_replicate {α : Type} (n i : Nat) (x : α) : nth (List.replicate n x) i x = x := by
  by_cases h : i < n <;> simp [nth, List.getD, h]

@[simp] theorem length_modNth {α : Type} (l : List α) (i : Nat) (f : α → α) : (modNth l i f).length = l.length := by
  simp [modNth]

@[simp] theorem length_mapFrom {α β : Type} (f : Nat → α → β) (i : Nat) (l : List α) : (mapFrom f i l).length = l.length := by
  induction l generalizing i with
  | nil => rfl
  | cons x xs ih => simp [mapFrom, ih]

/-- Entry `j` of a list mapped with its places. -/
theorem nth_mapFrom {α β : Type} (f : Nat → α → β) (i j : Nat) (l : List α) (x : α) (y : β) (h : j < l.length) :
    nth (mapFrom f i l) j y = f (i + j) (nth l j x) := by
  induction l generalizing i j with
  | nil => exact absurd h (by simp)
  | cons a as ih =>
    cases j with
    | zero => simp [mapFrom, nth]
    | succ k =>
      have h' : k < as.length := by simpa using h
      have := ih (i + 1) k h'
      simp only [mapFrom, nth, List.getD_cons_succ] at this ⊢
      rw [this]
      congr 1
      omega

/-! ## Taking each of a list in turn -/

/-- What every step of a run keeps, the run keeps. -/
theorem State.foldOver_keeps {α : Type} (P : State → Prop) (f : α → State → State) (h : ∀ x s, P s → P (f x s)) :
    ∀ (l : List α) (s : State), P s → P (State.foldOver f l s)
  | [], _, hs => hs
  | x :: xs, s, hs => State.foldOver_keeps P f h xs (f x s) (h x s hs)

/-- A field that no step of a run changes, the run does not change. -/
theorem State.foldOver_field {α β : Type} (g : State → β) (f : α → State → State) (h : ∀ x s, g (f x s) = g s) :
    ∀ (l : List α) (s : State), g (State.foldOver f l s) = g s
  | [], _ => rfl
  | x :: xs, s => (State.foldOver_field g f h xs (f x s)).trans (h x s)

/-! ## Every command but FULL_RESET: power (R196) -/

/-- A powered part takes the event. -/
theorem live_powered (f : State → State) (s : State) (h : s.powered = true) : live f s = .next (f s) := by simp [live, h]

/-- An unpowered part does nothing. -/
theorem live_unpowered (f : State → State) (s : State) (h : s.powered = false) : live f s = .next s := by simp [live, h]

/-! ## Each update, field by field -/

@[simp] theorem State.modPort_ports (s : State) (p : LinkPort) (f : Port → Port) : (s.modPort p f).ports = s.ports.set p (f (s.port p)) := rfl
@[simp] theorem State.modPort_powered (s : State) (p : LinkPort) (f : Port → Port) : (s.modPort p f).powered = s.powered := rfl
@[simp] theorem State.modPort_unitNumber (s : State) (p : LinkPort) (f : Port → Port) : (s.modPort p f).unitNumber = s.unitNumber := rfl
@[simp] theorem State.modPort_frameCounter (s : State) (p : LinkPort) (f : Port → Port) : (s.modPort p f).frameCounter = s.frameCounter := rfl
@[simp] theorem State.modPort_sent (s : State) (p : LinkPort) (f : Port → Port) : (s.modPort p f).sent = s.sent := rfl
@[simp] theorem State.modPort_slots (s : State) (p : LinkPort) (f : Port → Port) : (s.modPort p f).slots = s.slots := rfl
@[simp] theorem State.modPort_panelClass (s : State) (p : LinkPort) (f : Port → Port) : (s.modPort p f).panelClass = s.panelClass := rfl
@[simp] theorem State.modPort_waitList (s : State) (p : LinkPort) (f : Port → Port) : (s.modPort p f).waitList = s.waitList := rfl
@[simp] theorem State.modPort_graceTime (s : State) (p : LinkPort) (f : Port → Port) : (s.modPort p f).graceTime = s.graceTime := rfl
@[simp] theorem State.modPort_lanes (s : State) (p : LinkPort) (f : Port → Port) : (s.modPort p f).lanes = s.lanes := rfl
@[simp] theorem State.modPort_cards (s : State) (p : LinkPort) (f : Port → Port) : (s.modPort p f).cards = s.cards := rfl
@[simp] theorem State.modPort_channels (s : State) (p : LinkPort) (f : Port → Port) : (s.modPort p f).channels = s.channels := rfl
@[simp] theorem State.modPort_cardQueue (s : State) (p : LinkPort) (f : Port → Port) : (s.modPort p f).cardQueue = s.cardQueue := rfl
@[simp] theorem State.modPort_sendList (s : State) (p : LinkPort) (f : Port → Port) : (s.modPort p f).sendList = s.sendList := rfl
@[simp] theorem State.modPort_line (s : State) (p : LinkPort) (f : Port → Port) : (s.modPort p f).line = s.line := rfl
@[simp] theorem State.modPort_comp (s : State) (p : LinkPort) (f : Port → Port) : (s.modPort p f).comp = s.comp := rfl
@[simp] theorem State.modPort_mixes (s : State) (p : LinkPort) (f : Port → Port) : (s.modPort p f).mixes = s.mixes := rfl
@[simp] theorem State.modPort_safe (s : State) (p : LinkPort) (f : Port → Port) : (s.modPort p f).safe = s.safe := rfl
@[simp] theorem State.modPort_buses (s : State) (p : LinkPort) (f : Port → Port) : (s.modPort p f).buses = s.buses := rfl
@[simp] theorem State.modPort_talkLimit (s : State) (p : LinkPort) (f : Port → Port) : (s.modPort p f).talkLimit = s.talkLimit := rfl
@[simp] theorem State.modPort_outputs (s : State) (p : LinkPort) (f : Port → Port) : (s.modPort p f).outputs = s.outputs := rfl
@[simp] theorem State.modPort_revertTime (s : State) (p : LinkPort) (f : Port → Port) : (s.modPort p f).revertTime = s.revertTime := rfl
@[simp] theorem State.modPort_started (s : State) (p : LinkPort) (f : Port → Port) : (s.modPort p f).started = s.started := rfl
@[simp] theorem State.modPort_stageOut (s : State) (p : LinkPort) (f : Port → Port) : (s.modPort p f).stageOut = s.stageOut := rfl
@[simp] theorem State.modPort_meter (s : State) (p : LinkPort) (f : Port → Port) : (s.modPort p f).meter = s.meter := rfl
@[simp] theorem State.modPort_boundary (s : State) (p : LinkPort) (f : Port → Port) : (s.modPort p f).boundary = s.boundary := rfl
@[simp] theorem State.modPort_overs (s : State) (p : LinkPort) (f : Port → Port) : (s.modPort p f).overs = s.overs := rfl
@[simp] theorem State.modPort_domains (s : State) (p : LinkPort) (f : Port → Port) : (s.modPort p f).domains = s.domains := rfl
@[simp] theorem State.modPort_batches (s : State) (p : LinkPort) (f : Port → Port) : (s.modPort p f).batches = s.batches := rfl
@[simp] theorem State.modPort_panelQueue (s : State) (p : LinkPort) (f : Port → Port) : (s.modPort p f).panelQueue = s.panelQueue := rfl
@[simp] theorem State.modPort_panelReserved (s : State) (p : LinkPort) (f : Port → Port) : (s.modPort p f).panelReserved = s.panelReserved := rfl
@[simp] theorem State.modPort_panelReturn (s : State) (p : LinkPort) (f : Port → Port) : (s.modPort p f).panelReturn = s.panelReturn := rfl
@[simp] theorem State.modPort_config (s : State) (p : LinkPort) (f : Port → Port) : (s.modPort p f).config = s.config := rfl
@[simp] theorem State.modPort_memory (s : State) (p : LinkPort) (f : Port → Port) : (s.modPort p f).memory = s.memory := rfl
@[simp] theorem State.modPort_free (s : State) (p : LinkPort) (f : Port → Port) : (s.modPort p f).free = s.free := rfl
@[simp] theorem State.modPort_pending (s : State) (p : LinkPort) (f : Port → Port) : (s.modPort p f).pending = s.pending := rfl
@[simp] theorem State.modPort_slot (s : State) (p : LinkPort) (f : Port → Port) (e : Desk) : (s.modPort p f).slot e = s.slot e := rfl
@[simp] theorem State.modPort_lane (s : State) (p : LinkPort) (f : Port → Port) (e : Desk) : (s.modPort p f).lane e = s.lane e := rfl
@[simp] theorem State.modPort_card (s : State) (p : LinkPort) (f : Port → Port) (k : Nat) : (s.modPort p f).card k = s.card k := rfl
@[simp] theorem State.modPort_channel (s : State) (p : LinkPort) (f : Port → Port) (k : Nat) : (s.modPort p f).channel k = s.channel k := rfl
@[simp] theorem State.modPort_inputComp (s : State) (p : LinkPort) (f : Port → Port) (k : Nat) : (s.modPort p f).inputComp k = s.inputComp k := rfl
@[simp] theorem State.modPort_mix (s : State) (p : LinkPort) (f : Port → Port) (k : Nat) : (s.modPort p f).mix k = s.mix k := rfl
@[simp] theorem State.modPort_output (s : State) (p : LinkPort) (f : Port → Port) (k : Nat) : (s.modPort p f).output k = s.output k := rfl
@[simp] theorem State.modPort_bus (s : State) (p : LinkPort) (f : Port → Port) (k : Bus) : (s.modPort p f).bus k = s.bus k := rfl
@[simp] theorem State.modPort_domain (s : State) (p : LinkPort) (f : Port → Port) (k : Nat) : (s.modPort p f).domain k = s.domain k := rfl
@[simp] theorem State.modPort_batch (s : State) (p : LinkPort) (f : Port → Port) (x : SlotId) : (s.modPort p f).batch x = s.batch x := rfl
@[simp] theorem State.modPort_slotState (s : State) (p : LinkPort) (f : Port → Port) (x : SlotId) : (s.modPort p f).slotState x = s.slotState x := by cases x <;> rfl

@[simp] theorem State.modSlot_slots (s : State) (d : Desk) (f : Slot → Slot) : (s.modSlot d f).slots = s.slots.set d (f (s.slot d)) := rfl
@[simp] theorem State.modSlot_powered (s : State) (d : Desk) (f : Slot → Slot) : (s.modSlot d f).powered = s.powered := rfl
@[simp] theorem State.modSlot_unitNumber (s : State) (d : Desk) (f : Slot → Slot) : (s.modSlot d f).unitNumber = s.unitNumber := rfl
@[simp] theorem State.modSlot_ports (s : State) (d : Desk) (f : Slot → Slot) : (s.modSlot d f).ports = s.ports := rfl
@[simp] theorem State.modSlot_frameCounter (s : State) (d : Desk) (f : Slot → Slot) : (s.modSlot d f).frameCounter = s.frameCounter := rfl
@[simp] theorem State.modSlot_sent (s : State) (d : Desk) (f : Slot → Slot) : (s.modSlot d f).sent = s.sent := rfl
@[simp] theorem State.modSlot_panelClass (s : State) (d : Desk) (f : Slot → Slot) : (s.modSlot d f).panelClass = s.panelClass := rfl
@[simp] theorem State.modSlot_waitList (s : State) (d : Desk) (f : Slot → Slot) : (s.modSlot d f).waitList = s.waitList := rfl
@[simp] theorem State.modSlot_graceTime (s : State) (d : Desk) (f : Slot → Slot) : (s.modSlot d f).graceTime = s.graceTime := rfl
@[simp] theorem State.modSlot_lanes (s : State) (d : Desk) (f : Slot → Slot) : (s.modSlot d f).lanes = s.lanes := rfl
@[simp] theorem State.modSlot_cards (s : State) (d : Desk) (f : Slot → Slot) : (s.modSlot d f).cards = s.cards := rfl
@[simp] theorem State.modSlot_channels (s : State) (d : Desk) (f : Slot → Slot) : (s.modSlot d f).channels = s.channels := rfl
@[simp] theorem State.modSlot_cardQueue (s : State) (d : Desk) (f : Slot → Slot) : (s.modSlot d f).cardQueue = s.cardQueue := rfl
@[simp] theorem State.modSlot_sendList (s : State) (d : Desk) (f : Slot → Slot) : (s.modSlot d f).sendList = s.sendList := rfl
@[simp] theorem State.modSlot_line (s : State) (d : Desk) (f : Slot → Slot) : (s.modSlot d f).line = s.line := rfl
@[simp] theorem State.modSlot_comp (s : State) (d : Desk) (f : Slot → Slot) : (s.modSlot d f).comp = s.comp := rfl
@[simp] theorem State.modSlot_mixes (s : State) (d : Desk) (f : Slot → Slot) : (s.modSlot d f).mixes = s.mixes := rfl
@[simp] theorem State.modSlot_safe (s : State) (d : Desk) (f : Slot → Slot) : (s.modSlot d f).safe = s.safe := rfl
@[simp] theorem State.modSlot_buses (s : State) (d : Desk) (f : Slot → Slot) : (s.modSlot d f).buses = s.buses := rfl
@[simp] theorem State.modSlot_talkLimit (s : State) (d : Desk) (f : Slot → Slot) : (s.modSlot d f).talkLimit = s.talkLimit := rfl
@[simp] theorem State.modSlot_outputs (s : State) (d : Desk) (f : Slot → Slot) : (s.modSlot d f).outputs = s.outputs := rfl
@[simp] theorem State.modSlot_revertTime (s : State) (d : Desk) (f : Slot → Slot) : (s.modSlot d f).revertTime = s.revertTime := rfl
@[simp] theorem State.modSlot_started (s : State) (d : Desk) (f : Slot → Slot) : (s.modSlot d f).started = s.started := rfl
@[simp] theorem State.modSlot_stageOut (s : State) (d : Desk) (f : Slot → Slot) : (s.modSlot d f).stageOut = s.stageOut := rfl
@[simp] theorem State.modSlot_meter (s : State) (d : Desk) (f : Slot → Slot) : (s.modSlot d f).meter = s.meter := rfl
@[simp] theorem State.modSlot_boundary (s : State) (d : Desk) (f : Slot → Slot) : (s.modSlot d f).boundary = s.boundary := rfl
@[simp] theorem State.modSlot_overs (s : State) (d : Desk) (f : Slot → Slot) : (s.modSlot d f).overs = s.overs := rfl
@[simp] theorem State.modSlot_domains (s : State) (d : Desk) (f : Slot → Slot) : (s.modSlot d f).domains = s.domains := rfl
@[simp] theorem State.modSlot_batches (s : State) (d : Desk) (f : Slot → Slot) : (s.modSlot d f).batches = s.batches := rfl
@[simp] theorem State.modSlot_panelQueue (s : State) (d : Desk) (f : Slot → Slot) : (s.modSlot d f).panelQueue = s.panelQueue := rfl
@[simp] theorem State.modSlot_panelReserved (s : State) (d : Desk) (f : Slot → Slot) : (s.modSlot d f).panelReserved = s.panelReserved := rfl
@[simp] theorem State.modSlot_panelReturn (s : State) (d : Desk) (f : Slot → Slot) : (s.modSlot d f).panelReturn = s.panelReturn := rfl
@[simp] theorem State.modSlot_config (s : State) (d : Desk) (f : Slot → Slot) : (s.modSlot d f).config = s.config := rfl
@[simp] theorem State.modSlot_memory (s : State) (d : Desk) (f : Slot → Slot) : (s.modSlot d f).memory = s.memory := rfl
@[simp] theorem State.modSlot_free (s : State) (d : Desk) (f : Slot → Slot) : (s.modSlot d f).free = s.free := rfl
@[simp] theorem State.modSlot_pending (s : State) (d : Desk) (f : Slot → Slot) : (s.modSlot d f).pending = s.pending := rfl
@[simp] theorem State.modSlot_port (s : State) (d : Desk) (f : Slot → Slot) (q : LinkPort) : (s.modSlot d f).port q = s.port q := rfl
@[simp] theorem State.modSlot_lane (s : State) (d : Desk) (f : Slot → Slot) (e : Desk) : (s.modSlot d f).lane e = s.lane e := rfl
@[simp] theorem State.modSlot_card (s : State) (d : Desk) (f : Slot → Slot) (k : Nat) : (s.modSlot d f).card k = s.card k := rfl
@[simp] theorem State.modSlot_channel (s : State) (d : Desk) (f : Slot → Slot) (k : Nat) : (s.modSlot d f).channel k = s.channel k := rfl
@[simp] theorem State.modSlot_inputComp (s : State) (d : Desk) (f : Slot → Slot) (k : Nat) : (s.modSlot d f).inputComp k = s.inputComp k := rfl
@[simp] theorem State.modSlot_mix (s : State) (d : Desk) (f : Slot → Slot) (k : Nat) : (s.modSlot d f).mix k = s.mix k := rfl
@[simp] theorem State.modSlot_output (s : State) (d : Desk) (f : Slot → Slot) (k : Nat) : (s.modSlot d f).output k = s.output k := rfl
@[simp] theorem State.modSlot_bus (s : State) (d : Desk) (f : Slot → Slot) (k : Bus) : (s.modSlot d f).bus k = s.bus k := rfl
@[simp] theorem State.modSlot_domain (s : State) (d : Desk) (f : Slot → Slot) (k : Nat) : (s.modSlot d f).domain k = s.domain k := rfl
@[simp] theorem State.modSlot_batch (s : State) (d : Desk) (f : Slot → Slot) (x : SlotId) : (s.modSlot d f).batch x = s.batch x := rfl

@[simp] theorem State.modLane_lanes (s : State) (d : Desk) (f : Lane → Lane) : (s.modLane d f).lanes = s.lanes.set d (f (s.lane d)) := rfl
@[simp] theorem State.modLane_powered (s : State) (d : Desk) (f : Lane → Lane) : (s.modLane d f).powered = s.powered := rfl
@[simp] theorem State.modLane_unitNumber (s : State) (d : Desk) (f : Lane → Lane) : (s.modLane d f).unitNumber = s.unitNumber := rfl
@[simp] theorem State.modLane_ports (s : State) (d : Desk) (f : Lane → Lane) : (s.modLane d f).ports = s.ports := rfl
@[simp] theorem State.modLane_frameCounter (s : State) (d : Desk) (f : Lane → Lane) : (s.modLane d f).frameCounter = s.frameCounter := rfl
@[simp] theorem State.modLane_sent (s : State) (d : Desk) (f : Lane → Lane) : (s.modLane d f).sent = s.sent := rfl
@[simp] theorem State.modLane_slots (s : State) (d : Desk) (f : Lane → Lane) : (s.modLane d f).slots = s.slots := rfl
@[simp] theorem State.modLane_panelClass (s : State) (d : Desk) (f : Lane → Lane) : (s.modLane d f).panelClass = s.panelClass := rfl
@[simp] theorem State.modLane_waitList (s : State) (d : Desk) (f : Lane → Lane) : (s.modLane d f).waitList = s.waitList := rfl
@[simp] theorem State.modLane_graceTime (s : State) (d : Desk) (f : Lane → Lane) : (s.modLane d f).graceTime = s.graceTime := rfl
@[simp] theorem State.modLane_cards (s : State) (d : Desk) (f : Lane → Lane) : (s.modLane d f).cards = s.cards := rfl
@[simp] theorem State.modLane_channels (s : State) (d : Desk) (f : Lane → Lane) : (s.modLane d f).channels = s.channels := rfl
@[simp] theorem State.modLane_cardQueue (s : State) (d : Desk) (f : Lane → Lane) : (s.modLane d f).cardQueue = s.cardQueue := rfl
@[simp] theorem State.modLane_sendList (s : State) (d : Desk) (f : Lane → Lane) : (s.modLane d f).sendList = s.sendList := rfl
@[simp] theorem State.modLane_line (s : State) (d : Desk) (f : Lane → Lane) : (s.modLane d f).line = s.line := rfl
@[simp] theorem State.modLane_comp (s : State) (d : Desk) (f : Lane → Lane) : (s.modLane d f).comp = s.comp := rfl
@[simp] theorem State.modLane_mixes (s : State) (d : Desk) (f : Lane → Lane) : (s.modLane d f).mixes = s.mixes := rfl
@[simp] theorem State.modLane_safe (s : State) (d : Desk) (f : Lane → Lane) : (s.modLane d f).safe = s.safe := rfl
@[simp] theorem State.modLane_buses (s : State) (d : Desk) (f : Lane → Lane) : (s.modLane d f).buses = s.buses := rfl
@[simp] theorem State.modLane_talkLimit (s : State) (d : Desk) (f : Lane → Lane) : (s.modLane d f).talkLimit = s.talkLimit := rfl
@[simp] theorem State.modLane_outputs (s : State) (d : Desk) (f : Lane → Lane) : (s.modLane d f).outputs = s.outputs := rfl
@[simp] theorem State.modLane_revertTime (s : State) (d : Desk) (f : Lane → Lane) : (s.modLane d f).revertTime = s.revertTime := rfl
@[simp] theorem State.modLane_started (s : State) (d : Desk) (f : Lane → Lane) : (s.modLane d f).started = s.started := rfl
@[simp] theorem State.modLane_stageOut (s : State) (d : Desk) (f : Lane → Lane) : (s.modLane d f).stageOut = s.stageOut := rfl
@[simp] theorem State.modLane_meter (s : State) (d : Desk) (f : Lane → Lane) : (s.modLane d f).meter = s.meter := rfl
@[simp] theorem State.modLane_boundary (s : State) (d : Desk) (f : Lane → Lane) : (s.modLane d f).boundary = s.boundary := rfl
@[simp] theorem State.modLane_overs (s : State) (d : Desk) (f : Lane → Lane) : (s.modLane d f).overs = s.overs := rfl
@[simp] theorem State.modLane_domains (s : State) (d : Desk) (f : Lane → Lane) : (s.modLane d f).domains = s.domains := rfl
@[simp] theorem State.modLane_batches (s : State) (d : Desk) (f : Lane → Lane) : (s.modLane d f).batches = s.batches := rfl
@[simp] theorem State.modLane_panelQueue (s : State) (d : Desk) (f : Lane → Lane) : (s.modLane d f).panelQueue = s.panelQueue := rfl
@[simp] theorem State.modLane_panelReserved (s : State) (d : Desk) (f : Lane → Lane) : (s.modLane d f).panelReserved = s.panelReserved := rfl
@[simp] theorem State.modLane_panelReturn (s : State) (d : Desk) (f : Lane → Lane) : (s.modLane d f).panelReturn = s.panelReturn := rfl
@[simp] theorem State.modLane_config (s : State) (d : Desk) (f : Lane → Lane) : (s.modLane d f).config = s.config := rfl
@[simp] theorem State.modLane_memory (s : State) (d : Desk) (f : Lane → Lane) : (s.modLane d f).memory = s.memory := rfl
@[simp] theorem State.modLane_free (s : State) (d : Desk) (f : Lane → Lane) : (s.modLane d f).free = s.free := rfl
@[simp] theorem State.modLane_pending (s : State) (d : Desk) (f : Lane → Lane) : (s.modLane d f).pending = s.pending := rfl
@[simp] theorem State.modLane_port (s : State) (d : Desk) (f : Lane → Lane) (q : LinkPort) : (s.modLane d f).port q = s.port q := rfl
@[simp] theorem State.modLane_slot (s : State) (d : Desk) (f : Lane → Lane) (e : Desk) : (s.modLane d f).slot e = s.slot e := rfl
@[simp] theorem State.modLane_card (s : State) (d : Desk) (f : Lane → Lane) (k : Nat) : (s.modLane d f).card k = s.card k := rfl
@[simp] theorem State.modLane_channel (s : State) (d : Desk) (f : Lane → Lane) (k : Nat) : (s.modLane d f).channel k = s.channel k := rfl
@[simp] theorem State.modLane_inputComp (s : State) (d : Desk) (f : Lane → Lane) (k : Nat) : (s.modLane d f).inputComp k = s.inputComp k := rfl
@[simp] theorem State.modLane_mix (s : State) (d : Desk) (f : Lane → Lane) (k : Nat) : (s.modLane d f).mix k = s.mix k := rfl
@[simp] theorem State.modLane_output (s : State) (d : Desk) (f : Lane → Lane) (k : Nat) : (s.modLane d f).output k = s.output k := rfl
@[simp] theorem State.modLane_bus (s : State) (d : Desk) (f : Lane → Lane) (k : Bus) : (s.modLane d f).bus k = s.bus k := rfl
@[simp] theorem State.modLane_domain (s : State) (d : Desk) (f : Lane → Lane) (k : Nat) : (s.modLane d f).domain k = s.domain k := rfl
@[simp] theorem State.modLane_batch (s : State) (d : Desk) (f : Lane → Lane) (x : SlotId) : (s.modLane d f).batch x = s.batch x := rfl
@[simp] theorem State.modLane_slotState (s : State) (d : Desk) (f : Lane → Lane) (x : SlotId) : (s.modLane d f).slotState x = s.slotState x := by cases x <;> rfl

@[simp] theorem State.modCard_cards (s : State) (c : Nat) (f : Card → Card) : (s.modCard c f).cards = modNth s.cards c f := rfl
@[simp] theorem State.modCard_powered (s : State) (c : Nat) (f : Card → Card) : (s.modCard c f).powered = s.powered := rfl
@[simp] theorem State.modCard_unitNumber (s : State) (c : Nat) (f : Card → Card) : (s.modCard c f).unitNumber = s.unitNumber := rfl
@[simp] theorem State.modCard_ports (s : State) (c : Nat) (f : Card → Card) : (s.modCard c f).ports = s.ports := rfl
@[simp] theorem State.modCard_frameCounter (s : State) (c : Nat) (f : Card → Card) : (s.modCard c f).frameCounter = s.frameCounter := rfl
@[simp] theorem State.modCard_sent (s : State) (c : Nat) (f : Card → Card) : (s.modCard c f).sent = s.sent := rfl
@[simp] theorem State.modCard_slots (s : State) (c : Nat) (f : Card → Card) : (s.modCard c f).slots = s.slots := rfl
@[simp] theorem State.modCard_panelClass (s : State) (c : Nat) (f : Card → Card) : (s.modCard c f).panelClass = s.panelClass := rfl
@[simp] theorem State.modCard_waitList (s : State) (c : Nat) (f : Card → Card) : (s.modCard c f).waitList = s.waitList := rfl
@[simp] theorem State.modCard_graceTime (s : State) (c : Nat) (f : Card → Card) : (s.modCard c f).graceTime = s.graceTime := rfl
@[simp] theorem State.modCard_lanes (s : State) (c : Nat) (f : Card → Card) : (s.modCard c f).lanes = s.lanes := rfl
@[simp] theorem State.modCard_channels (s : State) (c : Nat) (f : Card → Card) : (s.modCard c f).channels = s.channels := rfl
@[simp] theorem State.modCard_cardQueue (s : State) (c : Nat) (f : Card → Card) : (s.modCard c f).cardQueue = s.cardQueue := rfl
@[simp] theorem State.modCard_sendList (s : State) (c : Nat) (f : Card → Card) : (s.modCard c f).sendList = s.sendList := rfl
@[simp] theorem State.modCard_line (s : State) (c : Nat) (f : Card → Card) : (s.modCard c f).line = s.line := rfl
@[simp] theorem State.modCard_comp (s : State) (c : Nat) (f : Card → Card) : (s.modCard c f).comp = s.comp := rfl
@[simp] theorem State.modCard_mixes (s : State) (c : Nat) (f : Card → Card) : (s.modCard c f).mixes = s.mixes := rfl
@[simp] theorem State.modCard_safe (s : State) (c : Nat) (f : Card → Card) : (s.modCard c f).safe = s.safe := rfl
@[simp] theorem State.modCard_buses (s : State) (c : Nat) (f : Card → Card) : (s.modCard c f).buses = s.buses := rfl
@[simp] theorem State.modCard_talkLimit (s : State) (c : Nat) (f : Card → Card) : (s.modCard c f).talkLimit = s.talkLimit := rfl
@[simp] theorem State.modCard_outputs (s : State) (c : Nat) (f : Card → Card) : (s.modCard c f).outputs = s.outputs := rfl
@[simp] theorem State.modCard_revertTime (s : State) (c : Nat) (f : Card → Card) : (s.modCard c f).revertTime = s.revertTime := rfl
@[simp] theorem State.modCard_started (s : State) (c : Nat) (f : Card → Card) : (s.modCard c f).started = s.started := rfl
@[simp] theorem State.modCard_stageOut (s : State) (c : Nat) (f : Card → Card) : (s.modCard c f).stageOut = s.stageOut := rfl
@[simp] theorem State.modCard_meter (s : State) (c : Nat) (f : Card → Card) : (s.modCard c f).meter = s.meter := rfl
@[simp] theorem State.modCard_boundary (s : State) (c : Nat) (f : Card → Card) : (s.modCard c f).boundary = s.boundary := rfl
@[simp] theorem State.modCard_overs (s : State) (c : Nat) (f : Card → Card) : (s.modCard c f).overs = s.overs := rfl
@[simp] theorem State.modCard_domains (s : State) (c : Nat) (f : Card → Card) : (s.modCard c f).domains = s.domains := rfl
@[simp] theorem State.modCard_batches (s : State) (c : Nat) (f : Card → Card) : (s.modCard c f).batches = s.batches := rfl
@[simp] theorem State.modCard_panelQueue (s : State) (c : Nat) (f : Card → Card) : (s.modCard c f).panelQueue = s.panelQueue := rfl
@[simp] theorem State.modCard_panelReserved (s : State) (c : Nat) (f : Card → Card) : (s.modCard c f).panelReserved = s.panelReserved := rfl
@[simp] theorem State.modCard_panelReturn (s : State) (c : Nat) (f : Card → Card) : (s.modCard c f).panelReturn = s.panelReturn := rfl
@[simp] theorem State.modCard_config (s : State) (c : Nat) (f : Card → Card) : (s.modCard c f).config = s.config := rfl
@[simp] theorem State.modCard_memory (s : State) (c : Nat) (f : Card → Card) : (s.modCard c f).memory = s.memory := rfl
@[simp] theorem State.modCard_free (s : State) (c : Nat) (f : Card → Card) : (s.modCard c f).free = s.free := rfl
@[simp] theorem State.modCard_pending (s : State) (c : Nat) (f : Card → Card) : (s.modCard c f).pending = s.pending := rfl
@[simp] theorem State.modCard_port (s : State) (c : Nat) (f : Card → Card) (q : LinkPort) : (s.modCard c f).port q = s.port q := rfl
@[simp] theorem State.modCard_slot (s : State) (c : Nat) (f : Card → Card) (e : Desk) : (s.modCard c f).slot e = s.slot e := rfl
@[simp] theorem State.modCard_lane (s : State) (c : Nat) (f : Card → Card) (e : Desk) : (s.modCard c f).lane e = s.lane e := rfl
@[simp] theorem State.modCard_channel (s : State) (c : Nat) (f : Card → Card) (k : Nat) : (s.modCard c f).channel k = s.channel k := rfl
@[simp] theorem State.modCard_inputComp (s : State) (c : Nat) (f : Card → Card) (k : Nat) : (s.modCard c f).inputComp k = s.inputComp k := rfl
@[simp] theorem State.modCard_mix (s : State) (c : Nat) (f : Card → Card) (k : Nat) : (s.modCard c f).mix k = s.mix k := rfl
@[simp] theorem State.modCard_output (s : State) (c : Nat) (f : Card → Card) (k : Nat) : (s.modCard c f).output k = s.output k := rfl
@[simp] theorem State.modCard_bus (s : State) (c : Nat) (f : Card → Card) (k : Bus) : (s.modCard c f).bus k = s.bus k := rfl
@[simp] theorem State.modCard_domain (s : State) (c : Nat) (f : Card → Card) (k : Nat) : (s.modCard c f).domain k = s.domain k := rfl
@[simp] theorem State.modCard_batch (s : State) (c : Nat) (f : Card → Card) (x : SlotId) : (s.modCard c f).batch x = s.batch x := rfl
@[simp] theorem State.modCard_slotState (s : State) (c : Nat) (f : Card → Card) (x : SlotId) : (s.modCard c f).slotState x = s.slotState x := by cases x <;> rfl

@[simp] theorem State.modChannel_channels (s : State) (i : Nat) (f : Channel → Channel) : (s.modChannel i f).channels = modNth s.channels i f := rfl
@[simp] theorem State.modChannel_powered (s : State) (i : Nat) (f : Channel → Channel) : (s.modChannel i f).powered = s.powered := rfl
@[simp] theorem State.modChannel_unitNumber (s : State) (i : Nat) (f : Channel → Channel) : (s.modChannel i f).unitNumber = s.unitNumber := rfl
@[simp] theorem State.modChannel_ports (s : State) (i : Nat) (f : Channel → Channel) : (s.modChannel i f).ports = s.ports := rfl
@[simp] theorem State.modChannel_frameCounter (s : State) (i : Nat) (f : Channel → Channel) : (s.modChannel i f).frameCounter = s.frameCounter := rfl
@[simp] theorem State.modChannel_sent (s : State) (i : Nat) (f : Channel → Channel) : (s.modChannel i f).sent = s.sent := rfl
@[simp] theorem State.modChannel_slots (s : State) (i : Nat) (f : Channel → Channel) : (s.modChannel i f).slots = s.slots := rfl
@[simp] theorem State.modChannel_panelClass (s : State) (i : Nat) (f : Channel → Channel) : (s.modChannel i f).panelClass = s.panelClass := rfl
@[simp] theorem State.modChannel_waitList (s : State) (i : Nat) (f : Channel → Channel) : (s.modChannel i f).waitList = s.waitList := rfl
@[simp] theorem State.modChannel_graceTime (s : State) (i : Nat) (f : Channel → Channel) : (s.modChannel i f).graceTime = s.graceTime := rfl
@[simp] theorem State.modChannel_lanes (s : State) (i : Nat) (f : Channel → Channel) : (s.modChannel i f).lanes = s.lanes := rfl
@[simp] theorem State.modChannel_cards (s : State) (i : Nat) (f : Channel → Channel) : (s.modChannel i f).cards = s.cards := rfl
@[simp] theorem State.modChannel_cardQueue (s : State) (i : Nat) (f : Channel → Channel) : (s.modChannel i f).cardQueue = s.cardQueue := rfl
@[simp] theorem State.modChannel_sendList (s : State) (i : Nat) (f : Channel → Channel) : (s.modChannel i f).sendList = s.sendList := rfl
@[simp] theorem State.modChannel_line (s : State) (i : Nat) (f : Channel → Channel) : (s.modChannel i f).line = s.line := rfl
@[simp] theorem State.modChannel_comp (s : State) (i : Nat) (f : Channel → Channel) : (s.modChannel i f).comp = s.comp := rfl
@[simp] theorem State.modChannel_mixes (s : State) (i : Nat) (f : Channel → Channel) : (s.modChannel i f).mixes = s.mixes := rfl
@[simp] theorem State.modChannel_safe (s : State) (i : Nat) (f : Channel → Channel) : (s.modChannel i f).safe = s.safe := rfl
@[simp] theorem State.modChannel_buses (s : State) (i : Nat) (f : Channel → Channel) : (s.modChannel i f).buses = s.buses := rfl
@[simp] theorem State.modChannel_talkLimit (s : State) (i : Nat) (f : Channel → Channel) : (s.modChannel i f).talkLimit = s.talkLimit := rfl
@[simp] theorem State.modChannel_outputs (s : State) (i : Nat) (f : Channel → Channel) : (s.modChannel i f).outputs = s.outputs := rfl
@[simp] theorem State.modChannel_revertTime (s : State) (i : Nat) (f : Channel → Channel) : (s.modChannel i f).revertTime = s.revertTime := rfl
@[simp] theorem State.modChannel_started (s : State) (i : Nat) (f : Channel → Channel) : (s.modChannel i f).started = s.started := rfl
@[simp] theorem State.modChannel_stageOut (s : State) (i : Nat) (f : Channel → Channel) : (s.modChannel i f).stageOut = s.stageOut := rfl
@[simp] theorem State.modChannel_meter (s : State) (i : Nat) (f : Channel → Channel) : (s.modChannel i f).meter = s.meter := rfl
@[simp] theorem State.modChannel_boundary (s : State) (i : Nat) (f : Channel → Channel) : (s.modChannel i f).boundary = s.boundary := rfl
@[simp] theorem State.modChannel_overs (s : State) (i : Nat) (f : Channel → Channel) : (s.modChannel i f).overs = s.overs := rfl
@[simp] theorem State.modChannel_domains (s : State) (i : Nat) (f : Channel → Channel) : (s.modChannel i f).domains = s.domains := rfl
@[simp] theorem State.modChannel_batches (s : State) (i : Nat) (f : Channel → Channel) : (s.modChannel i f).batches = s.batches := rfl
@[simp] theorem State.modChannel_panelQueue (s : State) (i : Nat) (f : Channel → Channel) : (s.modChannel i f).panelQueue = s.panelQueue := rfl
@[simp] theorem State.modChannel_panelReserved (s : State) (i : Nat) (f : Channel → Channel) : (s.modChannel i f).panelReserved = s.panelReserved := rfl
@[simp] theorem State.modChannel_panelReturn (s : State) (i : Nat) (f : Channel → Channel) : (s.modChannel i f).panelReturn = s.panelReturn := rfl
@[simp] theorem State.modChannel_config (s : State) (i : Nat) (f : Channel → Channel) : (s.modChannel i f).config = s.config := rfl
@[simp] theorem State.modChannel_memory (s : State) (i : Nat) (f : Channel → Channel) : (s.modChannel i f).memory = s.memory := rfl
@[simp] theorem State.modChannel_free (s : State) (i : Nat) (f : Channel → Channel) : (s.modChannel i f).free = s.free := rfl
@[simp] theorem State.modChannel_pending (s : State) (i : Nat) (f : Channel → Channel) : (s.modChannel i f).pending = s.pending := rfl
@[simp] theorem State.modChannel_port (s : State) (i : Nat) (f : Channel → Channel) (q : LinkPort) : (s.modChannel i f).port q = s.port q := rfl
@[simp] theorem State.modChannel_slot (s : State) (i : Nat) (f : Channel → Channel) (e : Desk) : (s.modChannel i f).slot e = s.slot e := rfl
@[simp] theorem State.modChannel_lane (s : State) (i : Nat) (f : Channel → Channel) (e : Desk) : (s.modChannel i f).lane e = s.lane e := rfl
@[simp] theorem State.modChannel_card (s : State) (i : Nat) (f : Channel → Channel) (k : Nat) : (s.modChannel i f).card k = s.card k := rfl
@[simp] theorem State.modChannel_inputComp (s : State) (i : Nat) (f : Channel → Channel) (k : Nat) : (s.modChannel i f).inputComp k = s.inputComp k := rfl
@[simp] theorem State.modChannel_mix (s : State) (i : Nat) (f : Channel → Channel) (k : Nat) : (s.modChannel i f).mix k = s.mix k := rfl
@[simp] theorem State.modChannel_output (s : State) (i : Nat) (f : Channel → Channel) (k : Nat) : (s.modChannel i f).output k = s.output k := rfl
@[simp] theorem State.modChannel_bus (s : State) (i : Nat) (f : Channel → Channel) (k : Bus) : (s.modChannel i f).bus k = s.bus k := rfl
@[simp] theorem State.modChannel_domain (s : State) (i : Nat) (f : Channel → Channel) (k : Nat) : (s.modChannel i f).domain k = s.domain k := rfl
@[simp] theorem State.modChannel_batch (s : State) (i : Nat) (f : Channel → Channel) (x : SlotId) : (s.modChannel i f).batch x = s.batch x := rfl
@[simp] theorem State.modChannel_slotState (s : State) (i : Nat) (f : Channel → Channel) (x : SlotId) : (s.modChannel i f).slotState x = s.slotState x := by cases x <;> rfl

@[simp] theorem State.modComp_comp (s : State) (i : Nat) (f : InputComp → InputComp) : (s.modComp i f).comp = modNth s.comp i f := rfl
@[simp] theorem State.modComp_powered (s : State) (i : Nat) (f : InputComp → InputComp) : (s.modComp i f).powered = s.powered := rfl
@[simp] theorem State.modComp_unitNumber (s : State) (i : Nat) (f : InputComp → InputComp) : (s.modComp i f).unitNumber = s.unitNumber := rfl
@[simp] theorem State.modComp_ports (s : State) (i : Nat) (f : InputComp → InputComp) : (s.modComp i f).ports = s.ports := rfl
@[simp] theorem State.modComp_frameCounter (s : State) (i : Nat) (f : InputComp → InputComp) : (s.modComp i f).frameCounter = s.frameCounter := rfl
@[simp] theorem State.modComp_sent (s : State) (i : Nat) (f : InputComp → InputComp) : (s.modComp i f).sent = s.sent := rfl
@[simp] theorem State.modComp_slots (s : State) (i : Nat) (f : InputComp → InputComp) : (s.modComp i f).slots = s.slots := rfl
@[simp] theorem State.modComp_panelClass (s : State) (i : Nat) (f : InputComp → InputComp) : (s.modComp i f).panelClass = s.panelClass := rfl
@[simp] theorem State.modComp_waitList (s : State) (i : Nat) (f : InputComp → InputComp) : (s.modComp i f).waitList = s.waitList := rfl
@[simp] theorem State.modComp_graceTime (s : State) (i : Nat) (f : InputComp → InputComp) : (s.modComp i f).graceTime = s.graceTime := rfl
@[simp] theorem State.modComp_lanes (s : State) (i : Nat) (f : InputComp → InputComp) : (s.modComp i f).lanes = s.lanes := rfl
@[simp] theorem State.modComp_cards (s : State) (i : Nat) (f : InputComp → InputComp) : (s.modComp i f).cards = s.cards := rfl
@[simp] theorem State.modComp_channels (s : State) (i : Nat) (f : InputComp → InputComp) : (s.modComp i f).channels = s.channels := rfl
@[simp] theorem State.modComp_cardQueue (s : State) (i : Nat) (f : InputComp → InputComp) : (s.modComp i f).cardQueue = s.cardQueue := rfl
@[simp] theorem State.modComp_sendList (s : State) (i : Nat) (f : InputComp → InputComp) : (s.modComp i f).sendList = s.sendList := rfl
@[simp] theorem State.modComp_line (s : State) (i : Nat) (f : InputComp → InputComp) : (s.modComp i f).line = s.line := rfl
@[simp] theorem State.modComp_mixes (s : State) (i : Nat) (f : InputComp → InputComp) : (s.modComp i f).mixes = s.mixes := rfl
@[simp] theorem State.modComp_safe (s : State) (i : Nat) (f : InputComp → InputComp) : (s.modComp i f).safe = s.safe := rfl
@[simp] theorem State.modComp_buses (s : State) (i : Nat) (f : InputComp → InputComp) : (s.modComp i f).buses = s.buses := rfl
@[simp] theorem State.modComp_talkLimit (s : State) (i : Nat) (f : InputComp → InputComp) : (s.modComp i f).talkLimit = s.talkLimit := rfl
@[simp] theorem State.modComp_outputs (s : State) (i : Nat) (f : InputComp → InputComp) : (s.modComp i f).outputs = s.outputs := rfl
@[simp] theorem State.modComp_revertTime (s : State) (i : Nat) (f : InputComp → InputComp) : (s.modComp i f).revertTime = s.revertTime := rfl
@[simp] theorem State.modComp_started (s : State) (i : Nat) (f : InputComp → InputComp) : (s.modComp i f).started = s.started := rfl
@[simp] theorem State.modComp_stageOut (s : State) (i : Nat) (f : InputComp → InputComp) : (s.modComp i f).stageOut = s.stageOut := rfl
@[simp] theorem State.modComp_meter (s : State) (i : Nat) (f : InputComp → InputComp) : (s.modComp i f).meter = s.meter := rfl
@[simp] theorem State.modComp_boundary (s : State) (i : Nat) (f : InputComp → InputComp) : (s.modComp i f).boundary = s.boundary := rfl
@[simp] theorem State.modComp_overs (s : State) (i : Nat) (f : InputComp → InputComp) : (s.modComp i f).overs = s.overs := rfl
@[simp] theorem State.modComp_domains (s : State) (i : Nat) (f : InputComp → InputComp) : (s.modComp i f).domains = s.domains := rfl
@[simp] theorem State.modComp_batches (s : State) (i : Nat) (f : InputComp → InputComp) : (s.modComp i f).batches = s.batches := rfl
@[simp] theorem State.modComp_panelQueue (s : State) (i : Nat) (f : InputComp → InputComp) : (s.modComp i f).panelQueue = s.panelQueue := rfl
@[simp] theorem State.modComp_panelReserved (s : State) (i : Nat) (f : InputComp → InputComp) : (s.modComp i f).panelReserved = s.panelReserved := rfl
@[simp] theorem State.modComp_panelReturn (s : State) (i : Nat) (f : InputComp → InputComp) : (s.modComp i f).panelReturn = s.panelReturn := rfl
@[simp] theorem State.modComp_config (s : State) (i : Nat) (f : InputComp → InputComp) : (s.modComp i f).config = s.config := rfl
@[simp] theorem State.modComp_memory (s : State) (i : Nat) (f : InputComp → InputComp) : (s.modComp i f).memory = s.memory := rfl
@[simp] theorem State.modComp_free (s : State) (i : Nat) (f : InputComp → InputComp) : (s.modComp i f).free = s.free := rfl
@[simp] theorem State.modComp_pending (s : State) (i : Nat) (f : InputComp → InputComp) : (s.modComp i f).pending = s.pending := rfl
@[simp] theorem State.modComp_port (s : State) (i : Nat) (f : InputComp → InputComp) (q : LinkPort) : (s.modComp i f).port q = s.port q := rfl
@[simp] theorem State.modComp_slot (s : State) (i : Nat) (f : InputComp → InputComp) (e : Desk) : (s.modComp i f).slot e = s.slot e := rfl
@[simp] theorem State.modComp_lane (s : State) (i : Nat) (f : InputComp → InputComp) (e : Desk) : (s.modComp i f).lane e = s.lane e := rfl
@[simp] theorem State.modComp_card (s : State) (i : Nat) (f : InputComp → InputComp) (k : Nat) : (s.modComp i f).card k = s.card k := rfl
@[simp] theorem State.modComp_channel (s : State) (i : Nat) (f : InputComp → InputComp) (k : Nat) : (s.modComp i f).channel k = s.channel k := rfl
@[simp] theorem State.modComp_mix (s : State) (i : Nat) (f : InputComp → InputComp) (k : Nat) : (s.modComp i f).mix k = s.mix k := rfl
@[simp] theorem State.modComp_output (s : State) (i : Nat) (f : InputComp → InputComp) (k : Nat) : (s.modComp i f).output k = s.output k := rfl
@[simp] theorem State.modComp_bus (s : State) (i : Nat) (f : InputComp → InputComp) (k : Bus) : (s.modComp i f).bus k = s.bus k := rfl
@[simp] theorem State.modComp_domain (s : State) (i : Nat) (f : InputComp → InputComp) (k : Nat) : (s.modComp i f).domain k = s.domain k := rfl
@[simp] theorem State.modComp_batch (s : State) (i : Nat) (f : InputComp → InputComp) (x : SlotId) : (s.modComp i f).batch x = s.batch x := rfl
@[simp] theorem State.modComp_slotState (s : State) (i : Nat) (f : InputComp → InputComp) (x : SlotId) : (s.modComp i f).slotState x = s.slotState x := by cases x <;> rfl

@[simp] theorem State.modMix_mixes (s : State) (m : Nat) (f : Mix → Mix) : (s.modMix m f).mixes = modNth s.mixes m f := rfl
@[simp] theorem State.modMix_powered (s : State) (m : Nat) (f : Mix → Mix) : (s.modMix m f).powered = s.powered := rfl
@[simp] theorem State.modMix_unitNumber (s : State) (m : Nat) (f : Mix → Mix) : (s.modMix m f).unitNumber = s.unitNumber := rfl
@[simp] theorem State.modMix_ports (s : State) (m : Nat) (f : Mix → Mix) : (s.modMix m f).ports = s.ports := rfl
@[simp] theorem State.modMix_frameCounter (s : State) (m : Nat) (f : Mix → Mix) : (s.modMix m f).frameCounter = s.frameCounter := rfl
@[simp] theorem State.modMix_sent (s : State) (m : Nat) (f : Mix → Mix) : (s.modMix m f).sent = s.sent := rfl
@[simp] theorem State.modMix_slots (s : State) (m : Nat) (f : Mix → Mix) : (s.modMix m f).slots = s.slots := rfl
@[simp] theorem State.modMix_panelClass (s : State) (m : Nat) (f : Mix → Mix) : (s.modMix m f).panelClass = s.panelClass := rfl
@[simp] theorem State.modMix_waitList (s : State) (m : Nat) (f : Mix → Mix) : (s.modMix m f).waitList = s.waitList := rfl
@[simp] theorem State.modMix_graceTime (s : State) (m : Nat) (f : Mix → Mix) : (s.modMix m f).graceTime = s.graceTime := rfl
@[simp] theorem State.modMix_lanes (s : State) (m : Nat) (f : Mix → Mix) : (s.modMix m f).lanes = s.lanes := rfl
@[simp] theorem State.modMix_cards (s : State) (m : Nat) (f : Mix → Mix) : (s.modMix m f).cards = s.cards := rfl
@[simp] theorem State.modMix_channels (s : State) (m : Nat) (f : Mix → Mix) : (s.modMix m f).channels = s.channels := rfl
@[simp] theorem State.modMix_cardQueue (s : State) (m : Nat) (f : Mix → Mix) : (s.modMix m f).cardQueue = s.cardQueue := rfl
@[simp] theorem State.modMix_sendList (s : State) (m : Nat) (f : Mix → Mix) : (s.modMix m f).sendList = s.sendList := rfl
@[simp] theorem State.modMix_line (s : State) (m : Nat) (f : Mix → Mix) : (s.modMix m f).line = s.line := rfl
@[simp] theorem State.modMix_comp (s : State) (m : Nat) (f : Mix → Mix) : (s.modMix m f).comp = s.comp := rfl
@[simp] theorem State.modMix_safe (s : State) (m : Nat) (f : Mix → Mix) : (s.modMix m f).safe = s.safe := rfl
@[simp] theorem State.modMix_buses (s : State) (m : Nat) (f : Mix → Mix) : (s.modMix m f).buses = s.buses := rfl
@[simp] theorem State.modMix_talkLimit (s : State) (m : Nat) (f : Mix → Mix) : (s.modMix m f).talkLimit = s.talkLimit := rfl
@[simp] theorem State.modMix_outputs (s : State) (m : Nat) (f : Mix → Mix) : (s.modMix m f).outputs = s.outputs := rfl
@[simp] theorem State.modMix_revertTime (s : State) (m : Nat) (f : Mix → Mix) : (s.modMix m f).revertTime = s.revertTime := rfl
@[simp] theorem State.modMix_started (s : State) (m : Nat) (f : Mix → Mix) : (s.modMix m f).started = s.started := rfl
@[simp] theorem State.modMix_stageOut (s : State) (m : Nat) (f : Mix → Mix) : (s.modMix m f).stageOut = s.stageOut := rfl
@[simp] theorem State.modMix_meter (s : State) (m : Nat) (f : Mix → Mix) : (s.modMix m f).meter = s.meter := rfl
@[simp] theorem State.modMix_boundary (s : State) (m : Nat) (f : Mix → Mix) : (s.modMix m f).boundary = s.boundary := rfl
@[simp] theorem State.modMix_overs (s : State) (m : Nat) (f : Mix → Mix) : (s.modMix m f).overs = s.overs := rfl
@[simp] theorem State.modMix_domains (s : State) (m : Nat) (f : Mix → Mix) : (s.modMix m f).domains = s.domains := rfl
@[simp] theorem State.modMix_batches (s : State) (m : Nat) (f : Mix → Mix) : (s.modMix m f).batches = s.batches := rfl
@[simp] theorem State.modMix_panelQueue (s : State) (m : Nat) (f : Mix → Mix) : (s.modMix m f).panelQueue = s.panelQueue := rfl
@[simp] theorem State.modMix_panelReserved (s : State) (m : Nat) (f : Mix → Mix) : (s.modMix m f).panelReserved = s.panelReserved := rfl
@[simp] theorem State.modMix_panelReturn (s : State) (m : Nat) (f : Mix → Mix) : (s.modMix m f).panelReturn = s.panelReturn := rfl
@[simp] theorem State.modMix_config (s : State) (m : Nat) (f : Mix → Mix) : (s.modMix m f).config = s.config := rfl
@[simp] theorem State.modMix_memory (s : State) (m : Nat) (f : Mix → Mix) : (s.modMix m f).memory = s.memory := rfl
@[simp] theorem State.modMix_free (s : State) (m : Nat) (f : Mix → Mix) : (s.modMix m f).free = s.free := rfl
@[simp] theorem State.modMix_pending (s : State) (m : Nat) (f : Mix → Mix) : (s.modMix m f).pending = s.pending := rfl
@[simp] theorem State.modMix_port (s : State) (m : Nat) (f : Mix → Mix) (q : LinkPort) : (s.modMix m f).port q = s.port q := rfl
@[simp] theorem State.modMix_slot (s : State) (m : Nat) (f : Mix → Mix) (e : Desk) : (s.modMix m f).slot e = s.slot e := rfl
@[simp] theorem State.modMix_lane (s : State) (m : Nat) (f : Mix → Mix) (e : Desk) : (s.modMix m f).lane e = s.lane e := rfl
@[simp] theorem State.modMix_card (s : State) (m : Nat) (f : Mix → Mix) (k : Nat) : (s.modMix m f).card k = s.card k := rfl
@[simp] theorem State.modMix_channel (s : State) (m : Nat) (f : Mix → Mix) (k : Nat) : (s.modMix m f).channel k = s.channel k := rfl
@[simp] theorem State.modMix_inputComp (s : State) (m : Nat) (f : Mix → Mix) (k : Nat) : (s.modMix m f).inputComp k = s.inputComp k := rfl
@[simp] theorem State.modMix_output (s : State) (m : Nat) (f : Mix → Mix) (k : Nat) : (s.modMix m f).output k = s.output k := rfl
@[simp] theorem State.modMix_bus (s : State) (m : Nat) (f : Mix → Mix) (k : Bus) : (s.modMix m f).bus k = s.bus k := rfl
@[simp] theorem State.modMix_domain (s : State) (m : Nat) (f : Mix → Mix) (k : Nat) : (s.modMix m f).domain k = s.domain k := rfl
@[simp] theorem State.modMix_batch (s : State) (m : Nat) (f : Mix → Mix) (x : SlotId) : (s.modMix m f).batch x = s.batch x := rfl
@[simp] theorem State.modMix_slotState (s : State) (m : Nat) (f : Mix → Mix) (x : SlotId) : (s.modMix m f).slotState x = s.slotState x := by cases x <;> rfl

@[simp] theorem State.modOutput_outputs (s : State) (o : Nat) (f : Output → Output) : (s.modOutput o f).outputs = modNth s.outputs o f := rfl
@[simp] theorem State.modOutput_powered (s : State) (o : Nat) (f : Output → Output) : (s.modOutput o f).powered = s.powered := rfl
@[simp] theorem State.modOutput_unitNumber (s : State) (o : Nat) (f : Output → Output) : (s.modOutput o f).unitNumber = s.unitNumber := rfl
@[simp] theorem State.modOutput_ports (s : State) (o : Nat) (f : Output → Output) : (s.modOutput o f).ports = s.ports := rfl
@[simp] theorem State.modOutput_frameCounter (s : State) (o : Nat) (f : Output → Output) : (s.modOutput o f).frameCounter = s.frameCounter := rfl
@[simp] theorem State.modOutput_sent (s : State) (o : Nat) (f : Output → Output) : (s.modOutput o f).sent = s.sent := rfl
@[simp] theorem State.modOutput_slots (s : State) (o : Nat) (f : Output → Output) : (s.modOutput o f).slots = s.slots := rfl
@[simp] theorem State.modOutput_panelClass (s : State) (o : Nat) (f : Output → Output) : (s.modOutput o f).panelClass = s.panelClass := rfl
@[simp] theorem State.modOutput_waitList (s : State) (o : Nat) (f : Output → Output) : (s.modOutput o f).waitList = s.waitList := rfl
@[simp] theorem State.modOutput_graceTime (s : State) (o : Nat) (f : Output → Output) : (s.modOutput o f).graceTime = s.graceTime := rfl
@[simp] theorem State.modOutput_lanes (s : State) (o : Nat) (f : Output → Output) : (s.modOutput o f).lanes = s.lanes := rfl
@[simp] theorem State.modOutput_cards (s : State) (o : Nat) (f : Output → Output) : (s.modOutput o f).cards = s.cards := rfl
@[simp] theorem State.modOutput_channels (s : State) (o : Nat) (f : Output → Output) : (s.modOutput o f).channels = s.channels := rfl
@[simp] theorem State.modOutput_cardQueue (s : State) (o : Nat) (f : Output → Output) : (s.modOutput o f).cardQueue = s.cardQueue := rfl
@[simp] theorem State.modOutput_sendList (s : State) (o : Nat) (f : Output → Output) : (s.modOutput o f).sendList = s.sendList := rfl
@[simp] theorem State.modOutput_line (s : State) (o : Nat) (f : Output → Output) : (s.modOutput o f).line = s.line := rfl
@[simp] theorem State.modOutput_comp (s : State) (o : Nat) (f : Output → Output) : (s.modOutput o f).comp = s.comp := rfl
@[simp] theorem State.modOutput_mixes (s : State) (o : Nat) (f : Output → Output) : (s.modOutput o f).mixes = s.mixes := rfl
@[simp] theorem State.modOutput_safe (s : State) (o : Nat) (f : Output → Output) : (s.modOutput o f).safe = s.safe := rfl
@[simp] theorem State.modOutput_buses (s : State) (o : Nat) (f : Output → Output) : (s.modOutput o f).buses = s.buses := rfl
@[simp] theorem State.modOutput_talkLimit (s : State) (o : Nat) (f : Output → Output) : (s.modOutput o f).talkLimit = s.talkLimit := rfl
@[simp] theorem State.modOutput_revertTime (s : State) (o : Nat) (f : Output → Output) : (s.modOutput o f).revertTime = s.revertTime := rfl
@[simp] theorem State.modOutput_started (s : State) (o : Nat) (f : Output → Output) : (s.modOutput o f).started = s.started := rfl
@[simp] theorem State.modOutput_stageOut (s : State) (o : Nat) (f : Output → Output) : (s.modOutput o f).stageOut = s.stageOut := rfl
@[simp] theorem State.modOutput_meter (s : State) (o : Nat) (f : Output → Output) : (s.modOutput o f).meter = s.meter := rfl
@[simp] theorem State.modOutput_boundary (s : State) (o : Nat) (f : Output → Output) : (s.modOutput o f).boundary = s.boundary := rfl
@[simp] theorem State.modOutput_overs (s : State) (o : Nat) (f : Output → Output) : (s.modOutput o f).overs = s.overs := rfl
@[simp] theorem State.modOutput_domains (s : State) (o : Nat) (f : Output → Output) : (s.modOutput o f).domains = s.domains := rfl
@[simp] theorem State.modOutput_batches (s : State) (o : Nat) (f : Output → Output) : (s.modOutput o f).batches = s.batches := rfl
@[simp] theorem State.modOutput_panelQueue (s : State) (o : Nat) (f : Output → Output) : (s.modOutput o f).panelQueue = s.panelQueue := rfl
@[simp] theorem State.modOutput_panelReserved (s : State) (o : Nat) (f : Output → Output) : (s.modOutput o f).panelReserved = s.panelReserved := rfl
@[simp] theorem State.modOutput_panelReturn (s : State) (o : Nat) (f : Output → Output) : (s.modOutput o f).panelReturn = s.panelReturn := rfl
@[simp] theorem State.modOutput_config (s : State) (o : Nat) (f : Output → Output) : (s.modOutput o f).config = s.config := rfl
@[simp] theorem State.modOutput_memory (s : State) (o : Nat) (f : Output → Output) : (s.modOutput o f).memory = s.memory := rfl
@[simp] theorem State.modOutput_free (s : State) (o : Nat) (f : Output → Output) : (s.modOutput o f).free = s.free := rfl
@[simp] theorem State.modOutput_pending (s : State) (o : Nat) (f : Output → Output) : (s.modOutput o f).pending = s.pending := rfl
@[simp] theorem State.modOutput_port (s : State) (o : Nat) (f : Output → Output) (q : LinkPort) : (s.modOutput o f).port q = s.port q := rfl
@[simp] theorem State.modOutput_slot (s : State) (o : Nat) (f : Output → Output) (e : Desk) : (s.modOutput o f).slot e = s.slot e := rfl
@[simp] theorem State.modOutput_lane (s : State) (o : Nat) (f : Output → Output) (e : Desk) : (s.modOutput o f).lane e = s.lane e := rfl
@[simp] theorem State.modOutput_card (s : State) (o : Nat) (f : Output → Output) (k : Nat) : (s.modOutput o f).card k = s.card k := rfl
@[simp] theorem State.modOutput_channel (s : State) (o : Nat) (f : Output → Output) (k : Nat) : (s.modOutput o f).channel k = s.channel k := rfl
@[simp] theorem State.modOutput_inputComp (s : State) (o : Nat) (f : Output → Output) (k : Nat) : (s.modOutput o f).inputComp k = s.inputComp k := rfl
@[simp] theorem State.modOutput_mix (s : State) (o : Nat) (f : Output → Output) (k : Nat) : (s.modOutput o f).mix k = s.mix k := rfl
@[simp] theorem State.modOutput_bus (s : State) (o : Nat) (f : Output → Output) (k : Bus) : (s.modOutput o f).bus k = s.bus k := rfl
@[simp] theorem State.modOutput_domain (s : State) (o : Nat) (f : Output → Output) (k : Nat) : (s.modOutput o f).domain k = s.domain k := rfl
@[simp] theorem State.modOutput_batch (s : State) (o : Nat) (f : Output → Output) (x : SlotId) : (s.modOutput o f).batch x = s.batch x := rfl
@[simp] theorem State.modOutput_slotState (s : State) (o : Nat) (f : Output → Output) (x : SlotId) : (s.modOutput o f).slotState x = s.slotState x := by cases x <;> rfl

@[simp] theorem State.modBus_buses (s : State) (b : Bus) (f : BusRec → BusRec) : (s.modBus b f).buses = s.buses.set b (f (s.bus b)) := rfl
@[simp] theorem State.modBus_powered (s : State) (b : Bus) (f : BusRec → BusRec) : (s.modBus b f).powered = s.powered := rfl
@[simp] theorem State.modBus_unitNumber (s : State) (b : Bus) (f : BusRec → BusRec) : (s.modBus b f).unitNumber = s.unitNumber := rfl
@[simp] theorem State.modBus_ports (s : State) (b : Bus) (f : BusRec → BusRec) : (s.modBus b f).ports = s.ports := rfl
@[simp] theorem State.modBus_frameCounter (s : State) (b : Bus) (f : BusRec → BusRec) : (s.modBus b f).frameCounter = s.frameCounter := rfl
@[simp] theorem State.modBus_sent (s : State) (b : Bus) (f : BusRec → BusRec) : (s.modBus b f).sent = s.sent := rfl
@[simp] theorem State.modBus_slots (s : State) (b : Bus) (f : BusRec → BusRec) : (s.modBus b f).slots = s.slots := rfl
@[simp] theorem State.modBus_panelClass (s : State) (b : Bus) (f : BusRec → BusRec) : (s.modBus b f).panelClass = s.panelClass := rfl
@[simp] theorem State.modBus_waitList (s : State) (b : Bus) (f : BusRec → BusRec) : (s.modBus b f).waitList = s.waitList := rfl
@[simp] theorem State.modBus_graceTime (s : State) (b : Bus) (f : BusRec → BusRec) : (s.modBus b f).graceTime = s.graceTime := rfl
@[simp] theorem State.modBus_lanes (s : State) (b : Bus) (f : BusRec → BusRec) : (s.modBus b f).lanes = s.lanes := rfl
@[simp] theorem State.modBus_cards (s : State) (b : Bus) (f : BusRec → BusRec) : (s.modBus b f).cards = s.cards := rfl
@[simp] theorem State.modBus_channels (s : State) (b : Bus) (f : BusRec → BusRec) : (s.modBus b f).channels = s.channels := rfl
@[simp] theorem State.modBus_cardQueue (s : State) (b : Bus) (f : BusRec → BusRec) : (s.modBus b f).cardQueue = s.cardQueue := rfl
@[simp] theorem State.modBus_sendList (s : State) (b : Bus) (f : BusRec → BusRec) : (s.modBus b f).sendList = s.sendList := rfl
@[simp] theorem State.modBus_line (s : State) (b : Bus) (f : BusRec → BusRec) : (s.modBus b f).line = s.line := rfl
@[simp] theorem State.modBus_comp (s : State) (b : Bus) (f : BusRec → BusRec) : (s.modBus b f).comp = s.comp := rfl
@[simp] theorem State.modBus_mixes (s : State) (b : Bus) (f : BusRec → BusRec) : (s.modBus b f).mixes = s.mixes := rfl
@[simp] theorem State.modBus_safe (s : State) (b : Bus) (f : BusRec → BusRec) : (s.modBus b f).safe = s.safe := rfl
@[simp] theorem State.modBus_talkLimit (s : State) (b : Bus) (f : BusRec → BusRec) : (s.modBus b f).talkLimit = s.talkLimit := rfl
@[simp] theorem State.modBus_outputs (s : State) (b : Bus) (f : BusRec → BusRec) : (s.modBus b f).outputs = s.outputs := rfl
@[simp] theorem State.modBus_revertTime (s : State) (b : Bus) (f : BusRec → BusRec) : (s.modBus b f).revertTime = s.revertTime := rfl
@[simp] theorem State.modBus_started (s : State) (b : Bus) (f : BusRec → BusRec) : (s.modBus b f).started = s.started := rfl
@[simp] theorem State.modBus_stageOut (s : State) (b : Bus) (f : BusRec → BusRec) : (s.modBus b f).stageOut = s.stageOut := rfl
@[simp] theorem State.modBus_meter (s : State) (b : Bus) (f : BusRec → BusRec) : (s.modBus b f).meter = s.meter := rfl
@[simp] theorem State.modBus_boundary (s : State) (b : Bus) (f : BusRec → BusRec) : (s.modBus b f).boundary = s.boundary := rfl
@[simp] theorem State.modBus_overs (s : State) (b : Bus) (f : BusRec → BusRec) : (s.modBus b f).overs = s.overs := rfl
@[simp] theorem State.modBus_domains (s : State) (b : Bus) (f : BusRec → BusRec) : (s.modBus b f).domains = s.domains := rfl
@[simp] theorem State.modBus_batches (s : State) (b : Bus) (f : BusRec → BusRec) : (s.modBus b f).batches = s.batches := rfl
@[simp] theorem State.modBus_panelQueue (s : State) (b : Bus) (f : BusRec → BusRec) : (s.modBus b f).panelQueue = s.panelQueue := rfl
@[simp] theorem State.modBus_panelReserved (s : State) (b : Bus) (f : BusRec → BusRec) : (s.modBus b f).panelReserved = s.panelReserved := rfl
@[simp] theorem State.modBus_panelReturn (s : State) (b : Bus) (f : BusRec → BusRec) : (s.modBus b f).panelReturn = s.panelReturn := rfl
@[simp] theorem State.modBus_config (s : State) (b : Bus) (f : BusRec → BusRec) : (s.modBus b f).config = s.config := rfl
@[simp] theorem State.modBus_memory (s : State) (b : Bus) (f : BusRec → BusRec) : (s.modBus b f).memory = s.memory := rfl
@[simp] theorem State.modBus_free (s : State) (b : Bus) (f : BusRec → BusRec) : (s.modBus b f).free = s.free := rfl
@[simp] theorem State.modBus_pending (s : State) (b : Bus) (f : BusRec → BusRec) : (s.modBus b f).pending = s.pending := rfl
@[simp] theorem State.modBus_port (s : State) (b : Bus) (f : BusRec → BusRec) (q : LinkPort) : (s.modBus b f).port q = s.port q := rfl
@[simp] theorem State.modBus_slot (s : State) (b : Bus) (f : BusRec → BusRec) (e : Desk) : (s.modBus b f).slot e = s.slot e := rfl
@[simp] theorem State.modBus_lane (s : State) (b : Bus) (f : BusRec → BusRec) (e : Desk) : (s.modBus b f).lane e = s.lane e := rfl
@[simp] theorem State.modBus_card (s : State) (b : Bus) (f : BusRec → BusRec) (k : Nat) : (s.modBus b f).card k = s.card k := rfl
@[simp] theorem State.modBus_channel (s : State) (b : Bus) (f : BusRec → BusRec) (k : Nat) : (s.modBus b f).channel k = s.channel k := rfl
@[simp] theorem State.modBus_inputComp (s : State) (b : Bus) (f : BusRec → BusRec) (k : Nat) : (s.modBus b f).inputComp k = s.inputComp k := rfl
@[simp] theorem State.modBus_mix (s : State) (b : Bus) (f : BusRec → BusRec) (k : Nat) : (s.modBus b f).mix k = s.mix k := rfl
@[simp] theorem State.modBus_output (s : State) (b : Bus) (f : BusRec → BusRec) (k : Nat) : (s.modBus b f).output k = s.output k := rfl
@[simp] theorem State.modBus_domain (s : State) (b : Bus) (f : BusRec → BusRec) (k : Nat) : (s.modBus b f).domain k = s.domain k := rfl
@[simp] theorem State.modBus_batch (s : State) (b : Bus) (f : BusRec → BusRec) (x : SlotId) : (s.modBus b f).batch x = s.batch x := rfl
@[simp] theorem State.modBus_slotState (s : State) (b : Bus) (f : BusRec → BusRec) (x : SlotId) : (s.modBus b f).slotState x = s.slotState x := by cases x <;> rfl

@[simp] theorem State.modDomain_domains (s : State) (n : Nat) (f : Domain → Domain) : (s.modDomain n f).domains = modNth s.domains n f := rfl
@[simp] theorem State.modDomain_powered (s : State) (n : Nat) (f : Domain → Domain) : (s.modDomain n f).powered = s.powered := rfl
@[simp] theorem State.modDomain_unitNumber (s : State) (n : Nat) (f : Domain → Domain) : (s.modDomain n f).unitNumber = s.unitNumber := rfl
@[simp] theorem State.modDomain_ports (s : State) (n : Nat) (f : Domain → Domain) : (s.modDomain n f).ports = s.ports := rfl
@[simp] theorem State.modDomain_frameCounter (s : State) (n : Nat) (f : Domain → Domain) : (s.modDomain n f).frameCounter = s.frameCounter := rfl
@[simp] theorem State.modDomain_sent (s : State) (n : Nat) (f : Domain → Domain) : (s.modDomain n f).sent = s.sent := rfl
@[simp] theorem State.modDomain_slots (s : State) (n : Nat) (f : Domain → Domain) : (s.modDomain n f).slots = s.slots := rfl
@[simp] theorem State.modDomain_panelClass (s : State) (n : Nat) (f : Domain → Domain) : (s.modDomain n f).panelClass = s.panelClass := rfl
@[simp] theorem State.modDomain_waitList (s : State) (n : Nat) (f : Domain → Domain) : (s.modDomain n f).waitList = s.waitList := rfl
@[simp] theorem State.modDomain_graceTime (s : State) (n : Nat) (f : Domain → Domain) : (s.modDomain n f).graceTime = s.graceTime := rfl
@[simp] theorem State.modDomain_lanes (s : State) (n : Nat) (f : Domain → Domain) : (s.modDomain n f).lanes = s.lanes := rfl
@[simp] theorem State.modDomain_cards (s : State) (n : Nat) (f : Domain → Domain) : (s.modDomain n f).cards = s.cards := rfl
@[simp] theorem State.modDomain_channels (s : State) (n : Nat) (f : Domain → Domain) : (s.modDomain n f).channels = s.channels := rfl
@[simp] theorem State.modDomain_cardQueue (s : State) (n : Nat) (f : Domain → Domain) : (s.modDomain n f).cardQueue = s.cardQueue := rfl
@[simp] theorem State.modDomain_sendList (s : State) (n : Nat) (f : Domain → Domain) : (s.modDomain n f).sendList = s.sendList := rfl
@[simp] theorem State.modDomain_line (s : State) (n : Nat) (f : Domain → Domain) : (s.modDomain n f).line = s.line := rfl
@[simp] theorem State.modDomain_comp (s : State) (n : Nat) (f : Domain → Domain) : (s.modDomain n f).comp = s.comp := rfl
@[simp] theorem State.modDomain_mixes (s : State) (n : Nat) (f : Domain → Domain) : (s.modDomain n f).mixes = s.mixes := rfl
@[simp] theorem State.modDomain_safe (s : State) (n : Nat) (f : Domain → Domain) : (s.modDomain n f).safe = s.safe := rfl
@[simp] theorem State.modDomain_buses (s : State) (n : Nat) (f : Domain → Domain) : (s.modDomain n f).buses = s.buses := rfl
@[simp] theorem State.modDomain_talkLimit (s : State) (n : Nat) (f : Domain → Domain) : (s.modDomain n f).talkLimit = s.talkLimit := rfl
@[simp] theorem State.modDomain_outputs (s : State) (n : Nat) (f : Domain → Domain) : (s.modDomain n f).outputs = s.outputs := rfl
@[simp] theorem State.modDomain_revertTime (s : State) (n : Nat) (f : Domain → Domain) : (s.modDomain n f).revertTime = s.revertTime := rfl
@[simp] theorem State.modDomain_started (s : State) (n : Nat) (f : Domain → Domain) : (s.modDomain n f).started = s.started := rfl
@[simp] theorem State.modDomain_stageOut (s : State) (n : Nat) (f : Domain → Domain) : (s.modDomain n f).stageOut = s.stageOut := rfl
@[simp] theorem State.modDomain_meter (s : State) (n : Nat) (f : Domain → Domain) : (s.modDomain n f).meter = s.meter := rfl
@[simp] theorem State.modDomain_boundary (s : State) (n : Nat) (f : Domain → Domain) : (s.modDomain n f).boundary = s.boundary := rfl
@[simp] theorem State.modDomain_overs (s : State) (n : Nat) (f : Domain → Domain) : (s.modDomain n f).overs = s.overs := rfl
@[simp] theorem State.modDomain_batches (s : State) (n : Nat) (f : Domain → Domain) : (s.modDomain n f).batches = s.batches := rfl
@[simp] theorem State.modDomain_panelQueue (s : State) (n : Nat) (f : Domain → Domain) : (s.modDomain n f).panelQueue = s.panelQueue := rfl
@[simp] theorem State.modDomain_panelReserved (s : State) (n : Nat) (f : Domain → Domain) : (s.modDomain n f).panelReserved = s.panelReserved := rfl
@[simp] theorem State.modDomain_panelReturn (s : State) (n : Nat) (f : Domain → Domain) : (s.modDomain n f).panelReturn = s.panelReturn := rfl
@[simp] theorem State.modDomain_config (s : State) (n : Nat) (f : Domain → Domain) : (s.modDomain n f).config = s.config := rfl
@[simp] theorem State.modDomain_memory (s : State) (n : Nat) (f : Domain → Domain) : (s.modDomain n f).memory = s.memory := rfl
@[simp] theorem State.modDomain_free (s : State) (n : Nat) (f : Domain → Domain) : (s.modDomain n f).free = s.free := rfl
@[simp] theorem State.modDomain_pending (s : State) (n : Nat) (f : Domain → Domain) : (s.modDomain n f).pending = s.pending := rfl
@[simp] theorem State.modDomain_port (s : State) (n : Nat) (f : Domain → Domain) (q : LinkPort) : (s.modDomain n f).port q = s.port q := rfl
@[simp] theorem State.modDomain_slot (s : State) (n : Nat) (f : Domain → Domain) (e : Desk) : (s.modDomain n f).slot e = s.slot e := rfl
@[simp] theorem State.modDomain_lane (s : State) (n : Nat) (f : Domain → Domain) (e : Desk) : (s.modDomain n f).lane e = s.lane e := rfl
@[simp] theorem State.modDomain_card (s : State) (n : Nat) (f : Domain → Domain) (k : Nat) : (s.modDomain n f).card k = s.card k := rfl
@[simp] theorem State.modDomain_channel (s : State) (n : Nat) (f : Domain → Domain) (k : Nat) : (s.modDomain n f).channel k = s.channel k := rfl
@[simp] theorem State.modDomain_inputComp (s : State) (n : Nat) (f : Domain → Domain) (k : Nat) : (s.modDomain n f).inputComp k = s.inputComp k := rfl
@[simp] theorem State.modDomain_mix (s : State) (n : Nat) (f : Domain → Domain) (k : Nat) : (s.modDomain n f).mix k = s.mix k := rfl
@[simp] theorem State.modDomain_output (s : State) (n : Nat) (f : Domain → Domain) (k : Nat) : (s.modDomain n f).output k = s.output k := rfl
@[simp] theorem State.modDomain_bus (s : State) (n : Nat) (f : Domain → Domain) (k : Bus) : (s.modDomain n f).bus k = s.bus k := rfl
@[simp] theorem State.modDomain_batch (s : State) (n : Nat) (f : Domain → Domain) (x : SlotId) : (s.modDomain n f).batch x = s.batch x := rfl
@[simp] theorem State.modDomain_slotState (s : State) (n : Nat) (f : Domain → Domain) (x : SlotId) : (s.modDomain n f).slotState x = s.slotState x := by cases x <;> rfl

@[simp] theorem State.setBatch_batches (s : State) (sl : SlotId) (b : Batch) : (s.setBatch sl b).batches = s.batches.set sl b := rfl
@[simp] theorem State.setBatch_powered (s : State) (sl : SlotId) (b : Batch) : (s.setBatch sl b).powered = s.powered := rfl
@[simp] theorem State.setBatch_unitNumber (s : State) (sl : SlotId) (b : Batch) : (s.setBatch sl b).unitNumber = s.unitNumber := rfl
@[simp] theorem State.setBatch_ports (s : State) (sl : SlotId) (b : Batch) : (s.setBatch sl b).ports = s.ports := rfl
@[simp] theorem State.setBatch_frameCounter (s : State) (sl : SlotId) (b : Batch) : (s.setBatch sl b).frameCounter = s.frameCounter := rfl
@[simp] theorem State.setBatch_sent (s : State) (sl : SlotId) (b : Batch) : (s.setBatch sl b).sent = s.sent := rfl
@[simp] theorem State.setBatch_slots (s : State) (sl : SlotId) (b : Batch) : (s.setBatch sl b).slots = s.slots := rfl
@[simp] theorem State.setBatch_panelClass (s : State) (sl : SlotId) (b : Batch) : (s.setBatch sl b).panelClass = s.panelClass := rfl
@[simp] theorem State.setBatch_waitList (s : State) (sl : SlotId) (b : Batch) : (s.setBatch sl b).waitList = s.waitList := rfl
@[simp] theorem State.setBatch_graceTime (s : State) (sl : SlotId) (b : Batch) : (s.setBatch sl b).graceTime = s.graceTime := rfl
@[simp] theorem State.setBatch_lanes (s : State) (sl : SlotId) (b : Batch) : (s.setBatch sl b).lanes = s.lanes := rfl
@[simp] theorem State.setBatch_cards (s : State) (sl : SlotId) (b : Batch) : (s.setBatch sl b).cards = s.cards := rfl
@[simp] theorem State.setBatch_channels (s : State) (sl : SlotId) (b : Batch) : (s.setBatch sl b).channels = s.channels := rfl
@[simp] theorem State.setBatch_cardQueue (s : State) (sl : SlotId) (b : Batch) : (s.setBatch sl b).cardQueue = s.cardQueue := rfl
@[simp] theorem State.setBatch_sendList (s : State) (sl : SlotId) (b : Batch) : (s.setBatch sl b).sendList = s.sendList := rfl
@[simp] theorem State.setBatch_line (s : State) (sl : SlotId) (b : Batch) : (s.setBatch sl b).line = s.line := rfl
@[simp] theorem State.setBatch_comp (s : State) (sl : SlotId) (b : Batch) : (s.setBatch sl b).comp = s.comp := rfl
@[simp] theorem State.setBatch_mixes (s : State) (sl : SlotId) (b : Batch) : (s.setBatch sl b).mixes = s.mixes := rfl
@[simp] theorem State.setBatch_safe (s : State) (sl : SlotId) (b : Batch) : (s.setBatch sl b).safe = s.safe := rfl
@[simp] theorem State.setBatch_buses (s : State) (sl : SlotId) (b : Batch) : (s.setBatch sl b).buses = s.buses := rfl
@[simp] theorem State.setBatch_talkLimit (s : State) (sl : SlotId) (b : Batch) : (s.setBatch sl b).talkLimit = s.talkLimit := rfl
@[simp] theorem State.setBatch_outputs (s : State) (sl : SlotId) (b : Batch) : (s.setBatch sl b).outputs = s.outputs := rfl
@[simp] theorem State.setBatch_revertTime (s : State) (sl : SlotId) (b : Batch) : (s.setBatch sl b).revertTime = s.revertTime := rfl
@[simp] theorem State.setBatch_started (s : State) (sl : SlotId) (b : Batch) : (s.setBatch sl b).started = s.started := rfl
@[simp] theorem State.setBatch_stageOut (s : State) (sl : SlotId) (b : Batch) : (s.setBatch sl b).stageOut = s.stageOut := rfl
@[simp] theorem State.setBatch_meter (s : State) (sl : SlotId) (b : Batch) : (s.setBatch sl b).meter = s.meter := rfl
@[simp] theorem State.setBatch_boundary (s : State) (sl : SlotId) (b : Batch) : (s.setBatch sl b).boundary = s.boundary := rfl
@[simp] theorem State.setBatch_overs (s : State) (sl : SlotId) (b : Batch) : (s.setBatch sl b).overs = s.overs := rfl
@[simp] theorem State.setBatch_domains (s : State) (sl : SlotId) (b : Batch) : (s.setBatch sl b).domains = s.domains := rfl
@[simp] theorem State.setBatch_panelQueue (s : State) (sl : SlotId) (b : Batch) : (s.setBatch sl b).panelQueue = s.panelQueue := rfl
@[simp] theorem State.setBatch_panelReserved (s : State) (sl : SlotId) (b : Batch) : (s.setBatch sl b).panelReserved = s.panelReserved := rfl
@[simp] theorem State.setBatch_panelReturn (s : State) (sl : SlotId) (b : Batch) : (s.setBatch sl b).panelReturn = s.panelReturn := rfl
@[simp] theorem State.setBatch_config (s : State) (sl : SlotId) (b : Batch) : (s.setBatch sl b).config = s.config := rfl
@[simp] theorem State.setBatch_memory (s : State) (sl : SlotId) (b : Batch) : (s.setBatch sl b).memory = s.memory := rfl
@[simp] theorem State.setBatch_free (s : State) (sl : SlotId) (b : Batch) : (s.setBatch sl b).free = s.free := rfl
@[simp] theorem State.setBatch_pending (s : State) (sl : SlotId) (b : Batch) : (s.setBatch sl b).pending = s.pending := rfl
@[simp] theorem State.setBatch_port (s : State) (sl : SlotId) (b : Batch) (q : LinkPort) : (s.setBatch sl b).port q = s.port q := rfl
@[simp] theorem State.setBatch_slot (s : State) (sl : SlotId) (b : Batch) (e : Desk) : (s.setBatch sl b).slot e = s.slot e := rfl
@[simp] theorem State.setBatch_lane (s : State) (sl : SlotId) (b : Batch) (e : Desk) : (s.setBatch sl b).lane e = s.lane e := rfl
@[simp] theorem State.setBatch_card (s : State) (sl : SlotId) (b : Batch) (k : Nat) : (s.setBatch sl b).card k = s.card k := rfl
@[simp] theorem State.setBatch_channel (s : State) (sl : SlotId) (b : Batch) (k : Nat) : (s.setBatch sl b).channel k = s.channel k := rfl
@[simp] theorem State.setBatch_inputComp (s : State) (sl : SlotId) (b : Batch) (k : Nat) : (s.setBatch sl b).inputComp k = s.inputComp k := rfl
@[simp] theorem State.setBatch_mix (s : State) (sl : SlotId) (b : Batch) (k : Nat) : (s.setBatch sl b).mix k = s.mix k := rfl
@[simp] theorem State.setBatch_output (s : State) (sl : SlotId) (b : Batch) (k : Nat) : (s.setBatch sl b).output k = s.output k := rfl
@[simp] theorem State.setBatch_bus (s : State) (sl : SlotId) (b : Batch) (k : Bus) : (s.setBatch sl b).bus k = s.bus k := rfl
@[simp] theorem State.setBatch_domain (s : State) (sl : SlotId) (b : Batch) (k : Nat) : (s.setBatch sl b).domain k = s.domain k := rfl
@[simp] theorem State.setBatch_slotState (s : State) (sl : SlotId) (b : Batch) (x : SlotId) : (s.setBatch sl b).slotState x = s.slotState x := by cases x <;> rfl

/-! ## The record that was changed -/

theorem State.port_modPort (s : State) (p q : LinkPort) (f : Port → Port) :
    (s.modPort p f).port q = if q = p then f (s.port p) else s.port q := PerPort.get_set ..

theorem State.slot_modSlot (s : State) (d e : Desk) (f : Slot → Slot) :
    (s.modSlot d f).slot e = if e = d then f (s.slot d) else s.slot e := PerDesk.get_set ..

theorem State.lane_modLane (s : State) (d e : Desk) (f : Lane → Lane) :
    (s.modLane d f).lane e = if e = d then f (s.lane d) else s.lane e := PerDesk.get_set ..

theorem State.bus_modBus (s : State) (b c : Bus) (f : BusRec → BusRec) :
    (s.modBus b f).bus c = if c = b then f (s.bus b) else s.bus c := PerBus.get_set ..

theorem State.batch_setBatch (s : State) (x y : SlotId) (b : Batch) :
    (s.setBatch x b).batch y = if y = x then b else s.batch y := PerSlot.get_set ..

@[simp] theorem State.port_modPort_same (s : State) (p : LinkPort) (f : Port → Port) : (s.modPort p f).port p = f (s.port p) := by
  simp [State.port_modPort]

@[simp] theorem State.slot_modSlot_same (s : State) (d : Desk) (f : Slot → Slot) : (s.modSlot d f).slot d = f (s.slot d) := by
  simp [State.slot_modSlot]

@[simp] theorem State.lane_modLane_same (s : State) (d : Desk) (f : Lane → Lane) : (s.modLane d f).lane d = f (s.lane d) := by
  simp [State.lane_modLane]

@[simp] theorem State.bus_modBus_same (s : State) (b : Bus) (f : BusRec → BusRec) : (s.modBus b f).bus b = f (s.bus b) := by
  simp [State.bus_modBus]

@[simp] theorem State.batch_setBatch_same (s : State) (x : SlotId) (b : Batch) : (s.setBatch x b).batch x = b := by
  simp [State.batch_setBatch]

/-- A channel of the table after a change of it. -/
theorem State.channel_modChannel_same (s : State) (i : Nat) (f : Channel → Channel) (h : i < s.channels.length) :
    (s.modChannel i f).channel i = f (s.channel i) := nth_modNth_same _ _ _ _ h

/-- The other channels stand. -/
theorem State.channel_modChannel_ne (s : State) (i j : Nat) (f : Channel → Channel) (h : i ≠ j) :
    (s.modChannel i f).channel j = s.channel j := nth_modNth_ne _ _ _ _ _ h

/-- An output of the table after a change of it. -/
theorem State.output_modOutput_same (s : State) (o : Nat) (f : Output → Output) (h : o < s.outputs.length) :
    (s.modOutput o f).output o = f (s.output o) := nth_modNth_same _ _ _ _ h

/-- The other outputs stand. -/
theorem State.output_modOutput_ne (s : State) (o j : Nat) (f : Output → Output) (h : o ≠ j) :
    (s.modOutput o f).output j = s.output j := nth_modNth_ne _ _ _ _ _ h

/-- A mix of the table after a change of it. -/
theorem State.mix_modMix_same (s : State) (m : Nat) (f : Mix → Mix) (h : m < s.mixes.length) :
    (s.modMix m f).mix m = f (s.mix m) := nth_modNth_same _ _ _ _ h

/-- The other mixes stand. -/
theorem State.mix_modMix_ne (s : State) (m j : Nat) (f : Mix → Mix) (h : m ≠ j) : (s.modMix m f).mix j = s.mix j :=
  nth_modNth_ne _ _ _ _ _ h

/-- A domain of the table after a change of it. -/
theorem State.domain_modDomain_same (s : State) (n : Nat) (f : Domain → Domain) (h : n < s.domains.length) :
    (s.modDomain n f).domain n = f (s.domain n) := nth_modNth_same _ _ _ _ h

/-- The other domains stand. -/
theorem State.domain_modDomain_ne (s : State) (n j : Nat) (f : Domain → Domain) (h : n ≠ j) :
    (s.modDomain n f).domain j = s.domain j := nth_modNth_ne _ _ _ _ _ h

end Sys2Proof.Machine
end

