-- ==== Sys2Proof/Laws/Frames.lean ====
section
/-!
SUPPORT. Frames: for each operation over the state, the fields it leaves as they are. A proof about a field cites these instead of unfolding the operations that do not touch it.
-/
namespace Sys2Proof.Machine

/-! ## Runs over a list -/

@[simp] theorem State.foldOver_powered {α : Type} (f : α → State → State) (h : ∀ x s, (f x s).powered = s.powered) (l : List α)
    (s : State) : (State.foldOver f l s).powered = s.powered := State.foldOver_field State.powered f h l s
@[simp] theorem State.foldOver_pending {α : Type} (f : α → State → State) (h : ∀ x s, (f x s).pending = s.pending) (l : List α)
    (s : State) : (State.foldOver f l s).pending = s.pending := State.foldOver_field State.pending f h l s
@[simp] theorem State.foldOver_unitNumber {α : Type} (f : α → State → State) (h : ∀ x s, (f x s).unitNumber = s.unitNumber) (l : List α)
    (s : State) : (State.foldOver f l s).unitNumber = s.unitNumber := State.foldOver_field State.unitNumber f h l s
@[simp] theorem State.foldOver_frameCounter {α : Type} (f : α → State → State) (h : ∀ x s, (f x s).frameCounter = s.frameCounter) (l : List α)
    (s : State) : (State.foldOver f l s).frameCounter = s.frameCounter := State.foldOver_field State.frameCounter f h l s
@[simp] theorem State.foldOver_memory {α : Type} (f : α → State → State) (h : ∀ x s, (f x s).memory = s.memory) (l : List α)
    (s : State) : (State.foldOver f l s).memory = s.memory := State.foldOver_field State.memory f h l s
@[simp] theorem State.foldOver_ports {α : Type} (f : α → State → State) (h : ∀ x s, (f x s).ports = s.ports) (l : List α)
    (s : State) : (State.foldOver f l s).ports = s.ports := State.foldOver_field State.ports f h l s
@[simp] theorem State.foldOver_slots {α : Type} (f : α → State → State) (h : ∀ x s, (f x s).slots = s.slots) (l : List α)
    (s : State) : (State.foldOver f l s).slots = s.slots := State.foldOver_field State.slots f h l s
@[simp] theorem State.foldOver_waitList {α : Type} (f : α → State → State) (h : ∀ x s, (f x s).waitList = s.waitList) (l : List α)
    (s : State) : (State.foldOver f l s).waitList = s.waitList := State.foldOver_field State.waitList f h l s
@[simp] theorem State.foldOver_channels {α : Type} (f : α → State → State) (h : ∀ x s, (f x s).channels = s.channels) (l : List α)
    (s : State) : (State.foldOver f l s).channels = s.channels := State.foldOver_field State.channels f h l s
@[simp] theorem State.foldOver_comp {α : Type} (f : α → State → State) (h : ∀ x s, (f x s).comp = s.comp) (l : List α)
    (s : State) : (State.foldOver f l s).comp = s.comp := State.foldOver_field State.comp f h l s
@[simp] theorem State.foldOver_outputs {α : Type} (f : α → State → State) (h : ∀ x s, (f x s).outputs = s.outputs) (l : List α)
    (s : State) : (State.foldOver f l s).outputs = s.outputs := State.foldOver_field State.outputs f h l s
@[simp] theorem State.foldOver_buses {α : Type} (f : α → State → State) (h : ∀ x s, (f x s).buses = s.buses) (l : List α)
    (s : State) : (State.foldOver f l s).buses = s.buses := State.foldOver_field State.buses f h l s
@[simp] theorem State.foldOver_domains {α : Type} (f : α → State → State) (h : ∀ x s, (f x s).domains = s.domains) (l : List α)
    (s : State) : (State.foldOver f l s).domains = s.domains := State.foldOver_field State.domains f h l s
@[simp] theorem State.foldOver_started {α : Type} (f : α → State → State) (h : ∀ x s, (f x s).started = s.started) (l : List α)
    (s : State) : (State.foldOver f l s).started = s.started := State.foldOver_field State.started f h l s
@[simp] theorem State.foldOver_config {α : Type} (f : α → State → State) (h : ∀ x s, (f x s).config = s.config) (l : List α)
    (s : State) : (State.foldOver f l s).config = s.config := State.foldOver_field State.config f h l s
@[simp] theorem State.foldOver_panelQueue {α : Type} (f : α → State → State) (h : ∀ x s, (f x s).panelQueue = s.panelQueue) (l : List α)
    (s : State) : (State.foldOver f l s).panelQueue = s.panelQueue := State.foldOver_field State.panelQueue f h l s
@[simp] theorem State.foldOver_panelReserved {α : Type} (f : α → State → State) (h : ∀ x s, (f x s).panelReserved = s.panelReserved) (l : List α)
    (s : State) : (State.foldOver f l s).panelReserved = s.panelReserved := State.foldOver_field State.panelReserved f h l s

/-! ## Operations, in the order of the files that declare them -/

@[simp] theorem State.modCell_frame (s : State) (i : Nat) (c : Fin 4) (f : Int → Cell → Cell) :
    (s.modCell i c f).powered = s.powered ∧
    (s.modCell i c f).pending = s.pending ∧
    (s.modCell i c f).unitNumber = s.unitNumber ∧
    (s.modCell i c f).frameCounter = s.frameCounter ∧
    (s.modCell i c f).memory = s.memory ∧
    (s.modCell i c f).ports = s.ports ∧
    (s.modCell i c f).slots = s.slots ∧
    (s.modCell i c f).waitList = s.waitList ∧
    (s.modCell i c f).channels = s.channels ∧
    (s.modCell i c f).outputs = s.outputs ∧
    (s.modCell i c f).buses = s.buses ∧
    (s.modCell i c f).domains = s.domains ∧
    (s.modCell i c f).started = s.started ∧
    (s.modCell i c f).config = s.config ∧
    (s.modCell i c f).panelQueue = s.panelQueue ∧
    (s.modCell i c f).panelReserved = s.panelReserved := by
  refine ⟨rfl, rfl, rfl, rfl, rfl, rfl, rfl, rfl, rfl, rfl, rfl, rfl, rfl, rfl, rfl, rfl⟩
@[simp] theorem Reply.state_refuse (s : State) (r : Result) : (Reply.refuse s r).state = s := rfl
@[simp] theorem Reply.state_plain (x : State × Result) : (Reply.plain x).state = x.1 := rfl

@[simp] theorem State.sourceLost_frame (code : Nat) (s : State) :
    (State.sourceLost code s).powered = s.powered ∧ (State.sourceLost code s).pending = s.pending ∧
    (State.sourceLost code s).unitNumber = s.unitNumber ∧ (State.sourceLost code s).frameCounter = s.frameCounter ∧
    (State.sourceLost code s).memory = s.memory ∧ (State.sourceLost code s).ports = s.ports ∧
    (State.sourceLost code s).slots = s.slots ∧ (State.sourceLost code s).waitList = s.waitList ∧
    (State.sourceLost code s).channels = s.channels ∧ (State.sourceLost code s).comp = s.comp ∧
    (State.sourceLost code s).buses = s.buses ∧ (State.sourceLost code s).domains = s.domains ∧
    (State.sourceLost code s).started = s.started ∧ (State.sourceLost code s).config = s.config ∧
    (State.sourceLost code s).panelQueue = s.panelQueue ∧ (State.sourceLost code s).panelReserved = s.panelReserved := by
  unfold State.sourceLost
  try dsimp only
  repeat' split
  all_goals simp

@[simp] theorem State.sourceRegained_frame (code : Nat) (s : State) :
    (State.sourceRegained code s).powered = s.powered ∧ (State.sourceRegained code s).pending = s.pending ∧
    (State.sourceRegained code s).unitNumber = s.unitNumber ∧
    (State.sourceRegained code s).frameCounter = s.frameCounter ∧ (State.sourceRegained code s).memory = s.memory ∧
    (State.sourceRegained code s).ports = s.ports ∧ (State.sourceRegained code s).slots = s.slots ∧
    (State.sourceRegained code s).waitList = s.waitList ∧ (State.sourceRegained code s).channels = s.channels ∧
    (State.sourceRegained code s).comp = s.comp ∧ (State.sourceRegained code s).buses = s.buses ∧
    (State.sourceRegained code s).domains = s.domains ∧ (State.sourceRegained code s).started = s.started ∧
    (State.sourceRegained code s).config = s.config ∧ (State.sourceRegained code s).panelQueue = s.panelQueue ∧
    (State.sourceRegained code s).panelReserved = s.panelReserved := by
  unfold State.sourceRegained
  try dsimp only
  repeat' split
  all_goals simp

@[simp] theorem State.returnsLost_frame (d : Desk) (s : State) :
    (State.returnsLost d s).powered = s.powered ∧ (State.returnsLost d s).pending = s.pending ∧
    (State.returnsLost d s).unitNumber = s.unitNumber ∧ (State.returnsLost d s).frameCounter = s.frameCounter ∧
    (State.returnsLost d s).memory = s.memory ∧ (State.returnsLost d s).ports = s.ports ∧
    (State.returnsLost d s).slots = s.slots ∧ (State.returnsLost d s).waitList = s.waitList ∧
    (State.returnsLost d s).channels = s.channels ∧ (State.returnsLost d s).comp = s.comp ∧
    (State.returnsLost d s).buses = s.buses ∧ (State.returnsLost d s).domains = s.domains ∧
    (State.returnsLost d s).started = s.started ∧ (State.returnsLost d s).config = s.config ∧
    (State.returnsLost d s).panelQueue = s.panelQueue ∧ (State.returnsLost d s).panelReserved = s.panelReserved := by
  unfold State.returnsLost
  try dsimp only
  repeat' split
  all_goals simp

@[simp] theorem State.returnsRegained_frame (d : Desk) (s : State) :
    (State.returnsRegained d s).powered = s.powered ∧ (State.returnsRegained d s).pending = s.pending ∧
    (State.returnsRegained d s).unitNumber = s.unitNumber ∧
    (State.returnsRegained d s).frameCounter = s.frameCounter ∧ (State.returnsRegained d s).memory = s.memory ∧
    (State.returnsRegained d s).ports = s.ports ∧ (State.returnsRegained d s).slots = s.slots ∧
    (State.returnsRegained d s).waitList = s.waitList ∧ (State.returnsRegained d s).channels = s.channels ∧
    (State.returnsRegained d s).comp = s.comp ∧ (State.returnsRegained d s).buses = s.buses ∧
    (State.returnsRegained d s).domains = s.domains ∧ (State.returnsRegained d s).started = s.started ∧
    (State.returnsRegained d s).config = s.config ∧ (State.returnsRegained d s).panelQueue = s.panelQueue ∧
    (State.returnsRegained d s).panelReserved = s.panelReserved := by
  unfold State.returnsRegained
  try dsimp only
  repeat' split
  all_goals simp

@[simp] theorem State.writePrimary_frame (o code : Nat) (s : State) :
    (State.writePrimary o code s).powered = s.powered ∧ (State.writePrimary o code s).pending = s.pending ∧
    (State.writePrimary o code s).unitNumber = s.unitNumber ∧
    (State.writePrimary o code s).frameCounter = s.frameCounter ∧ (State.writePrimary o code s).memory = s.memory ∧
    (State.writePrimary o code s).ports = s.ports ∧ (State.writePrimary o code s).slots = s.slots ∧
    (State.writePrimary o code s).waitList = s.waitList ∧ (State.writePrimary o code s).channels = s.channels ∧
    (State.writePrimary o code s).comp = s.comp ∧ (State.writePrimary o code s).buses = s.buses ∧
    (State.writePrimary o code s).domains = s.domains ∧ (State.writePrimary o code s).started = s.started ∧
    (State.writePrimary o code s).config = s.config ∧ (State.writePrimary o code s).panelQueue = s.panelQueue ∧
    (State.writePrimary o code s).panelReserved = s.panelReserved := by
  unfold State.writePrimary
  try dsimp only
  repeat' split
  all_goals simp

@[simp] theorem State.writeFallback_frame (o code : Nat) (s : State) :
    (State.writeFallback o code s).powered = s.powered ∧ (State.writeFallback o code s).pending = s.pending ∧
    (State.writeFallback o code s).unitNumber = s.unitNumber ∧
    (State.writeFallback o code s).frameCounter = s.frameCounter ∧ (State.writeFallback o code s).memory = s.memory ∧
    (State.writeFallback o code s).ports = s.ports ∧ (State.writeFallback o code s).slots = s.slots ∧
    (State.writeFallback o code s).waitList = s.waitList ∧ (State.writeFallback o code s).channels = s.channels ∧
    (State.writeFallback o code s).comp = s.comp ∧ (State.writeFallback o code s).buses = s.buses ∧
    (State.writeFallback o code s).domains = s.domains ∧ (State.writeFallback o code s).started = s.started ∧
    (State.writeFallback o code s).config = s.config ∧ (State.writeFallback o code s).panelQueue = s.panelQueue ∧
    (State.writeFallback o code s).panelReserved = s.panelReserved := by
  unfold State.writeFallback
  try dsimp only
  repeat' split
  all_goals simp

@[simp] theorem State.setPatch_frame (o primary : Nat) (fallback : Option Nat) (level : Option Int) (ov : Override) (s : State) :
    (State.setPatch o primary fallback level ov s).powered = s.powered ∧
    (State.setPatch o primary fallback level ov s).pending = s.pending ∧
    (State.setPatch o primary fallback level ov s).unitNumber = s.unitNumber ∧
    (State.setPatch o primary fallback level ov s).frameCounter = s.frameCounter ∧
    (State.setPatch o primary fallback level ov s).memory = s.memory ∧
    (State.setPatch o primary fallback level ov s).ports = s.ports ∧
    (State.setPatch o primary fallback level ov s).slots = s.slots ∧
    (State.setPatch o primary fallback level ov s).waitList = s.waitList ∧
    (State.setPatch o primary fallback level ov s).channels = s.channels ∧
    (State.setPatch o primary fallback level ov s).comp = s.comp ∧
    (State.setPatch o primary fallback level ov s).buses = s.buses ∧
    (State.setPatch o primary fallback level ov s).domains = s.domains ∧
    (State.setPatch o primary fallback level ov s).started = s.started ∧
    (State.setPatch o primary fallback level ov s).config = s.config ∧
    (State.setPatch o primary fallback level ov s).panelQueue = s.panelQueue ∧
    (State.setPatch o primary fallback level ov s).panelReserved = s.panelReserved := by
  unfold State.setPatch
  try dsimp only
  repeat' split
  all_goals simp

@[simp] theorem State.leaveBuses_frame (sl : SlotId) (s : State) :
    (State.leaveBuses sl s).powered = s.powered ∧ (State.leaveBuses sl s).pending = s.pending ∧
    (State.leaveBuses sl s).unitNumber = s.unitNumber ∧ (State.leaveBuses sl s).frameCounter = s.frameCounter ∧
    (State.leaveBuses sl s).memory = s.memory ∧ (State.leaveBuses sl s).ports = s.ports ∧
    (State.leaveBuses sl s).slots = s.slots ∧ (State.leaveBuses sl s).waitList = s.waitList ∧
    (State.leaveBuses sl s).channels = s.channels ∧ (State.leaveBuses sl s).comp = s.comp ∧
    (State.leaveBuses sl s).outputs = s.outputs ∧ (State.leaveBuses sl s).domains = s.domains ∧
    (State.leaveBuses sl s).started = s.started ∧ (State.leaveBuses sl s).config = s.config ∧
    (State.leaveBuses sl s).panelQueue = s.panelQueue ∧ (State.leaveBuses sl s).panelReserved = s.panelReserved := by
  unfold State.leaveBuses
  try dsimp only
  repeat' split
  all_goals simp

@[simp] theorem State.reorderBuses_frame (sl : SlotId) (s : State) :
    (State.reorderBuses sl s).powered = s.powered ∧ (State.reorderBuses sl s).pending = s.pending ∧
    (State.reorderBuses sl s).unitNumber = s.unitNumber ∧ (State.reorderBuses sl s).frameCounter = s.frameCounter ∧
    (State.reorderBuses sl s).memory = s.memory ∧ (State.reorderBuses sl s).ports = s.ports ∧
    (State.reorderBuses sl s).slots = s.slots ∧ (State.reorderBuses sl s).waitList = s.waitList ∧
    (State.reorderBuses sl s).channels = s.channels ∧ (State.reorderBuses sl s).comp = s.comp ∧
    (State.reorderBuses sl s).outputs = s.outputs ∧ (State.reorderBuses sl s).domains = s.domains ∧
    (State.reorderBuses sl s).started = s.started ∧ (State.reorderBuses sl s).config = s.config ∧
    (State.reorderBuses sl s).panelQueue = s.panelQueue ∧ (State.reorderBuses sl s).panelReserved = s.panelReserved := by
  unfold State.reorderBuses
  try dsimp only
  repeat' split
  all_goals simp

@[simp] theorem State.talkPress_frame (sl : SlotId) (n : Nat) (s : State) :
    (State.talkPress sl n s).1.powered = s.powered ∧ (State.talkPress sl n s).1.pending = s.pending ∧
    (State.talkPress sl n s).1.unitNumber = s.unitNumber ∧ (State.talkPress sl n s).1.frameCounter = s.frameCounter ∧
    (State.talkPress sl n s).1.memory = s.memory ∧ (State.talkPress sl n s).1.ports = s.ports ∧
    (State.talkPress sl n s).1.slots = s.slots ∧ (State.talkPress sl n s).1.waitList = s.waitList ∧
    (State.talkPress sl n s).1.channels = s.channels ∧ (State.talkPress sl n s).1.comp = s.comp ∧
    (State.talkPress sl n s).1.outputs = s.outputs ∧ (State.talkPress sl n s).1.domains = s.domains ∧
    (State.talkPress sl n s).1.started = s.started ∧ (State.talkPress sl n s).1.config = s.config ∧
    (State.talkPress sl n s).1.panelQueue = s.panelQueue ∧ (State.talkPress sl n s).1.panelReserved = s.panelReserved := by
  unfold State.talkPress
  try dsimp only
  repeat' split
  all_goals simp

@[simp] theorem State.talkRelease_frame (sl : SlotId) (n : Nat) (s : State) :
    (State.talkRelease sl n s).1.powered = s.powered ∧ (State.talkRelease sl n s).1.pending = s.pending ∧
    (State.talkRelease sl n s).1.unitNumber = s.unitNumber ∧
    (State.talkRelease sl n s).1.frameCounter = s.frameCounter ∧ (State.talkRelease sl n s).1.memory = s.memory ∧
    (State.talkRelease sl n s).1.ports = s.ports ∧ (State.talkRelease sl n s).1.slots = s.slots ∧
    (State.talkRelease sl n s).1.waitList = s.waitList ∧ (State.talkRelease sl n s).1.channels = s.channels ∧
    (State.talkRelease sl n s).1.comp = s.comp ∧ (State.talkRelease sl n s).1.outputs = s.outputs ∧
    (State.talkRelease sl n s).1.domains = s.domains ∧ (State.talkRelease sl n s).1.started = s.started ∧
    (State.talkRelease sl n s).1.config = s.config ∧ (State.talkRelease sl n s).1.panelQueue = s.panelQueue ∧
    (State.talkRelease sl n s).1.panelReserved = s.panelReserved := by
  unfold State.talkRelease
  try dsimp only
  repeat' split
  all_goals simp

@[simp] theorem State.rebaseInputs_frame (col : Fin 4) (first last : Nat) (s : State) :
    (State.rebaseInputs col first last s).powered = s.powered ∧
    (State.rebaseInputs col first last s).pending = s.pending ∧
    (State.rebaseInputs col first last s).unitNumber = s.unitNumber ∧
    (State.rebaseInputs col first last s).frameCounter = s.frameCounter ∧
    (State.rebaseInputs col first last s).memory = s.memory ∧ (State.rebaseInputs col first last s).ports = s.ports ∧
    (State.rebaseInputs col first last s).slots = s.slots ∧
    (State.rebaseInputs col first last s).waitList = s.waitList ∧
    (State.rebaseInputs col first last s).channels = s.channels ∧
    (State.rebaseInputs col first last s).outputs = s.outputs ∧
    (State.rebaseInputs col first last s).buses = s.buses ∧
    (State.rebaseInputs col first last s).domains = s.domains ∧
    (State.rebaseInputs col first last s).started = s.started ∧
    (State.rebaseInputs col first last s).config = s.config ∧
    (State.rebaseInputs col first last s).panelQueue = s.panelQueue ∧
    (State.rebaseInputs col first last s).panelReserved = s.panelReserved := by
  unfold State.rebaseInputs
  try dsimp only
  repeat' split
  all_goals simp

@[simp] theorem State.resetColumn_frame (col : Fin 4) (s : State) :
    (State.resetColumn col s).powered = s.powered ∧ (State.resetColumn col s).pending = s.pending ∧
    (State.resetColumn col s).unitNumber = s.unitNumber ∧ (State.resetColumn col s).frameCounter = s.frameCounter ∧
    (State.resetColumn col s).memory = s.memory ∧ (State.resetColumn col s).ports = s.ports ∧
    (State.resetColumn col s).slots = s.slots ∧ (State.resetColumn col s).waitList = s.waitList ∧
    (State.resetColumn col s).channels = s.channels ∧ (State.resetColumn col s).outputs = s.outputs ∧
    (State.resetColumn col s).buses = s.buses ∧ (State.resetColumn col s).domains = s.domains ∧
    (State.resetColumn col s).started = s.started ∧ (State.resetColumn col s).config = s.config ∧
    (State.resetColumn col s).panelQueue = s.panelQueue ∧ (State.resetColumn col s).panelReserved = s.panelReserved := by
  unfold State.resetColumn
  try dsimp only
  repeat' split
  all_goals simp

@[simp] theorem State.trimRampStep_frame (i : Fin 64) (col : Fin 4) (s : State) :
    (State.trimRampStep i col s).powered = s.powered ∧ (State.trimRampStep i col s).pending = s.pending ∧
    (State.trimRampStep i col s).unitNumber = s.unitNumber ∧
    (State.trimRampStep i col s).frameCounter = s.frameCounter ∧ (State.trimRampStep i col s).memory = s.memory ∧
    (State.trimRampStep i col s).ports = s.ports ∧ (State.trimRampStep i col s).slots = s.slots ∧
    (State.trimRampStep i col s).waitList = s.waitList ∧ (State.trimRampStep i col s).channels = s.channels ∧
    (State.trimRampStep i col s).outputs = s.outputs ∧ (State.trimRampStep i col s).buses = s.buses ∧
    (State.trimRampStep i col s).domains = s.domains ∧ (State.trimRampStep i col s).started = s.started ∧
    (State.trimRampStep i col s).config = s.config ∧ (State.trimRampStep i col s).panelQueue = s.panelQueue ∧
    (State.trimRampStep i col s).panelReserved = s.panelReserved := by
  unfold State.trimRampStep
  try dsimp only
  repeat' split
  all_goals simp

@[simp] theorem State.modLevel_frame (s : State) (r : LevelRef) (f : Level → Level) :
    (State.modLevel s r f).powered = s.powered ∧ (State.modLevel s r f).pending = s.pending ∧
    (State.modLevel s r f).unitNumber = s.unitNumber ∧ (State.modLevel s r f).frameCounter = s.frameCounter ∧
    (State.modLevel s r f).memory = s.memory ∧ (State.modLevel s r f).ports = s.ports ∧
    (State.modLevel s r f).slots = s.slots ∧ (State.modLevel s r f).waitList = s.waitList ∧
    (State.modLevel s r f).channels = s.channels ∧ (State.modLevel s r f).comp = s.comp ∧
    (State.modLevel s r f).buses = s.buses ∧ (State.modLevel s r f).domains = s.domains ∧
    (State.modLevel s r f).started = s.started ∧ (State.modLevel s r f).config = s.config ∧
    (State.modLevel s r f).panelQueue = s.panelQueue ∧ (State.modLevel s r f).panelReserved = s.panelReserved := by
  unfold State.modLevel
  try dsimp only
  repeat' split
  all_goals simp

@[simp] theorem State.levelRampStep_frame (r : LevelRef) (s : State) :
    (State.levelRampStep r s).powered = s.powered ∧ (State.levelRampStep r s).pending = s.pending ∧
    (State.levelRampStep r s).unitNumber = s.unitNumber ∧ (State.levelRampStep r s).frameCounter = s.frameCounter ∧
    (State.levelRampStep r s).memory = s.memory ∧ (State.levelRampStep r s).ports = s.ports ∧
    (State.levelRampStep r s).slots = s.slots ∧ (State.levelRampStep r s).waitList = s.waitList ∧
    (State.levelRampStep r s).channels = s.channels ∧ (State.levelRampStep r s).comp = s.comp ∧
    (State.levelRampStep r s).buses = s.buses ∧ (State.levelRampStep r s).domains = s.domains ∧
    (State.levelRampStep r s).started = s.started ∧ (State.levelRampStep r s).config = s.config ∧
    (State.levelRampStep r s).panelQueue = s.panelQueue ∧ (State.levelRampStep r s).panelReserved = s.panelReserved := by
  unfold State.levelRampStep
  try dsimp only
  repeat' split
  all_goals simp

@[simp] theorem State.duckReleaseStep_frame (k : Fin 24) (s : State) :
    (State.duckReleaseStep k s).powered = s.powered ∧ (State.duckReleaseStep k s).pending = s.pending ∧
    (State.duckReleaseStep k s).unitNumber = s.unitNumber ∧
    (State.duckReleaseStep k s).frameCounter = s.frameCounter ∧ (State.duckReleaseStep k s).memory = s.memory ∧
    (State.duckReleaseStep k s).ports = s.ports ∧ (State.duckReleaseStep k s).slots = s.slots ∧
    (State.duckReleaseStep k s).waitList = s.waitList ∧ (State.duckReleaseStep k s).channels = s.channels ∧
    (State.duckReleaseStep k s).comp = s.comp ∧ (State.duckReleaseStep k s).outputs = s.outputs ∧
    (State.duckReleaseStep k s).buses = s.buses ∧ (State.duckReleaseStep k s).domains = s.domains ∧
    (State.duckReleaseStep k s).started = s.started ∧ (State.duckReleaseStep k s).config = s.config ∧
    (State.duckReleaseStep k s).panelQueue = s.panelQueue ∧
    (State.duckReleaseStep k s).panelReserved = s.panelReserved := by
  unfold State.duckReleaseStep
  try dsimp only
  repeat' split
  all_goals simp

@[simp] theorem State.queueChannel_frame (i : Fin 64) (s : State) :
    (State.queueChannel i s).powered = s.powered ∧ (State.queueChannel i s).pending = s.pending ∧
    (State.queueChannel i s).unitNumber = s.unitNumber ∧ (State.queueChannel i s).frameCounter = s.frameCounter ∧
    (State.queueChannel i s).memory = s.memory ∧ (State.queueChannel i s).ports = s.ports ∧
    (State.queueChannel i s).slots = s.slots ∧ (State.queueChannel i s).waitList = s.waitList ∧
    (State.queueChannel i s).comp = s.comp ∧ (State.queueChannel i s).outputs = s.outputs ∧
    (State.queueChannel i s).buses = s.buses ∧ (State.queueChannel i s).domains = s.domains ∧
    (State.queueChannel i s).started = s.started ∧ (State.queueChannel i s).config = s.config ∧
    (State.queueChannel i s).panelQueue = s.panelQueue ∧ (State.queueChannel i s).panelReserved = s.panelReserved := by
  unfold State.queueChannel
  try dsimp only
  repeat' split
  all_goals simp

@[simp] theorem State.queueIfDiffers_frame (i : Fin 64) (s : State) :
    (State.queueIfDiffers i s).powered = s.powered ∧ (State.queueIfDiffers i s).pending = s.pending ∧
    (State.queueIfDiffers i s).unitNumber = s.unitNumber ∧ (State.queueIfDiffers i s).frameCounter = s.frameCounter ∧
    (State.queueIfDiffers i s).memory = s.memory ∧ (State.queueIfDiffers i s).ports = s.ports ∧
    (State.queueIfDiffers i s).slots = s.slots ∧ (State.queueIfDiffers i s).waitList = s.waitList ∧
    (State.queueIfDiffers i s).comp = s.comp ∧ (State.queueIfDiffers i s).outputs = s.outputs ∧
    (State.queueIfDiffers i s).buses = s.buses ∧ (State.queueIfDiffers i s).domains = s.domains ∧
    (State.queueIfDiffers i s).started = s.started ∧ (State.queueIfDiffers i s).config = s.config ∧
    (State.queueIfDiffers i s).panelQueue = s.panelQueue ∧ (State.queueIfDiffers i s).panelReserved = s.panelReserved := by
  unfold State.queueIfDiffers
  try dsimp only
  repeat' split
  all_goals simp

@[simp] theorem State.queueIfReady_frame (i : Fin 64) (s : State) :
    (State.queueIfReady i s).powered = s.powered ∧ (State.queueIfReady i s).pending = s.pending ∧
    (State.queueIfReady i s).unitNumber = s.unitNumber ∧ (State.queueIfReady i s).frameCounter = s.frameCounter ∧
    (State.queueIfReady i s).memory = s.memory ∧ (State.queueIfReady i s).ports = s.ports ∧
    (State.queueIfReady i s).slots = s.slots ∧ (State.queueIfReady i s).waitList = s.waitList ∧
    (State.queueIfReady i s).comp = s.comp ∧ (State.queueIfReady i s).outputs = s.outputs ∧
    (State.queueIfReady i s).buses = s.buses ∧ (State.queueIfReady i s).domains = s.domains ∧
    (State.queueIfReady i s).started = s.started ∧ (State.queueIfReady i s).config = s.config ∧
    (State.queueIfReady i s).panelQueue = s.panelQueue ∧ (State.queueIfReady i s).panelReserved = s.panelReserved := by
  unfold State.queueIfReady
  try dsimp only
  repeat' split
  all_goals simp

@[simp] theorem State.writeDesired_frame (i : Fin 64) (f : Setting → Setting) (s : State) :
    (State.writeDesired i f s).powered = s.powered ∧ (State.writeDesired i f s).pending = s.pending ∧
    (State.writeDesired i f s).unitNumber = s.unitNumber ∧ (State.writeDesired i f s).frameCounter = s.frameCounter ∧
    (State.writeDesired i f s).memory = s.memory ∧ (State.writeDesired i f s).ports = s.ports ∧
    (State.writeDesired i f s).slots = s.slots ∧ (State.writeDesired i f s).waitList = s.waitList ∧
    (State.writeDesired i f s).comp = s.comp ∧ (State.writeDesired i f s).outputs = s.outputs ∧
    (State.writeDesired i f s).buses = s.buses ∧ (State.writeDesired i f s).domains = s.domains ∧
    (State.writeDesired i f s).started = s.started ∧ (State.writeDesired i f s).config = s.config ∧
    (State.writeDesired i f s).panelQueue = s.panelQueue ∧ (State.writeDesired i f s).panelReserved = s.panelReserved := by
  unfold State.writeDesired
  try dsimp only
  repeat' split
  all_goals simp

@[simp] theorem State.writePhantom_frame (i : Fin 64) (on : Bool) (s : State) :
    (State.writePhantom i on s).powered = s.powered ∧ (State.writePhantom i on s).pending = s.pending ∧
    (State.writePhantom i on s).unitNumber = s.unitNumber ∧
    (State.writePhantom i on s).frameCounter = s.frameCounter ∧ (State.writePhantom i on s).memory = s.memory ∧
    (State.writePhantom i on s).ports = s.ports ∧ (State.writePhantom i on s).slots = s.slots ∧
    (State.writePhantom i on s).waitList = s.waitList ∧ (State.writePhantom i on s).comp = s.comp ∧
    (State.writePhantom i on s).outputs = s.outputs ∧ (State.writePhantom i on s).buses = s.buses ∧
    (State.writePhantom i on s).domains = s.domains ∧ (State.writePhantom i on s).started = s.started ∧
    (State.writePhantom i on s).config = s.config ∧ (State.writePhantom i on s).panelQueue = s.panelQueue ∧
    (State.writePhantom i on s).panelReserved = s.panelReserved := by
  unfold State.writePhantom
  try dsimp only
  repeat' split
  all_goals simp

@[simp] theorem State.sendCommand_frame (i : Fin 64) (s : State) :
    (State.sendCommand i s).powered = s.powered ∧ (State.sendCommand i s).pending = s.pending ∧
    (State.sendCommand i s).unitNumber = s.unitNumber ∧ (State.sendCommand i s).frameCounter = s.frameCounter ∧
    (State.sendCommand i s).memory = s.memory ∧ (State.sendCommand i s).ports = s.ports ∧
    (State.sendCommand i s).slots = s.slots ∧ (State.sendCommand i s).waitList = s.waitList ∧
    (State.sendCommand i s).comp = s.comp ∧ (State.sendCommand i s).outputs = s.outputs ∧
    (State.sendCommand i s).buses = s.buses ∧ (State.sendCommand i s).domains = s.domains ∧
    (State.sendCommand i s).started = s.started ∧ (State.sendCommand i s).config = s.config ∧
    (State.sendCommand i s).panelQueue = s.panelQueue ∧ (State.sendCommand i s).panelReserved = s.panelReserved := by
  unfold State.sendCommand
  try dsimp only
  repeat' split
  all_goals simp

@[simp] theorem State.serveSendList_frame (l : List (Fin 64)) (s : State) :
    (State.serveSendList l s).1.powered = s.powered ∧ (State.serveSendList l s).1.pending = s.pending ∧
    (State.serveSendList l s).1.unitNumber = s.unitNumber ∧
    (State.serveSendList l s).1.frameCounter = s.frameCounter ∧ (State.serveSendList l s).1.memory = s.memory ∧
    (State.serveSendList l s).1.ports = s.ports ∧ (State.serveSendList l s).1.slots = s.slots ∧
    (State.serveSendList l s).1.waitList = s.waitList ∧ (State.serveSendList l s).1.comp = s.comp ∧
    (State.serveSendList l s).1.outputs = s.outputs ∧ (State.serveSendList l s).1.buses = s.buses ∧
    (State.serveSendList l s).1.domains = s.domains ∧ (State.serveSendList l s).1.started = s.started ∧
    (State.serveSendList l s).1.config = s.config ∧ (State.serveSendList l s).1.panelQueue = s.panelQueue ∧
    (State.serveSendList l s).1.panelReserved = s.panelReserved := by
  induction l generalizing s with
  | nil => exact ⟨rfl, rfl, rfl, rfl, rfl, rfl, rfl, rfl, rfl, rfl, rfl, rfl, rfl, rfl, rfl, rfl⟩
  | cons x xs ih =>
    dsimp only [State.serveSendList]
    repeat' split
    all_goals simp [ih]

@[simp] theorem State.serveQueue_frame (l : List (Fin 64)) (s : State) :
    (State.serveQueue l s).powered = s.powered ∧ (State.serveQueue l s).pending = s.pending ∧
    (State.serveQueue l s).unitNumber = s.unitNumber ∧ (State.serveQueue l s).frameCounter = s.frameCounter ∧
    (State.serveQueue l s).memory = s.memory ∧ (State.serveQueue l s).ports = s.ports ∧
    (State.serveQueue l s).slots = s.slots ∧ (State.serveQueue l s).waitList = s.waitList ∧
    (State.serveQueue l s).comp = s.comp ∧ (State.serveQueue l s).outputs = s.outputs ∧
    (State.serveQueue l s).buses = s.buses ∧ (State.serveQueue l s).domains = s.domains ∧
    (State.serveQueue l s).started = s.started ∧ (State.serveQueue l s).config = s.config ∧
    (State.serveQueue l s).panelQueue = s.panelQueue ∧ (State.serveQueue l s).panelReserved = s.panelReserved := by
  induction l generalizing s with
  | nil => exact ⟨rfl, rfl, rfl, rfl, rfl, rfl, rfl, rfl, rfl, rfl, rfl, rfl, rfl, rfl, rfl, rfl⟩
  | cons x xs ih =>
    dsimp only [State.serveQueue]
    repeat' split
    all_goals simp [ih]

@[simp] theorem State.serveSetting_frame (s : State) :
    (State.serveSetting s).powered = s.powered ∧ (State.serveSetting s).pending = s.pending ∧
    (State.serveSetting s).unitNumber = s.unitNumber ∧ (State.serveSetting s).frameCounter = s.frameCounter ∧
    (State.serveSetting s).memory = s.memory ∧ (State.serveSetting s).ports = s.ports ∧
    (State.serveSetting s).slots = s.slots ∧ (State.serveSetting s).waitList = s.waitList ∧
    (State.serveSetting s).comp = s.comp ∧ (State.serveSetting s).outputs = s.outputs ∧
    (State.serveSetting s).buses = s.buses ∧ (State.serveSetting s).domains = s.domains ∧
    (State.serveSetting s).started = s.started ∧ (State.serveSetting s).config = s.config ∧
    (State.serveSetting s).panelQueue = s.panelQueue ∧ (State.serveSetting s).panelReserved = s.panelReserved := by
  unfold State.serveSetting
  try dsimp only
  repeat' split
  all_goals simp

@[simp] theorem State.endOperation_frame (i : Fin 64) (s : State) :
    (State.endOperation i s).powered = s.powered ∧ (State.endOperation i s).pending = s.pending ∧
    (State.endOperation i s).unitNumber = s.unitNumber ∧ (State.endOperation i s).frameCounter = s.frameCounter ∧
    (State.endOperation i s).memory = s.memory ∧ (State.endOperation i s).ports = s.ports ∧
    (State.endOperation i s).slots = s.slots ∧ (State.endOperation i s).waitList = s.waitList ∧
    (State.endOperation i s).comp = s.comp ∧ (State.endOperation i s).outputs = s.outputs ∧
    (State.endOperation i s).buses = s.buses ∧ (State.endOperation i s).domains = s.domains ∧
    (State.endOperation i s).started = s.started ∧ (State.endOperation i s).config = s.config ∧
    (State.endOperation i s).panelQueue = s.panelQueue ∧ (State.endOperation i s).panelReserved = s.panelReserved := by
  unfold State.endOperation
  try dsimp only
  repeat' split
  all_goals simp

@[simp] theorem State.failExchange_frame (i : Fin 64) (s : State) :
    (State.failExchange i s).powered = s.powered ∧ (State.failExchange i s).pending = s.pending ∧
    (State.failExchange i s).unitNumber = s.unitNumber ∧ (State.failExchange i s).frameCounter = s.frameCounter ∧
    (State.failExchange i s).memory = s.memory ∧ (State.failExchange i s).ports = s.ports ∧
    (State.failExchange i s).slots = s.slots ∧ (State.failExchange i s).waitList = s.waitList ∧
    (State.failExchange i s).comp = s.comp ∧ (State.failExchange i s).outputs = s.outputs ∧
    (State.failExchange i s).buses = s.buses ∧ (State.failExchange i s).domains = s.domains ∧
    (State.failExchange i s).started = s.started ∧ (State.failExchange i s).config = s.config ∧
    (State.failExchange i s).panelQueue = s.panelQueue ∧ (State.failExchange i s).panelReserved = s.panelReserved := by
  unfold State.failExchange
  try dsimp only
  repeat' split
  all_goals simp

@[simp] theorem State.handGain_frame (i : Fin 64) (s : State) :
    (State.handGain i s).powered = s.powered ∧ (State.handGain i s).pending = s.pending ∧
    (State.handGain i s).unitNumber = s.unitNumber ∧ (State.handGain i s).frameCounter = s.frameCounter ∧
    (State.handGain i s).memory = s.memory ∧ (State.handGain i s).ports = s.ports ∧
    (State.handGain i s).slots = s.slots ∧ (State.handGain i s).waitList = s.waitList ∧
    (State.handGain i s).channels = s.channels ∧ (State.handGain i s).outputs = s.outputs ∧
    (State.handGain i s).buses = s.buses ∧ (State.handGain i s).domains = s.domains ∧
    (State.handGain i s).started = s.started ∧ (State.handGain i s).config = s.config ∧
    (State.handGain i s).panelQueue = s.panelQueue ∧ (State.handGain i s).panelReserved = s.panelReserved := by
  unfold State.handGain
  try dsimp only
  repeat' split
  all_goals simp

@[simp] theorem State.marker_frame (i : Fin 64) (s : State) :
    (State.marker i s).powered = s.powered ∧ (State.marker i s).pending = s.pending ∧
    (State.marker i s).unitNumber = s.unitNumber ∧ (State.marker i s).frameCounter = s.frameCounter ∧
    (State.marker i s).memory = s.memory ∧ (State.marker i s).ports = s.ports ∧ (State.marker i s).slots = s.slots ∧
    (State.marker i s).waitList = s.waitList ∧ (State.marker i s).outputs = s.outputs ∧
    (State.marker i s).buses = s.buses ∧ (State.marker i s).domains = s.domains ∧
    (State.marker i s).started = s.started ∧ (State.marker i s).config = s.config ∧
    (State.marker i s).panelQueue = s.panelQueue ∧ (State.marker i s).panelReserved = s.panelReserved := by
  unfold State.marker
  try dsimp only
  repeat' split
  all_goals simp

@[simp] theorem State.markerTimeout_frame (i : Fin 64) (s : State) :
    (State.markerTimeout i s).powered = s.powered ∧ (State.markerTimeout i s).pending = s.pending ∧
    (State.markerTimeout i s).unitNumber = s.unitNumber ∧ (State.markerTimeout i s).frameCounter = s.frameCounter ∧
    (State.markerTimeout i s).memory = s.memory ∧ (State.markerTimeout i s).ports = s.ports ∧
    (State.markerTimeout i s).slots = s.slots ∧ (State.markerTimeout i s).waitList = s.waitList ∧
    (State.markerTimeout i s).comp = s.comp ∧ (State.markerTimeout i s).outputs = s.outputs ∧
    (State.markerTimeout i s).buses = s.buses ∧ (State.markerTimeout i s).domains = s.domains ∧
    (State.markerTimeout i s).started = s.started ∧ (State.markerTimeout i s).config = s.config ∧
    (State.markerTimeout i s).panelQueue = s.panelQueue ∧ (State.markerTimeout i s).panelReserved = s.panelReserved := by
  unfold State.markerTimeout
  try dsimp only
  repeat' split
  all_goals simp

@[simp] theorem State.holdEnd_frame (i : Fin 64) (s : State) :
    (State.holdEnd i s).powered = s.powered ∧ (State.holdEnd i s).pending = s.pending ∧
    (State.holdEnd i s).unitNumber = s.unitNumber ∧ (State.holdEnd i s).frameCounter = s.frameCounter ∧
    (State.holdEnd i s).memory = s.memory ∧ (State.holdEnd i s).ports = s.ports ∧
    (State.holdEnd i s).slots = s.slots ∧ (State.holdEnd i s).waitList = s.waitList ∧
    (State.holdEnd i s).comp = s.comp ∧ (State.holdEnd i s).outputs = s.outputs ∧
    (State.holdEnd i s).buses = s.buses ∧ (State.holdEnd i s).domains = s.domains ∧
    (State.holdEnd i s).started = s.started ∧ (State.holdEnd i s).config = s.config ∧
    (State.holdEnd i s).panelQueue = s.panelQueue ∧ (State.holdEnd i s).panelReserved = s.panelReserved := by
  unfold State.holdEnd
  try dsimp only
  repeat' split
  all_goals simp

@[simp] theorem State.retryExpiry_frame (i : Fin 64) (s : State) :
    (State.retryExpiry i s).powered = s.powered ∧ (State.retryExpiry i s).pending = s.pending ∧
    (State.retryExpiry i s).unitNumber = s.unitNumber ∧ (State.retryExpiry i s).frameCounter = s.frameCounter ∧
    (State.retryExpiry i s).memory = s.memory ∧ (State.retryExpiry i s).ports = s.ports ∧
    (State.retryExpiry i s).slots = s.slots ∧ (State.retryExpiry i s).waitList = s.waitList ∧
    (State.retryExpiry i s).comp = s.comp ∧ (State.retryExpiry i s).outputs = s.outputs ∧
    (State.retryExpiry i s).buses = s.buses ∧ (State.retryExpiry i s).domains = s.domains ∧
    (State.retryExpiry i s).started = s.started ∧ (State.retryExpiry i s).config = s.config ∧
    (State.retryExpiry i s).panelQueue = s.panelQueue ∧ (State.retryExpiry i s).panelReserved = s.panelReserved := by
  unfold State.retryExpiry
  try dsimp only
  repeat' split
  all_goals simp

@[simp] theorem State.overcurrent_frame (i : Fin 64) (s : State) :
    (State.overcurrent i s).powered = s.powered ∧ (State.overcurrent i s).pending = s.pending ∧
    (State.overcurrent i s).unitNumber = s.unitNumber ∧ (State.overcurrent i s).frameCounter = s.frameCounter ∧
    (State.overcurrent i s).memory = s.memory ∧ (State.overcurrent i s).ports = s.ports ∧
    (State.overcurrent i s).slots = s.slots ∧ (State.overcurrent i s).waitList = s.waitList ∧
    (State.overcurrent i s).comp = s.comp ∧ (State.overcurrent i s).outputs = s.outputs ∧
    (State.overcurrent i s).buses = s.buses ∧ (State.overcurrent i s).domains = s.domains ∧
    (State.overcurrent i s).started = s.started ∧ (State.overcurrent i s).config = s.config ∧
    (State.overcurrent i s).panelQueue = s.panelQueue ∧ (State.overcurrent i s).panelReserved = s.panelReserved := by
  unfold State.overcurrent
  try dsimp only
  repeat' split
  all_goals simp

@[simp] theorem State.departChannel_frame (i : Fin 64) (s : State) :
    (State.departChannel i s).powered = s.powered ∧ (State.departChannel i s).pending = s.pending ∧
    (State.departChannel i s).unitNumber = s.unitNumber ∧ (State.departChannel i s).frameCounter = s.frameCounter ∧
    (State.departChannel i s).memory = s.memory ∧ (State.departChannel i s).ports = s.ports ∧
    (State.departChannel i s).slots = s.slots ∧ (State.departChannel i s).waitList = s.waitList ∧
    (State.departChannel i s).comp = s.comp ∧ (State.departChannel i s).buses = s.buses ∧
    (State.departChannel i s).domains = s.domains ∧ (State.departChannel i s).started = s.started ∧
    (State.departChannel i s).config = s.config ∧ (State.departChannel i s).panelQueue = s.panelQueue ∧
    (State.departChannel i s).panelReserved = s.panelReserved := by
  unfold State.departChannel
  try dsimp only
  repeat' split
  all_goals simp

@[simp] theorem State.returnChannel_frame (i : Fin 64) (s : State) :
    (State.returnChannel i s).powered = s.powered ∧ (State.returnChannel i s).pending = s.pending ∧
    (State.returnChannel i s).unitNumber = s.unitNumber ∧ (State.returnChannel i s).frameCounter = s.frameCounter ∧
    (State.returnChannel i s).memory = s.memory ∧ (State.returnChannel i s).ports = s.ports ∧
    (State.returnChannel i s).slots = s.slots ∧ (State.returnChannel i s).waitList = s.waitList ∧
    (State.returnChannel i s).comp = s.comp ∧ (State.returnChannel i s).buses = s.buses ∧
    (State.returnChannel i s).domains = s.domains ∧ (State.returnChannel i s).started = s.started ∧
    (State.returnChannel i s).config = s.config ∧ (State.returnChannel i s).panelQueue = s.panelQueue ∧
    (State.returnChannel i s).panelReserved = s.panelReserved := by
  unfold State.returnChannel
  try dsimp only
  repeat' split
  all_goals simp

@[simp] theorem State.pollAnswer_powered (card : Fin 8) (oc : BitVec 8) (s : State) : (State.pollAnswer card oc s).powered = s.powered := by
  unfold State.pollAnswer
  split
  · split
    · dsimp only
      split
      · simp
      · rw [State.foldOver_powered]
        · simp
        · intro x s; split <;> simp
    · rfl
  all_goals rfl
@[simp] theorem State.pollAnswer_pending (card : Fin 8) (oc : BitVec 8) (s : State) : (State.pollAnswer card oc s).pending = s.pending := by
  unfold State.pollAnswer
  split
  · split
    · dsimp only
      split
      · simp
      · rw [State.foldOver_pending]
        · simp
        · intro x s; split <;> simp
    · rfl
  all_goals rfl
@[simp] theorem State.pollAnswer_unitNumber (card : Fin 8) (oc : BitVec 8) (s : State) : (State.pollAnswer card oc s).unitNumber = s.unitNumber := by
  unfold State.pollAnswer
  split
  · split
    · dsimp only
      split
      · simp
      · rw [State.foldOver_unitNumber]
        · simp
        · intro x s; split <;> simp
    · rfl
  all_goals rfl
@[simp] theorem State.pollAnswer_frameCounter (card : Fin 8) (oc : BitVec 8) (s : State) : (State.pollAnswer card oc s).frameCounter = s.frameCounter := by
  unfold State.pollAnswer
  split
  · split
    · dsimp only
      split
      · simp
      · rw [State.foldOver_frameCounter]
        · simp
        · intro x s; split <;> simp
    · rfl
  all_goals rfl
@[simp] theorem State.pollAnswer_memory (card : Fin 8) (oc : BitVec 8) (s : State) : (State.pollAnswer card oc s).memory = s.memory := by
  unfold State.pollAnswer
  split
  · split
    · dsimp only
      split
      · simp
      · rw [State.foldOver_memory]
        · simp
        · intro x s; split <;> simp
    · rfl
  all_goals rfl
@[simp] theorem State.pollAnswer_ports (card : Fin 8) (oc : BitVec 8) (s : State) : (State.pollAnswer card oc s).ports = s.ports := by
  unfold State.pollAnswer
  split
  · split
    · dsimp only
      split
      · simp
      · rw [State.foldOver_ports]
        · simp
        · intro x s; split <;> simp
    · rfl
  all_goals rfl
@[simp] theorem State.pollAnswer_slots (card : Fin 8) (oc : BitVec 8) (s : State) : (State.pollAnswer card oc s).slots = s.slots := by
  unfold State.pollAnswer
  split
  · split
    · dsimp only
      split
      · simp
      · rw [State.foldOver_slots]
        · simp
        · intro x s; split <;> simp
    · rfl
  all_goals rfl
@[simp] theorem State.pollAnswer_waitList (card : Fin 8) (oc : BitVec 8) (s : State) : (State.pollAnswer card oc s).waitList = s.waitList := by
  unfold State.pollAnswer
  split
  · split
    · dsimp only
      split
      · simp
      · rw [State.foldOver_waitList]
        · simp
        · intro x s; split <;> simp
    · rfl
  all_goals rfl
@[simp] theorem State.pollAnswer_comp (card : Fin 8) (oc : BitVec 8) (s : State) : (State.pollAnswer card oc s).comp = s.comp := by
  unfold State.pollAnswer
  split
  · split
    · dsimp only
      split
      · simp
      · rw [State.foldOver_comp]
        · simp
        · intro x s; split <;> simp
    · rfl
  all_goals rfl
@[simp] theorem State.pollAnswer_buses (card : Fin 8) (oc : BitVec 8) (s : State) : (State.pollAnswer card oc s).buses = s.buses := by
  unfold State.pollAnswer
  split
  · split
    · dsimp only
      split
      · simp
      · rw [State.foldOver_buses]
        · simp
        · intro x s; split <;> simp
    · rfl
  all_goals rfl
@[simp] theorem State.pollAnswer_domains (card : Fin 8) (oc : BitVec 8) (s : State) : (State.pollAnswer card oc s).domains = s.domains := by
  unfold State.pollAnswer
  split
  · split
    · dsimp only
      split
      · simp
      · rw [State.foldOver_domains]
        · simp
        · intro x s; split <;> simp
    · rfl
  all_goals rfl
@[simp] theorem State.pollAnswer_started (card : Fin 8) (oc : BitVec 8) (s : State) : (State.pollAnswer card oc s).started = s.started := by
  unfold State.pollAnswer
  split
  · split
    · dsimp only
      split
      · simp
      · rw [State.foldOver_started]
        · simp
        · intro x s; split <;> simp
    · rfl
  all_goals rfl
@[simp] theorem State.pollAnswer_config (card : Fin 8) (oc : BitVec 8) (s : State) : (State.pollAnswer card oc s).config = s.config := by
  unfold State.pollAnswer
  split
  · split
    · dsimp only
      split
      · simp
      · rw [State.foldOver_config]
        · simp
        · intro x s; split <;> simp
    · rfl
  all_goals rfl
@[simp] theorem State.pollAnswer_panelQueue (card : Fin 8) (oc : BitVec 8) (s : State) : (State.pollAnswer card oc s).panelQueue = s.panelQueue := by
  unfold State.pollAnswer
  split
  · split
    · dsimp only
      split
      · simp
      · rw [State.foldOver_panelQueue]
        · simp
        · intro x s; split <;> simp
    · rfl
  all_goals rfl
@[simp] theorem State.pollAnswer_panelReserved (card : Fin 8) (oc : BitVec 8) (s : State) : (State.pollAnswer card oc s).panelReserved = s.panelReserved := by
  unfold State.pollAnswer
  split
  · split
    · dsimp only
      split
      · simp
      · rw [State.foldOver_panelReserved]
        · simp
        · intro x s; split <;> simp
    · rfl
  all_goals rfl

@[simp] theorem State.pollUnanswered_frame (s : State) :
    (State.pollUnanswered s).powered = s.powered ∧ (State.pollUnanswered s).pending = s.pending ∧
    (State.pollUnanswered s).unitNumber = s.unitNumber ∧ (State.pollUnanswered s).frameCounter = s.frameCounter ∧
    (State.pollUnanswered s).memory = s.memory ∧ (State.pollUnanswered s).ports = s.ports ∧
    (State.pollUnanswered s).slots = s.slots ∧ (State.pollUnanswered s).waitList = s.waitList ∧
    (State.pollUnanswered s).comp = s.comp ∧ (State.pollUnanswered s).buses = s.buses ∧
    (State.pollUnanswered s).domains = s.domains ∧ (State.pollUnanswered s).started = s.started ∧
    (State.pollUnanswered s).config = s.config ∧ (State.pollUnanswered s).panelQueue = s.panelQueue ∧
    (State.pollUnanswered s).panelReserved = s.panelReserved := by
  unfold State.pollUnanswered
  try dsimp only
  repeat' split
  all_goals simp

@[simp] theorem State.settingNoAnswer_frame (s : State) :
    (State.settingNoAnswer s).powered = s.powered ∧ (State.settingNoAnswer s).pending = s.pending ∧
    (State.settingNoAnswer s).unitNumber = s.unitNumber ∧ (State.settingNoAnswer s).frameCounter = s.frameCounter ∧
    (State.settingNoAnswer s).memory = s.memory ∧ (State.settingNoAnswer s).ports = s.ports ∧
    (State.settingNoAnswer s).slots = s.slots ∧ (State.settingNoAnswer s).waitList = s.waitList ∧
    (State.settingNoAnswer s).comp = s.comp ∧ (State.settingNoAnswer s).outputs = s.outputs ∧
    (State.settingNoAnswer s).buses = s.buses ∧ (State.settingNoAnswer s).domains = s.domains ∧
    (State.settingNoAnswer s).started = s.started ∧ (State.settingNoAnswer s).config = s.config ∧
    (State.settingNoAnswer s).panelQueue = s.panelQueue ∧ (State.settingNoAnswer s).panelReserved = s.panelReserved := by
  unfold State.settingNoAnswer
  try dsimp only
  repeat' split
  all_goals simp

@[simp] theorem State.settingAnswer_frame (card channel : Fin 8) (s : State) :
    (State.settingAnswer card channel s).powered = s.powered ∧
    (State.settingAnswer card channel s).pending = s.pending ∧
    (State.settingAnswer card channel s).unitNumber = s.unitNumber ∧
    (State.settingAnswer card channel s).frameCounter = s.frameCounter ∧
    (State.settingAnswer card channel s).memory = s.memory ∧ (State.settingAnswer card channel s).ports = s.ports ∧
    (State.settingAnswer card channel s).slots = s.slots ∧
    (State.settingAnswer card channel s).waitList = s.waitList ∧
    (State.settingAnswer card channel s).channels = s.channels ∧ (State.settingAnswer card channel s).comp = s.comp ∧
    (State.settingAnswer card channel s).outputs = s.outputs ∧ (State.settingAnswer card channel s).buses = s.buses ∧
    (State.settingAnswer card channel s).domains = s.domains ∧
    (State.settingAnswer card channel s).started = s.started ∧
    (State.settingAnswer card channel s).config = s.config ∧
    (State.settingAnswer card channel s).panelQueue = s.panelQueue ∧
    (State.settingAnswer card channel s).panelReserved = s.panelReserved := by
  unfold State.settingAnswer
  try dsimp only
  repeat' split
  all_goals simp

@[simp] theorem State.settleExchange_frame (s : State) :
    (State.settleExchange s).powered = s.powered ∧ (State.settleExchange s).pending = s.pending ∧
    (State.settleExchange s).unitNumber = s.unitNumber ∧ (State.settleExchange s).frameCounter = s.frameCounter ∧
    (State.settleExchange s).memory = s.memory ∧ (State.settleExchange s).ports = s.ports ∧
    (State.settleExchange s).slots = s.slots ∧ (State.settleExchange s).waitList = s.waitList ∧
    (State.settleExchange s).comp = s.comp ∧ (State.settleExchange s).buses = s.buses ∧
    (State.settleExchange s).domains = s.domains ∧ (State.settleExchange s).started = s.started ∧
    (State.settleExchange s).config = s.config ∧ (State.settleExchange s).panelQueue = s.panelQueue ∧
    (State.settleExchange s).panelReserved = s.panelReserved := by
  unfold State.settleExchange
  try dsimp only
  repeat' split
  all_goals simp

@[simp] theorem State.settingSlot_frame (s : State) :
    (State.settingSlot s).powered = s.powered ∧ (State.settingSlot s).pending = s.pending ∧
    (State.settingSlot s).unitNumber = s.unitNumber ∧ (State.settingSlot s).frameCounter = s.frameCounter ∧
    (State.settingSlot s).memory = s.memory ∧ (State.settingSlot s).ports = s.ports ∧
    (State.settingSlot s).slots = s.slots ∧ (State.settingSlot s).waitList = s.waitList ∧
    (State.settingSlot s).comp = s.comp ∧ (State.settingSlot s).buses = s.buses ∧
    (State.settingSlot s).domains = s.domains ∧ (State.settingSlot s).started = s.started ∧
    (State.settingSlot s).config = s.config ∧ (State.settingSlot s).panelQueue = s.panelQueue ∧
    (State.settingSlot s).panelReserved = s.panelReserved := by
  unfold State.settingSlot
  try dsimp only
  repeat' split
  all_goals simp

@[simp] theorem State.pollSlot_frame (s : State) :
    (State.pollSlot s).powered = s.powered ∧ (State.pollSlot s).pending = s.pending ∧
    (State.pollSlot s).unitNumber = s.unitNumber ∧ (State.pollSlot s).frameCounter = s.frameCounter ∧
    (State.pollSlot s).memory = s.memory ∧ (State.pollSlot s).ports = s.ports ∧ (State.pollSlot s).slots = s.slots ∧
    (State.pollSlot s).waitList = s.waitList ∧ (State.pollSlot s).comp = s.comp ∧ (State.pollSlot s).buses = s.buses ∧
    (State.pollSlot s).domains = s.domains ∧ (State.pollSlot s).started = s.started ∧
    (State.pollSlot s).config = s.config ∧ (State.pollSlot s).panelQueue = s.panelQueue ∧
    (State.pollSlot s).panelReserved = s.panelReserved := by
  unfold State.pollSlot
  try dsimp only
  repeat' split
  all_goals simp

@[simp] theorem State.pushAnswer_frame (sl : SlotId) (a : Answer) (s : State) :
    (State.pushAnswer sl a s).powered = s.powered ∧ (State.pushAnswer sl a s).pending = s.pending ∧
    (State.pushAnswer sl a s).unitNumber = s.unitNumber ∧ (State.pushAnswer sl a s).frameCounter = s.frameCounter ∧
    (State.pushAnswer sl a s).memory = s.memory ∧ (State.pushAnswer sl a s).ports = s.ports ∧
    (State.pushAnswer sl a s).slots = s.slots ∧ (State.pushAnswer sl a s).waitList = s.waitList ∧
    (State.pushAnswer sl a s).channels = s.channels ∧ (State.pushAnswer sl a s).comp = s.comp ∧
    (State.pushAnswer sl a s).outputs = s.outputs ∧ (State.pushAnswer sl a s).buses = s.buses ∧
    (State.pushAnswer sl a s).domains = s.domains ∧ (State.pushAnswer sl a s).started = s.started ∧
    (State.pushAnswer sl a s).config = s.config ∧ (State.pushAnswer sl a s).panelReserved = s.panelReserved := by
  unfold State.pushAnswer
  try dsimp only
  repeat' split
  all_goals simp

@[simp] theorem State.completeApply_frame (sl : SlotId) (r : Result) (applied dropped : Nat) (s : State) :
    (State.completeApply sl r applied dropped s).powered = s.powered ∧
    (State.completeApply sl r applied dropped s).pending = s.pending ∧
    (State.completeApply sl r applied dropped s).unitNumber = s.unitNumber ∧
    (State.completeApply sl r applied dropped s).frameCounter = s.frameCounter ∧
    (State.completeApply sl r applied dropped s).memory = s.memory ∧
    (State.completeApply sl r applied dropped s).ports = s.ports ∧
    (State.completeApply sl r applied dropped s).slots = s.slots ∧
    (State.completeApply sl r applied dropped s).waitList = s.waitList ∧
    (State.completeApply sl r applied dropped s).channels = s.channels ∧
    (State.completeApply sl r applied dropped s).comp = s.comp ∧
    (State.completeApply sl r applied dropped s).outputs = s.outputs ∧
    (State.completeApply sl r applied dropped s).buses = s.buses ∧
    (State.completeApply sl r applied dropped s).domains = s.domains ∧
    (State.completeApply sl r applied dropped s).started = s.started ∧
    (State.completeApply sl r applied dropped s).config = s.config ∧
    (State.completeApply sl r applied dropped s).panelReserved = s.panelReserved := by
  unfold State.completeApply
  try dsimp only
  repeat' split
  all_goals simp

@[simp] theorem State.offerPanel_frame (isKind : PanelMsg → Bool) (m : PanelMsg) (s : State) :
    (State.offerPanel isKind m s).powered = s.powered ∧ (State.offerPanel isKind m s).pending = s.pending ∧
    (State.offerPanel isKind m s).unitNumber = s.unitNumber ∧
    (State.offerPanel isKind m s).frameCounter = s.frameCounter ∧ (State.offerPanel isKind m s).memory = s.memory ∧
    (State.offerPanel isKind m s).ports = s.ports ∧ (State.offerPanel isKind m s).slots = s.slots ∧
    (State.offerPanel isKind m s).waitList = s.waitList ∧ (State.offerPanel isKind m s).channels = s.channels ∧
    (State.offerPanel isKind m s).comp = s.comp ∧ (State.offerPanel isKind m s).outputs = s.outputs ∧
    (State.offerPanel isKind m s).buses = s.buses ∧ (State.offerPanel isKind m s).domains = s.domains ∧
    (State.offerPanel isKind m s).started = s.started ∧ (State.offerPanel isKind m s).config = s.config ∧
    (State.offerPanel isKind m s).panelReserved = s.panelReserved := by
  unfold State.offerPanel
  try dsimp only
  repeat' split
  all_goals simp

@[simp] theorem State.checkDomains_frame (sl : SlotId) (l : List Nat) (s : State) :
    (State.checkDomains sl l s).1.powered = s.powered ∧ (State.checkDomains sl l s).1.pending = s.pending ∧
    (State.checkDomains sl l s).1.unitNumber = s.unitNumber ∧
    (State.checkDomains sl l s).1.frameCounter = s.frameCounter ∧ (State.checkDomains sl l s).1.memory = s.memory ∧
    (State.checkDomains sl l s).1.ports = s.ports ∧ (State.checkDomains sl l s).1.slots = s.slots ∧
    (State.checkDomains sl l s).1.waitList = s.waitList ∧ (State.checkDomains sl l s).1.channels = s.channels ∧
    (State.checkDomains sl l s).1.comp = s.comp ∧ (State.checkDomains sl l s).1.outputs = s.outputs ∧
    (State.checkDomains sl l s).1.buses = s.buses ∧ (State.checkDomains sl l s).1.started = s.started ∧
    (State.checkDomains sl l s).1.config = s.config ∧ (State.checkDomains sl l s).1.panelQueue = s.panelQueue ∧
    (State.checkDomains sl l s).1.panelReserved = s.panelReserved := by
  induction l generalizing s with
  | nil => exact ⟨rfl, rfl, rfl, rfl, rfl, rfl, rfl, rfl, rfl, rfl, rfl, rfl, rfl, rfl, rfl, rfl⟩
  | cons x xs ih =>
    dsimp only [State.checkDomains]
    repeat' split
    all_goals simp [ih]

@[simp] theorem State.claim_frame (sl : SlotId) (dom : Nat) (s : State) :
    (State.claim sl dom s).1.powered = s.powered ∧ (State.claim sl dom s).1.pending = s.pending ∧
    (State.claim sl dom s).1.unitNumber = s.unitNumber ∧ (State.claim sl dom s).1.frameCounter = s.frameCounter ∧
    (State.claim sl dom s).1.memory = s.memory ∧ (State.claim sl dom s).1.ports = s.ports ∧
    (State.claim sl dom s).1.slots = s.slots ∧ (State.claim sl dom s).1.waitList = s.waitList ∧
    (State.claim sl dom s).1.channels = s.channels ∧ (State.claim sl dom s).1.comp = s.comp ∧
    (State.claim sl dom s).1.outputs = s.outputs ∧ (State.claim sl dom s).1.buses = s.buses ∧
    (State.claim sl dom s).1.started = s.started ∧ (State.claim sl dom s).1.config = s.config ∧
    (State.claim sl dom s).1.panelQueue = s.panelQueue ∧ (State.claim sl dom s).1.panelReserved = s.panelReserved := by
  unfold State.claim
  try dsimp only
  repeat' split
  all_goals simp

@[simp] theorem State.freeDomain_frame (dom : Nat) (s : State) :
    (State.freeDomain dom s).powered = s.powered ∧ (State.freeDomain dom s).pending = s.pending ∧
    (State.freeDomain dom s).unitNumber = s.unitNumber ∧ (State.freeDomain dom s).frameCounter = s.frameCounter ∧
    (State.freeDomain dom s).memory = s.memory ∧ (State.freeDomain dom s).ports = s.ports ∧
    (State.freeDomain dom s).slots = s.slots ∧ (State.freeDomain dom s).waitList = s.waitList ∧
    (State.freeDomain dom s).channels = s.channels ∧ (State.freeDomain dom s).comp = s.comp ∧
    (State.freeDomain dom s).outputs = s.outputs ∧ (State.freeDomain dom s).buses = s.buses ∧
    (State.freeDomain dom s).started = s.started ∧ (State.freeDomain dom s).config = s.config ∧
    (State.freeDomain dom s).panelQueue = s.panelQueue ∧ (State.freeDomain dom s).panelReserved = s.panelReserved := by
  unfold State.freeDomain
  try dsimp only
  repeat' split
  all_goals simp

@[simp] theorem State.release_frame (sl : SlotId) (dom : Nat) (s : State) :
    (State.release sl dom s).1.powered = s.powered ∧ (State.release sl dom s).1.pending = s.pending ∧
    (State.release sl dom s).1.unitNumber = s.unitNumber ∧ (State.release sl dom s).1.frameCounter = s.frameCounter ∧
    (State.release sl dom s).1.memory = s.memory ∧ (State.release sl dom s).1.ports = s.ports ∧
    (State.release sl dom s).1.slots = s.slots ∧ (State.release sl dom s).1.waitList = s.waitList ∧
    (State.release sl dom s).1.channels = s.channels ∧ (State.release sl dom s).1.comp = s.comp ∧
    (State.release sl dom s).1.outputs = s.outputs ∧ (State.release sl dom s).1.buses = s.buses ∧
    (State.release sl dom s).1.started = s.started ∧ (State.release sl dom s).1.config = s.config ∧
    (State.release sl dom s).1.panelQueue = s.panelQueue ∧ (State.release sl dom s).1.panelReserved = s.panelReserved := by
  unfold State.release
  try dsimp only
  repeat' split
  all_goals simp

@[simp] theorem State.forceRelease_frame (dom : Nat) (s : State) :
    (State.forceRelease dom s).1.powered = s.powered ∧ (State.forceRelease dom s).1.pending = s.pending ∧
    (State.forceRelease dom s).1.unitNumber = s.unitNumber ∧
    (State.forceRelease dom s).1.frameCounter = s.frameCounter ∧ (State.forceRelease dom s).1.memory = s.memory ∧
    (State.forceRelease dom s).1.ports = s.ports ∧ (State.forceRelease dom s).1.slots = s.slots ∧
    (State.forceRelease dom s).1.waitList = s.waitList ∧ (State.forceRelease dom s).1.channels = s.channels ∧
    (State.forceRelease dom s).1.comp = s.comp ∧ (State.forceRelease dom s).1.outputs = s.outputs ∧
    (State.forceRelease dom s).1.buses = s.buses ∧ (State.forceRelease dom s).1.started = s.started ∧
    (State.forceRelease dom s).1.config = s.config ∧ (State.forceRelease dom s).1.panelQueue = s.panelQueue ∧
    (State.forceRelease dom s).1.panelReserved = s.panelReserved := by
  unfold State.forceRelease
  try dsimp only
  repeat' split
  all_goals simp

@[simp] theorem State.clearTrespass_frame (sl : SlotId) (dom : Nat) (s : State) :
    (State.clearTrespass sl dom s).1.powered = s.powered ∧ (State.clearTrespass sl dom s).1.pending = s.pending ∧
    (State.clearTrespass sl dom s).1.unitNumber = s.unitNumber ∧
    (State.clearTrespass sl dom s).1.frameCounter = s.frameCounter ∧
    (State.clearTrespass sl dom s).1.memory = s.memory ∧ (State.clearTrespass sl dom s).1.ports = s.ports ∧
    (State.clearTrespass sl dom s).1.slots = s.slots ∧ (State.clearTrespass sl dom s).1.waitList = s.waitList ∧
    (State.clearTrespass sl dom s).1.channels = s.channels ∧ (State.clearTrespass sl dom s).1.comp = s.comp ∧
    (State.clearTrespass sl dom s).1.outputs = s.outputs ∧ (State.clearTrespass sl dom s).1.buses = s.buses ∧
    (State.clearTrespass sl dom s).1.started = s.started ∧ (State.clearTrespass sl dom s).1.config = s.config ∧
    (State.clearTrespass sl dom s).1.panelQueue = s.panelQueue ∧
    (State.clearTrespass sl dom s).1.panelReserved = s.panelReserved := by
  unfold State.clearTrespass
  try dsimp only
  repeat' split
  all_goals simp

@[simp] theorem State.freeDomainsOf_frame (sl : SlotId) (s : State) :
    (State.freeDomainsOf sl s).powered = s.powered ∧ (State.freeDomainsOf sl s).pending = s.pending ∧
    (State.freeDomainsOf sl s).unitNumber = s.unitNumber ∧ (State.freeDomainsOf sl s).frameCounter = s.frameCounter ∧
    (State.freeDomainsOf sl s).memory = s.memory ∧ (State.freeDomainsOf sl s).ports = s.ports ∧
    (State.freeDomainsOf sl s).slots = s.slots ∧ (State.freeDomainsOf sl s).waitList = s.waitList ∧
    (State.freeDomainsOf sl s).channels = s.channels ∧ (State.freeDomainsOf sl s).comp = s.comp ∧
    (State.freeDomainsOf sl s).outputs = s.outputs ∧ (State.freeDomainsOf sl s).buses = s.buses ∧
    (State.freeDomainsOf sl s).started = s.started ∧ (State.freeDomainsOf sl s).config = s.config ∧
    (State.freeDomainsOf sl s).panelQueue = s.panelQueue ∧ (State.freeDomainsOf sl s).panelReserved = s.panelReserved := by
  unfold State.freeDomainsOf
  try dsimp only
  repeat' split
  all_goals simp

@[simp] theorem State.batchOpen_frame (sl : SlotId) (s : State) :
    (State.batchOpen sl s).1.powered = s.powered ∧ (State.batchOpen sl s).1.pending = s.pending ∧
    (State.batchOpen sl s).1.unitNumber = s.unitNumber ∧ (State.batchOpen sl s).1.frameCounter = s.frameCounter ∧
    (State.batchOpen sl s).1.memory = s.memory ∧ (State.batchOpen sl s).1.ports = s.ports ∧
    (State.batchOpen sl s).1.slots = s.slots ∧ (State.batchOpen sl s).1.waitList = s.waitList ∧
    (State.batchOpen sl s).1.channels = s.channels ∧ (State.batchOpen sl s).1.comp = s.comp ∧
    (State.batchOpen sl s).1.outputs = s.outputs ∧ (State.batchOpen sl s).1.buses = s.buses ∧
    (State.batchOpen sl s).1.domains = s.domains ∧ (State.batchOpen sl s).1.started = s.started ∧
    (State.batchOpen sl s).1.config = s.config ∧ (State.batchOpen sl s).1.panelQueue = s.panelQueue ∧
    (State.batchOpen sl s).1.panelReserved = s.panelReserved := by
  unfold State.batchOpen
  try dsimp only
  repeat' split
  all_goals simp

@[simp] theorem State.batchDrop_frame (sl : SlotId) (s : State) :
    (State.batchDrop sl s).1.powered = s.powered ∧ (State.batchDrop sl s).1.pending = s.pending ∧
    (State.batchDrop sl s).1.unitNumber = s.unitNumber ∧ (State.batchDrop sl s).1.frameCounter = s.frameCounter ∧
    (State.batchDrop sl s).1.memory = s.memory ∧ (State.batchDrop sl s).1.ports = s.ports ∧
    (State.batchDrop sl s).1.slots = s.slots ∧ (State.batchDrop sl s).1.waitList = s.waitList ∧
    (State.batchDrop sl s).1.channels = s.channels ∧ (State.batchDrop sl s).1.comp = s.comp ∧
    (State.batchDrop sl s).1.outputs = s.outputs ∧ (State.batchDrop sl s).1.buses = s.buses ∧
    (State.batchDrop sl s).1.domains = s.domains ∧ (State.batchDrop sl s).1.started = s.started ∧
    (State.batchDrop sl s).1.config = s.config ∧ (State.batchDrop sl s).1.panelQueue = s.panelQueue ∧
    (State.batchDrop sl s).1.panelReserved = s.panelReserved := by
  unfold State.batchDrop
  try dsimp only
  repeat' split
  all_goals simp

@[simp] theorem State.batchApply_frame (sl : SlotId) (tag : Byte) (s : State) :
    (State.batchApply sl tag s).powered = s.powered ∧ (State.batchApply sl tag s).pending = s.pending ∧
    (State.batchApply sl tag s).unitNumber = s.unitNumber ∧
    (State.batchApply sl tag s).frameCounter = s.frameCounter ∧ (State.batchApply sl tag s).memory = s.memory ∧
    (State.batchApply sl tag s).ports = s.ports ∧ (State.batchApply sl tag s).slots = s.slots ∧
    (State.batchApply sl tag s).waitList = s.waitList ∧ (State.batchApply sl tag s).channels = s.channels ∧
    (State.batchApply sl tag s).comp = s.comp ∧ (State.batchApply sl tag s).outputs = s.outputs ∧
    (State.batchApply sl tag s).buses = s.buses ∧ (State.batchApply sl tag s).domains = s.domains ∧
    (State.batchApply sl tag s).started = s.started ∧ (State.batchApply sl tag s).config = s.config ∧
    (State.batchApply sl tag s).panelReserved = s.panelReserved := by
  unfold State.batchApply
  try dsimp only
  repeat' split
  all_goals simp

@[simp] theorem State.stage_frame (sl : SlotId) (es : List Staged) (s : State) :
    (State.stage sl es s).powered = s.powered ∧ (State.stage sl es s).pending = s.pending ∧
    (State.stage sl es s).unitNumber = s.unitNumber ∧ (State.stage sl es s).frameCounter = s.frameCounter ∧
    (State.stage sl es s).memory = s.memory ∧ (State.stage sl es s).ports = s.ports ∧
    (State.stage sl es s).slots = s.slots ∧ (State.stage sl es s).waitList = s.waitList ∧
    (State.stage sl es s).channels = s.channels ∧ (State.stage sl es s).comp = s.comp ∧
    (State.stage sl es s).outputs = s.outputs ∧ (State.stage sl es s).buses = s.buses ∧
    (State.stage sl es s).domains = s.domains ∧ (State.stage sl es s).started = s.started ∧
    (State.stage sl es s).config = s.config ∧ (State.stage sl es s).panelQueue = s.panelQueue ∧
    (State.stage sl es s).panelReserved = s.panelReserved := by
  unfold State.stage
  try dsimp only
  repeat' split
  all_goals simp

@[simp] theorem State.discardBatch_frame (sl : SlotId) (s : State) :
    (State.discardBatch sl s).powered = s.powered ∧ (State.discardBatch sl s).pending = s.pending ∧
    (State.discardBatch sl s).unitNumber = s.unitNumber ∧ (State.discardBatch sl s).frameCounter = s.frameCounter ∧
    (State.discardBatch sl s).memory = s.memory ∧ (State.discardBatch sl s).ports = s.ports ∧
    (State.discardBatch sl s).slots = s.slots ∧ (State.discardBatch sl s).waitList = s.waitList ∧
    (State.discardBatch sl s).channels = s.channels ∧ (State.discardBatch sl s).comp = s.comp ∧
    (State.discardBatch sl s).outputs = s.outputs ∧ (State.discardBatch sl s).buses = s.buses ∧
    (State.discardBatch sl s).domains = s.domains ∧ (State.discardBatch sl s).started = s.started ∧
    (State.discardBatch sl s).config = s.config ∧ (State.discardBatch sl s).panelReserved = s.panelReserved := by
  unfold State.discardBatch
  try dsimp only
  repeat' split
  all_goals simp

@[simp] theorem State.clearNotices_frame (sl : SlotId) (s : State) :
    (State.clearNotices sl s).powered = s.powered ∧ (State.clearNotices sl s).pending = s.pending ∧
    (State.clearNotices sl s).unitNumber = s.unitNumber ∧ (State.clearNotices sl s).frameCounter = s.frameCounter ∧
    (State.clearNotices sl s).memory = s.memory ∧ (State.clearNotices sl s).ports = s.ports ∧
    (State.clearNotices sl s).slots = s.slots ∧ (State.clearNotices sl s).waitList = s.waitList ∧
    (State.clearNotices sl s).channels = s.channels ∧ (State.clearNotices sl s).comp = s.comp ∧
    (State.clearNotices sl s).outputs = s.outputs ∧ (State.clearNotices sl s).domains = s.domains ∧
    (State.clearNotices sl s).started = s.started ∧ (State.clearNotices sl s).config = s.config ∧
    (State.clearNotices sl s).panelQueue = s.panelQueue ∧ (State.clearNotices sl s).panelReserved = s.panelReserved := by
  unfold State.clearNotices
  try dsimp only
  repeat' split
  all_goals simp

@[simp] theorem State.buildDigest_frame (sl : SlotId) (s : State) :
    (State.buildDigest sl s).powered = s.powered ∧ (State.buildDigest sl s).pending = s.pending ∧
    (State.buildDigest sl s).unitNumber = s.unitNumber ∧ (State.buildDigest sl s).frameCounter = s.frameCounter ∧
    (State.buildDigest sl s).memory = s.memory ∧ (State.buildDigest sl s).ports = s.ports ∧
    (State.buildDigest sl s).slots = s.slots ∧ (State.buildDigest sl s).waitList = s.waitList ∧
    (State.buildDigest sl s).channels = s.channels ∧ (State.buildDigest sl s).comp = s.comp ∧
    (State.buildDigest sl s).outputs = s.outputs ∧ (State.buildDigest sl s).domains = s.domains ∧
    (State.buildDigest sl s).started = s.started ∧ (State.buildDigest sl s).config = s.config ∧
    (State.buildDigest sl s).panelReserved = s.panelReserved := by
  unfold State.buildDigest
  try dsimp only
  repeat' split
  all_goals simp

@[simp] theorem State.buildDigests_frame (s : State) :
    (State.buildDigests s).powered = s.powered ∧ (State.buildDigests s).pending = s.pending ∧
    (State.buildDigests s).unitNumber = s.unitNumber ∧ (State.buildDigests s).frameCounter = s.frameCounter ∧
    (State.buildDigests s).memory = s.memory ∧ (State.buildDigests s).ports = s.ports ∧
    (State.buildDigests s).slots = s.slots ∧ (State.buildDigests s).waitList = s.waitList ∧
    (State.buildDigests s).channels = s.channels ∧ (State.buildDigests s).comp = s.comp ∧
    (State.buildDigests s).outputs = s.outputs ∧ (State.buildDigests s).domains = s.domains ∧
    (State.buildDigests s).started = s.started ∧ (State.buildDigests s).config = s.config ∧
    (State.buildDigests s).panelReserved = s.panelReserved := by
  unfold State.buildDigests
  simp [apply_ite State.powered, apply_ite State.pending, apply_ite State.unitNumber, apply_ite State.frameCounter, apply_ite State.memory, apply_ite State.ports, apply_ite State.slots, apply_ite State.waitList, apply_ite State.channels, apply_ite State.comp, apply_ite State.outputs, apply_ite State.domains, apply_ite State.started, apply_ite State.config, apply_ite State.panelReserved]

@[simp] theorem State.digestCadence_frame (s : State) :
    (State.digestCadence s).powered = s.powered ∧ (State.digestCadence s).pending = s.pending ∧
    (State.digestCadence s).unitNumber = s.unitNumber ∧ (State.digestCadence s).frameCounter = s.frameCounter ∧
    (State.digestCadence s).memory = s.memory ∧ (State.digestCadence s).ports = s.ports ∧
    (State.digestCadence s).slots = s.slots ∧ (State.digestCadence s).waitList = s.waitList ∧
    (State.digestCadence s).channels = s.channels ∧ (State.digestCadence s).comp = s.comp ∧
    (State.digestCadence s).outputs = s.outputs ∧ (State.digestCadence s).domains = s.domains ∧
    (State.digestCadence s).started = s.started ∧ (State.digestCadence s).config = s.config ∧
    (State.digestCadence s).panelReserved = s.panelReserved := by
  unfold State.digestCadence
  try dsimp only
  repeat' split
  all_goals simp

@[simp] theorem State.handReports_powered (count : Word) (src s : State) : (State.handReports count src s).powered = s.powered := by
  unfold State.handReports
  dsimp only
  split
  · simp only [State.offerPanel_frame]
    rw [State.foldOver_powered]
    intro x s; split <;> simp
  · rw [State.foldOver_powered]
    intro x s; split <;> simp
@[simp] theorem State.handReports_pending (count : Word) (src s : State) : (State.handReports count src s).pending = s.pending := by
  unfold State.handReports
  dsimp only
  split
  · simp only [State.offerPanel_frame]
    rw [State.foldOver_pending]
    intro x s; split <;> simp
  · rw [State.foldOver_pending]
    intro x s; split <;> simp
@[simp] theorem State.handReports_unitNumber (count : Word) (src s : State) : (State.handReports count src s).unitNumber = s.unitNumber := by
  unfold State.handReports
  dsimp only
  split
  · simp only [State.offerPanel_frame]
    rw [State.foldOver_unitNumber]
    intro x s; split <;> simp
  · rw [State.foldOver_unitNumber]
    intro x s; split <;> simp
@[simp] theorem State.handReports_frameCounter (count : Word) (src s : State) : (State.handReports count src s).frameCounter = s.frameCounter := by
  unfold State.handReports
  dsimp only
  split
  · simp only [State.offerPanel_frame]
    rw [State.foldOver_frameCounter]
    intro x s; split <;> simp
  · rw [State.foldOver_frameCounter]
    intro x s; split <;> simp
@[simp] theorem State.handReports_memory (count : Word) (src s : State) : (State.handReports count src s).memory = s.memory := by
  unfold State.handReports
  dsimp only
  split
  · simp only [State.offerPanel_frame]
    rw [State.foldOver_memory]
    intro x s; split <;> simp
  · rw [State.foldOver_memory]
    intro x s; split <;> simp
@[simp] theorem State.handReports_ports (count : Word) (src s : State) : (State.handReports count src s).ports = s.ports := by
  unfold State.handReports
  dsimp only
  split
  · simp only [State.offerPanel_frame]
    rw [State.foldOver_ports]
    intro x s; split <;> simp
  · rw [State.foldOver_ports]
    intro x s; split <;> simp
@[simp] theorem State.handReports_slots (count : Word) (src s : State) : (State.handReports count src s).slots = s.slots := by
  unfold State.handReports
  dsimp only
  split
  · simp only [State.offerPanel_frame]
    rw [State.foldOver_slots]
    intro x s; split <;> simp
  · rw [State.foldOver_slots]
    intro x s; split <;> simp
@[simp] theorem State.handReports_waitList (count : Word) (src s : State) : (State.handReports count src s).waitList = s.waitList := by
  unfold State.handReports
  dsimp only
  split
  · simp only [State.offerPanel_frame]
    rw [State.foldOver_waitList]
    intro x s; split <;> simp
  · rw [State.foldOver_waitList]
    intro x s; split <;> simp
@[simp] theorem State.handReports_channels (count : Word) (src s : State) : (State.handReports count src s).channels = s.channels := by
  unfold State.handReports
  dsimp only
  split
  · simp only [State.offerPanel_frame]
    rw [State.foldOver_channels]
    intro x s; split <;> simp
  · rw [State.foldOver_channels]
    intro x s; split <;> simp
@[simp] theorem State.handReports_comp (count : Word) (src s : State) : (State.handReports count src s).comp = s.comp := by
  unfold State.handReports
  dsimp only
  split
  · simp only [State.offerPanel_frame]
    rw [State.foldOver_comp]
    intro x s; split <;> simp
  · rw [State.foldOver_comp]
    intro x s; split <;> simp
@[simp] theorem State.handReports_outputs (count : Word) (src s : State) : (State.handReports count src s).outputs = s.outputs := by
  unfold State.handReports
  dsimp only
  split
  · simp only [State.offerPanel_frame]
    rw [State.foldOver_outputs]
    intro x s; split <;> simp
  · rw [State.foldOver_outputs]
    intro x s; split <;> simp
@[simp] theorem State.handReports_buses (count : Word) (src s : State) : (State.handReports count src s).buses = s.buses := by
  unfold State.handReports
  dsimp only
  split
  · simp only [State.offerPanel_frame]
    rw [State.foldOver_buses]
    intro x s; split <;> simp
  · rw [State.foldOver_buses]
    intro x s; split <;> simp
@[simp] theorem State.handReports_domains (count : Word) (src s : State) : (State.handReports count src s).domains = s.domains := by
  unfold State.handReports
  dsimp only
  split
  · simp only [State.offerPanel_frame]
    rw [State.foldOver_domains]
    intro x s; split <;> simp
  · rw [State.foldOver_domains]
    intro x s; split <;> simp
@[simp] theorem State.handReports_started (count : Word) (src s : State) : (State.handReports count src s).started = s.started := by
  unfold State.handReports
  dsimp only
  split
  · simp only [State.offerPanel_frame]
    rw [State.foldOver_started]
    intro x s; split <;> simp
  · rw [State.foldOver_started]
    intro x s; split <;> simp
@[simp] theorem State.handReports_config (count : Word) (src s : State) : (State.handReports count src s).config = s.config := by
  unfold State.handReports
  dsimp only
  split
  · simp only [State.offerPanel_frame]
    rw [State.foldOver_config]
    intro x s; split <;> simp
  · rw [State.foldOver_config]
    intro x s; split <;> simp
@[simp] theorem State.handReports_panelReserved (count : Word) (src s : State) : (State.handReports count src s).panelReserved = s.panelReserved := by
  unfold State.handReports
  dsimp only
  split
  · simp only [State.offerPanel_frame]
    rw [State.foldOver_panelReserved]
    intro x s; split <;> simp
  · rw [State.foldOver_panelReserved]
    intro x s; split <;> simp

@[simp] theorem State.clearMeters_frame (s : State) :
    (State.clearMeters s).powered = s.powered ∧ (State.clearMeters s).pending = s.pending ∧
    (State.clearMeters s).unitNumber = s.unitNumber ∧ (State.clearMeters s).frameCounter = s.frameCounter ∧
    (State.clearMeters s).memory = s.memory ∧ (State.clearMeters s).ports = s.ports ∧
    (State.clearMeters s).slots = s.slots ∧ (State.clearMeters s).waitList = s.waitList ∧
    (State.clearMeters s).channels = s.channels ∧ (State.clearMeters s).comp = s.comp ∧
    (State.clearMeters s).buses = s.buses ∧ (State.clearMeters s).domains = s.domains ∧
    (State.clearMeters s).started = s.started ∧ (State.clearMeters s).config = s.config ∧
    (State.clearMeters s).panelQueue = s.panelQueue ∧ (State.clearMeters s).panelReserved = s.panelReserved := by
  unfold State.clearMeters
  try dsimp only
  repeat' split
  all_goals simp

@[simp] theorem State.meterPeriodEnd_frame (s : State) :
    (State.meterPeriodEnd s).powered = s.powered ∧ (State.meterPeriodEnd s).pending = s.pending ∧
    (State.meterPeriodEnd s).unitNumber = s.unitNumber ∧ (State.meterPeriodEnd s).frameCounter = s.frameCounter ∧
    (State.meterPeriodEnd s).memory = s.memory ∧ (State.meterPeriodEnd s).ports = s.ports ∧
    (State.meterPeriodEnd s).slots = s.slots ∧ (State.meterPeriodEnd s).waitList = s.waitList ∧
    (State.meterPeriodEnd s).channels = s.channels ∧ (State.meterPeriodEnd s).comp = s.comp ∧
    (State.meterPeriodEnd s).buses = s.buses ∧ (State.meterPeriodEnd s).domains = s.domains ∧
    (State.meterPeriodEnd s).started = s.started ∧ (State.meterPeriodEnd s).config = s.config ∧
    (State.meterPeriodEnd s).panelReserved = s.panelReserved := by
  unfold State.meterPeriodEnd
  try dsimp only
  repeat' split
  all_goals simp

@[simp] theorem State.meterAdmission_frame (d : Desk) (s : State) :
    (State.meterAdmission d s).powered = s.powered ∧ (State.meterAdmission d s).pending = s.pending ∧
    (State.meterAdmission d s).unitNumber = s.unitNumber ∧ (State.meterAdmission d s).frameCounter = s.frameCounter ∧
    (State.meterAdmission d s).memory = s.memory ∧ (State.meterAdmission d s).ports = s.ports ∧
    (State.meterAdmission d s).slots = s.slots ∧ (State.meterAdmission d s).waitList = s.waitList ∧
    (State.meterAdmission d s).channels = s.channels ∧ (State.meterAdmission d s).comp = s.comp ∧
    (State.meterAdmission d s).outputs = s.outputs ∧ (State.meterAdmission d s).buses = s.buses ∧
    (State.meterAdmission d s).domains = s.domains ∧ (State.meterAdmission d s).started = s.started ∧
    (State.meterAdmission d s).config = s.config ∧ (State.meterAdmission d s).panelQueue = s.panelQueue ∧
    (State.meterAdmission d s).panelReserved = s.panelReserved := by
  unfold State.meterAdmission
  try dsimp only
  repeat' split
  all_goals simp

@[simp] theorem State.switchover_frame (d : Desk) (q : LinkPort) (s : State) :
    (State.switchover d q s).powered = s.powered ∧ (State.switchover d q s).pending = s.pending ∧
    (State.switchover d q s).unitNumber = s.unitNumber ∧ (State.switchover d q s).frameCounter = s.frameCounter ∧
    (State.switchover d q s).memory = s.memory ∧ (State.switchover d q s).waitList = s.waitList ∧
    (State.switchover d q s).channels = s.channels ∧ (State.switchover d q s).comp = s.comp ∧
    (State.switchover d q s).outputs = s.outputs ∧ (State.switchover d q s).buses = s.buses ∧
    (State.switchover d q s).domains = s.domains ∧ (State.switchover d q s).started = s.started ∧
    (State.switchover d q s).config = s.config ∧ (State.switchover d q s).panelQueue = s.panelQueue ∧
    (State.switchover d q s).panelReserved = s.panelReserved := by
  unfold State.switchover
  try dsimp only
  repeat' split
  all_goals simp

@[simp] theorem State.recheck_frame (d : Desk) (s : State) :
    (State.recheck d s).powered = s.powered ∧ (State.recheck d s).pending = s.pending ∧
    (State.recheck d s).unitNumber = s.unitNumber ∧ (State.recheck d s).frameCounter = s.frameCounter ∧
    (State.recheck d s).memory = s.memory ∧ (State.recheck d s).waitList = s.waitList ∧
    (State.recheck d s).channels = s.channels ∧ (State.recheck d s).comp = s.comp ∧
    (State.recheck d s).outputs = s.outputs ∧ (State.recheck d s).buses = s.buses ∧
    (State.recheck d s).domains = s.domains ∧ (State.recheck d s).started = s.started ∧
    (State.recheck d s).config = s.config ∧ (State.recheck d s).panelQueue = s.panelQueue ∧
    (State.recheck d s).panelReserved = s.panelReserved := by
  unfold State.recheck
  try dsimp only
  repeat' split
  all_goals simp

@[simp] theorem State.becomeSilent_frame (d : Desk) (s : State) :
    (State.becomeSilent d s).powered = s.powered ∧ (State.becomeSilent d s).pending = s.pending ∧
    (State.becomeSilent d s).unitNumber = s.unitNumber ∧ (State.becomeSilent d s).frameCounter = s.frameCounter ∧
    (State.becomeSilent d s).memory = s.memory ∧ (State.becomeSilent d s).ports = s.ports ∧
    (State.becomeSilent d s).waitList = s.waitList ∧ (State.becomeSilent d s).channels = s.channels ∧
    (State.becomeSilent d s).comp = s.comp ∧ (State.becomeSilent d s).domains = s.domains ∧
    (State.becomeSilent d s).started = s.started ∧ (State.becomeSilent d s).config = s.config ∧
    (State.becomeSilent d s).panelReserved = s.panelReserved := by
  unfold State.becomeSilent
  try dsimp only
  repeat' split
  all_goals simp

@[simp] theorem State.revive_frame (d : Desk) (p : LinkPort) (s : State) :
    (State.revive d p s).powered = s.powered ∧ (State.revive d p s).pending = s.pending ∧
    (State.revive d p s).unitNumber = s.unitNumber ∧ (State.revive d p s).frameCounter = s.frameCounter ∧
    (State.revive d p s).memory = s.memory ∧ (State.revive d p s).ports = s.ports ∧
    (State.revive d p s).waitList = s.waitList ∧ (State.revive d p s).channels = s.channels ∧
    (State.revive d p s).comp = s.comp ∧ (State.revive d p s).domains = s.domains ∧
    (State.revive d p s).started = s.started ∧ (State.revive d p s).config = s.config ∧
    (State.revive d p s).panelReserved = s.panelReserved := by
  unfold State.revive
  try dsimp only
  repeat' split
  all_goals simp

@[simp] theorem State.bindStep1_frame (d : Desk) (p : LinkPort) (s : State) :
    (State.bindStep1 d p s).powered = s.powered ∧ (State.bindStep1 d p s).pending = s.pending ∧
    (State.bindStep1 d p s).unitNumber = s.unitNumber ∧ (State.bindStep1 d p s).frameCounter = s.frameCounter ∧
    (State.bindStep1 d p s).memory = s.memory ∧ (State.bindStep1 d p s).waitList = s.waitList ∧
    (State.bindStep1 d p s).channels = s.channels ∧ (State.bindStep1 d p s).comp = s.comp ∧
    (State.bindStep1 d p s).domains = s.domains ∧ (State.bindStep1 d p s).started = s.started ∧
    (State.bindStep1 d p s).config = s.config ∧ (State.bindStep1 d p s).panelReserved = s.panelReserved := by
  unfold State.bindStep1
  try dsimp only
  repeat' split
  all_goals simp

@[simp] theorem State.enroll_frame (d : Desk) (p : LinkPort) (x : DeskId) (asked : Role) (s : State) :
    (State.enroll d p x asked s).powered = s.powered ∧ (State.enroll d p x asked s).pending = s.pending ∧
    (State.enroll d p x asked s).unitNumber = s.unitNumber ∧
    (State.enroll d p x asked s).frameCounter = s.frameCounter ∧ (State.enroll d p x asked s).memory = s.memory ∧
    (State.enroll d p x asked s).channels = s.channels ∧ (State.enroll d p x asked s).comp = s.comp ∧
    (State.enroll d p x asked s).domains = s.domains ∧ (State.enroll d p x asked s).started = s.started ∧
    (State.enroll d p x asked s).config = s.config ∧ (State.enroll d p x asked s).panelReserved = s.panelReserved := by
  unfold State.enroll
  try dsimp only
  repeat' split
  all_goals simp

@[simp] theorem State.lockUnbound_frame (p : LinkPort) (x : DeskId) (asked : Role) (s : State) :
    (State.lockUnbound p x asked s).powered = s.powered ∧ (State.lockUnbound p x asked s).pending = s.pending ∧
    (State.lockUnbound p x asked s).unitNumber = s.unitNumber ∧
    (State.lockUnbound p x asked s).frameCounter = s.frameCounter ∧
    (State.lockUnbound p x asked s).memory = s.memory ∧ (State.lockUnbound p x asked s).channels = s.channels ∧
    (State.lockUnbound p x asked s).comp = s.comp ∧ (State.lockUnbound p x asked s).domains = s.domains ∧
    (State.lockUnbound p x asked s).started = s.started ∧ (State.lockUnbound p x asked s).config = s.config ∧
    (State.lockUnbound p x asked s).panelReserved = s.panelReserved := by
  unfold State.lockUnbound
  try dsimp only
  repeat' split
  all_goals simp

@[simp] theorem State.lockEvent_frame (p : LinkPort) (x : DeskId) (asked : Role) (s : State) :
    (State.lockEvent p x asked s).powered = s.powered ∧ (State.lockEvent p x asked s).pending = s.pending ∧
    (State.lockEvent p x asked s).unitNumber = s.unitNumber ∧
    (State.lockEvent p x asked s).frameCounter = s.frameCounter ∧ (State.lockEvent p x asked s).memory = s.memory ∧
    (State.lockEvent p x asked s).channels = s.channels ∧ (State.lockEvent p x asked s).comp = s.comp ∧
    (State.lockEvent p x asked s).domains = s.domains ∧ (State.lockEvent p x asked s).started = s.started ∧
    (State.lockEvent p x asked s).config = s.config ∧ (State.lockEvent p x asked s).panelReserved = s.panelReserved := by
  unfold State.lockEvent
  try dsimp only
  repeat' split
  all_goals simp

@[simp] theorem State.loseActive_frame (d : Desk) (other : Option LinkPort) (s : State) :
    (State.loseActive d other s).powered = s.powered ∧ (State.loseActive d other s).pending = s.pending ∧
    (State.loseActive d other s).unitNumber = s.unitNumber ∧
    (State.loseActive d other s).frameCounter = s.frameCounter ∧ (State.loseActive d other s).memory = s.memory ∧
    (State.loseActive d other s).waitList = s.waitList ∧ (State.loseActive d other s).channels = s.channels ∧
    (State.loseActive d other s).comp = s.comp ∧ (State.loseActive d other s).domains = s.domains ∧
    (State.loseActive d other s).started = s.started ∧ (State.loseActive d other s).config = s.config ∧
    (State.loseActive d other s).panelReserved = s.panelReserved := by
  unfold State.loseActive
  try dsimp only
  repeat' split
  all_goals simp

@[simp] theorem State.lossEvent_frame (p : LinkPort) (s : State) :
    (State.lossEvent p s).powered = s.powered ∧ (State.lossEvent p s).pending = s.pending ∧
    (State.lossEvent p s).unitNumber = s.unitNumber ∧ (State.lossEvent p s).frameCounter = s.frameCounter ∧
    (State.lossEvent p s).memory = s.memory ∧ (State.lossEvent p s).channels = s.channels ∧
    (State.lossEvent p s).comp = s.comp ∧ (State.lossEvent p s).domains = s.domains ∧
    (State.lossEvent p s).started = s.started ∧ (State.lossEvent p s).config = s.config ∧
    (State.lossEvent p s).panelReserved = s.panelReserved := by
  unfold State.lossEvent
  try dsimp only
  repeat' split
  all_goals simp

@[simp] theorem State.qualityEvent_frame (p : LinkPort) (s : State) :
    (State.qualityEvent p s).powered = s.powered ∧ (State.qualityEvent p s).pending = s.pending ∧
    (State.qualityEvent p s).unitNumber = s.unitNumber ∧ (State.qualityEvent p s).frameCounter = s.frameCounter ∧
    (State.qualityEvent p s).memory = s.memory ∧ (State.qualityEvent p s).waitList = s.waitList ∧
    (State.qualityEvent p s).channels = s.channels ∧ (State.qualityEvent p s).comp = s.comp ∧
    (State.qualityEvent p s).outputs = s.outputs ∧ (State.qualityEvent p s).buses = s.buses ∧
    (State.qualityEvent p s).domains = s.domains ∧ (State.qualityEvent p s).started = s.started ∧
    (State.qualityEvent p s).config = s.config ∧ (State.qualityEvent p s).panelQueue = s.panelQueue ∧
    (State.qualityEvent p s).panelReserved = s.panelReserved := by
  unfold State.qualityEvent
  try dsimp only
  repeat' split
  all_goals simp

@[simp] theorem State.fadeOutEnd_frame (d : Desk) (s : State) :
    (State.fadeOutEnd d s).powered = s.powered ∧ (State.fadeOutEnd d s).pending = s.pending ∧
    (State.fadeOutEnd d s).unitNumber = s.unitNumber ∧ (State.fadeOutEnd d s).frameCounter = s.frameCounter ∧
    (State.fadeOutEnd d s).memory = s.memory ∧ (State.fadeOutEnd d s).ports = s.ports ∧
    (State.fadeOutEnd d s).waitList = s.waitList ∧ (State.fadeOutEnd d s).channels = s.channels ∧
    (State.fadeOutEnd d s).comp = s.comp ∧ (State.fadeOutEnd d s).outputs = s.outputs ∧
    (State.fadeOutEnd d s).buses = s.buses ∧ (State.fadeOutEnd d s).domains = s.domains ∧
    (State.fadeOutEnd d s).started = s.started ∧ (State.fadeOutEnd d s).config = s.config ∧
    (State.fadeOutEnd d s).panelQueue = s.panelQueue ∧ (State.fadeOutEnd d s).panelReserved = s.panelReserved := by
  unfold State.fadeOutEnd
  try dsimp only
  repeat' split
  all_goals simp

@[simp] theorem State.fadeInEnd_frame (d : Desk) (s : State) :
    (State.fadeInEnd d s).powered = s.powered ∧ (State.fadeInEnd d s).pending = s.pending ∧
    (State.fadeInEnd d s).unitNumber = s.unitNumber ∧ (State.fadeInEnd d s).frameCounter = s.frameCounter ∧
    (State.fadeInEnd d s).memory = s.memory ∧ (State.fadeInEnd d s).waitList = s.waitList ∧
    (State.fadeInEnd d s).channels = s.channels ∧ (State.fadeInEnd d s).comp = s.comp ∧
    (State.fadeInEnd d s).outputs = s.outputs ∧ (State.fadeInEnd d s).buses = s.buses ∧
    (State.fadeInEnd d s).domains = s.domains ∧ (State.fadeInEnd d s).started = s.started ∧
    (State.fadeInEnd d s).config = s.config ∧ (State.fadeInEnd d s).panelQueue = s.panelQueue ∧
    (State.fadeInEnd d s).panelReserved = s.panelReserved := by
  unfold State.fadeInEnd
  try dsimp only
  repeat' split
  all_goals simp

@[simp] theorem State.admitWaiting_frame (d : Desk) (s : State) :
    (State.admitWaiting d s).powered = s.powered ∧ (State.admitWaiting d s).pending = s.pending ∧
    (State.admitWaiting d s).unitNumber = s.unitNumber ∧ (State.admitWaiting d s).frameCounter = s.frameCounter ∧
    (State.admitWaiting d s).memory = s.memory ∧ (State.admitWaiting d s).channels = s.channels ∧
    (State.admitWaiting d s).comp = s.comp ∧ (State.admitWaiting d s).domains = s.domains ∧
    (State.admitWaiting d s).started = s.started ∧ (State.admitWaiting d s).config = s.config ∧
    (State.admitWaiting d s).panelReserved = s.panelReserved := by
  unfold State.admitWaiting
  try dsimp only
  repeat' split
  all_goals simp

@[simp] theorem State.vacate_frame (d : Desk) (s : State) :
    (State.vacate d s).powered = s.powered ∧ (State.vacate d s).pending = s.pending ∧
    (State.vacate d s).unitNumber = s.unitNumber ∧ (State.vacate d s).frameCounter = s.frameCounter ∧
    (State.vacate d s).memory = s.memory ∧ (State.vacate d s).channels = s.channels ∧
    (State.vacate d s).started = s.started ∧ (State.vacate d s).config = s.config ∧
    (State.vacate d s).panelReserved = s.panelReserved := by
  unfold State.vacate
  try dsimp only
  repeat' split
  all_goals simp

@[simp] theorem State.graceExpiry_frame (d : Desk) (s : State) :
    (State.graceExpiry d s).powered = s.powered ∧ (State.graceExpiry d s).pending = s.pending ∧
    (State.graceExpiry d s).unitNumber = s.unitNumber ∧ (State.graceExpiry d s).frameCounter = s.frameCounter ∧
    (State.graceExpiry d s).memory = s.memory ∧ (State.graceExpiry d s).channels = s.channels ∧
    (State.graceExpiry d s).started = s.started ∧ (State.graceExpiry d s).config = s.config ∧
    (State.graceExpiry d s).panelReserved = s.panelReserved := by
  unfold State.graceExpiry
  try dsimp only
  repeat' split
  all_goals simp

@[simp] theorem State.preferFor_frame (d : Desk) (p : LinkPort) (s : State) :
    (State.preferFor d p s).1.powered = s.powered ∧ (State.preferFor d p s).1.pending = s.pending ∧
    (State.preferFor d p s).1.unitNumber = s.unitNumber ∧ (State.preferFor d p s).1.frameCounter = s.frameCounter ∧
    (State.preferFor d p s).1.memory = s.memory ∧ (State.preferFor d p s).1.waitList = s.waitList ∧
    (State.preferFor d p s).1.channels = s.channels ∧ (State.preferFor d p s).1.comp = s.comp ∧
    (State.preferFor d p s).1.outputs = s.outputs ∧ (State.preferFor d p s).1.buses = s.buses ∧
    (State.preferFor d p s).1.domains = s.domains ∧ (State.preferFor d p s).1.started = s.started ∧
    (State.preferFor d p s).1.config = s.config ∧ (State.preferFor d p s).1.panelQueue = s.panelQueue ∧
    (State.preferFor d p s).1.panelReserved = s.panelReserved := by
  unfold State.preferFor
  try dsimp only
  repeat' split
  all_goals simp

@[simp] theorem State.pathPrefer_frame (sl : SlotId) (code : Nat) (s : State) :
    (State.pathPrefer sl code s).1.powered = s.powered ∧ (State.pathPrefer sl code s).1.pending = s.pending ∧
    (State.pathPrefer sl code s).1.unitNumber = s.unitNumber ∧
    (State.pathPrefer sl code s).1.frameCounter = s.frameCounter ∧ (State.pathPrefer sl code s).1.memory = s.memory ∧
    (State.pathPrefer sl code s).1.waitList = s.waitList ∧ (State.pathPrefer sl code s).1.channels = s.channels ∧
    (State.pathPrefer sl code s).1.comp = s.comp ∧ (State.pathPrefer sl code s).1.outputs = s.outputs ∧
    (State.pathPrefer sl code s).1.buses = s.buses ∧ (State.pathPrefer sl code s).1.domains = s.domains ∧
    (State.pathPrefer sl code s).1.started = s.started ∧ (State.pathPrefer sl code s).1.config = s.config ∧
    (State.pathPrefer sl code s).1.panelQueue = s.panelQueue ∧
    (State.pathPrefer sl code s).1.panelReserved = s.panelReserved := by
  unfold State.pathPrefer
  try dsimp only
  repeat' split
  all_goals simp

@[simp] theorem State.loadChannels_frame (body : List Byte) (s : State) :
    (State.loadChannels body s).powered = s.powered ∧ (State.loadChannels body s).pending = s.pending ∧
    (State.loadChannels body s).unitNumber = s.unitNumber ∧
    (State.loadChannels body s).frameCounter = s.frameCounter ∧ (State.loadChannels body s).memory = s.memory ∧
    (State.loadChannels body s).ports = s.ports ∧ (State.loadChannels body s).slots = s.slots ∧
    (State.loadChannels body s).waitList = s.waitList ∧ (State.loadChannels body s).comp = s.comp ∧
    (State.loadChannels body s).outputs = s.outputs ∧ (State.loadChannels body s).buses = s.buses ∧
    (State.loadChannels body s).domains = s.domains ∧ (State.loadChannels body s).started = s.started ∧
    (State.loadChannels body s).config = s.config ∧ (State.loadChannels body s).panelQueue = s.panelQueue ∧
    (State.loadChannels body s).panelReserved = s.panelReserved := by
  unfold State.loadChannels
  simp [apply_ite State.powered, apply_ite State.pending, apply_ite State.unitNumber, apply_ite State.frameCounter, apply_ite State.memory, apply_ite State.ports, apply_ite State.slots, apply_ite State.waitList, apply_ite State.comp, apply_ite State.outputs, apply_ite State.buses, apply_ite State.domains, apply_ite State.started, apply_ite State.config, apply_ite State.panelQueue, apply_ite State.panelReserved]

@[simp] theorem State.loadSafe_frame (body : List Byte) (s : State) :
    (State.loadSafe body s).powered = s.powered ∧ (State.loadSafe body s).pending = s.pending ∧
    (State.loadSafe body s).unitNumber = s.unitNumber ∧ (State.loadSafe body s).frameCounter = s.frameCounter ∧
    (State.loadSafe body s).memory = s.memory ∧ (State.loadSafe body s).ports = s.ports ∧
    (State.loadSafe body s).slots = s.slots ∧ (State.loadSafe body s).waitList = s.waitList ∧
    (State.loadSafe body s).channels = s.channels ∧ (State.loadSafe body s).comp = s.comp ∧
    (State.loadSafe body s).outputs = s.outputs ∧ (State.loadSafe body s).buses = s.buses ∧
    (State.loadSafe body s).domains = s.domains ∧ (State.loadSafe body s).started = s.started ∧
    (State.loadSafe body s).config = s.config ∧ (State.loadSafe body s).panelQueue = s.panelQueue ∧
    (State.loadSafe body s).panelReserved = s.panelReserved := by
  unfold State.loadSafe
  try dsimp only
  repeat' split
  all_goals simp

@[simp] theorem State.loadPatchEntry_frame (body : List Byte) (o : Nat) (s : State) :
    (State.loadPatchEntry body o s).powered = s.powered ∧ (State.loadPatchEntry body o s).pending = s.pending ∧
    (State.loadPatchEntry body o s).unitNumber = s.unitNumber ∧
    (State.loadPatchEntry body o s).frameCounter = s.frameCounter ∧
    (State.loadPatchEntry body o s).memory = s.memory ∧ (State.loadPatchEntry body o s).ports = s.ports ∧
    (State.loadPatchEntry body o s).slots = s.slots ∧ (State.loadPatchEntry body o s).waitList = s.waitList ∧
    (State.loadPatchEntry body o s).channels = s.channels ∧ (State.loadPatchEntry body o s).comp = s.comp ∧
    (State.loadPatchEntry body o s).buses = s.buses ∧ (State.loadPatchEntry body o s).domains = s.domains ∧
    (State.loadPatchEntry body o s).started = s.started ∧ (State.loadPatchEntry body o s).config = s.config ∧
    (State.loadPatchEntry body o s).panelQueue = s.panelQueue ∧
    (State.loadPatchEntry body o s).panelReserved = s.panelReserved := by
  unfold State.loadPatchEntry
  try dsimp only
  repeat' split
  all_goals simp

@[simp] theorem State.loadPatch_frame (body : List Byte) (s : State) :
    (State.loadPatch body s).powered = s.powered ∧ (State.loadPatch body s).pending = s.pending ∧
    (State.loadPatch body s).unitNumber = s.unitNumber ∧ (State.loadPatch body s).frameCounter = s.frameCounter ∧
    (State.loadPatch body s).memory = s.memory ∧ (State.loadPatch body s).ports = s.ports ∧
    (State.loadPatch body s).slots = s.slots ∧ (State.loadPatch body s).waitList = s.waitList ∧
    (State.loadPatch body s).channels = s.channels ∧ (State.loadPatch body s).comp = s.comp ∧
    (State.loadPatch body s).buses = s.buses ∧ (State.loadPatch body s).domains = s.domains ∧
    (State.loadPatch body s).started = s.started ∧ (State.loadPatch body s).config = s.config ∧
    (State.loadPatch body s).panelQueue = s.panelQueue ∧ (State.loadPatch body s).panelReserved = s.panelReserved := by
  unfold State.loadPatch
  try dsimp only
  repeat' split
  all_goals simp

@[simp] theorem State.loadStage_frame (body : List Byte) (s : State) :
    (State.loadStage body s).powered = s.powered ∧ (State.loadStage body s).pending = s.pending ∧
    (State.loadStage body s).unitNumber = s.unitNumber ∧ (State.loadStage body s).frameCounter = s.frameCounter ∧
    (State.loadStage body s).memory = s.memory ∧ (State.loadStage body s).ports = s.ports ∧
    (State.loadStage body s).slots = s.slots ∧ (State.loadStage body s).waitList = s.waitList ∧
    (State.loadStage body s).channels = s.channels ∧ (State.loadStage body s).comp = s.comp ∧
    (State.loadStage body s).outputs = s.outputs ∧ (State.loadStage body s).buses = s.buses ∧
    (State.loadStage body s).domains = s.domains ∧ (State.loadStage body s).started = s.started ∧
    (State.loadStage body s).config = s.config ∧ (State.loadStage body s).panelQueue = s.panelQueue ∧
    (State.loadStage body s).panelReserved = s.panelReserved := by
  unfold State.loadStage
  try dsimp only
  repeat' split
  all_goals simp

@[simp] theorem State.loadEnd_frame (silentFrom : Option Nat) (s : State) :
    (State.loadEnd silentFrom s).powered = s.powered ∧ (State.loadEnd silentFrom s).pending = s.pending ∧
    (State.loadEnd silentFrom s).unitNumber = s.unitNumber ∧
    (State.loadEnd silentFrom s).frameCounter = s.frameCounter ∧ (State.loadEnd silentFrom s).memory = s.memory ∧
    (State.loadEnd silentFrom s).ports = s.ports ∧ (State.loadEnd silentFrom s).slots = s.slots ∧
    (State.loadEnd silentFrom s).waitList = s.waitList ∧ (State.loadEnd silentFrom s).comp = s.comp ∧
    (State.loadEnd silentFrom s).buses = s.buses ∧ (State.loadEnd silentFrom s).domains = s.domains ∧
    (State.loadEnd silentFrom s).started = s.started ∧ (State.loadEnd silentFrom s).panelQueue = s.panelQueue ∧
    (State.loadEnd silentFrom s).panelReserved = s.panelReserved := by
  unfold State.loadEnd
  try dsimp only
  repeat' split
  all_goals simp

@[simp] theorem State.startupComplete_frame (s : State) :
    (State.startupComplete s).powered = s.powered ∧ (State.startupComplete s).pending = s.pending ∧
    (State.startupComplete s).unitNumber = s.unitNumber ∧ (State.startupComplete s).frameCounter = s.frameCounter ∧
    (State.startupComplete s).memory = s.memory ∧ (State.startupComplete s).ports = s.ports ∧
    (State.startupComplete s).slots = s.slots ∧ (State.startupComplete s).waitList = s.waitList ∧
    (State.startupComplete s).channels = s.channels ∧ (State.startupComplete s).comp = s.comp ∧
    (State.startupComplete s).outputs = s.outputs ∧ (State.startupComplete s).buses = s.buses ∧
    (State.startupComplete s).domains = s.domains ∧ (State.startupComplete s).config = s.config ∧
    (State.startupComplete s).panelQueue = s.panelQueue ∧ (State.startupComplete s).panelReserved = s.panelReserved := by
  unfold State.startupComplete
  try dsimp only
  repeat' split
  all_goals simp

@[simp] theorem State.acceptStore_frame (tag : Byte) (codes : List Nat) (s : State) :
    (State.acceptStore tag codes s).powered = s.powered ∧ (State.acceptStore tag codes s).pending = s.pending ∧
    (State.acceptStore tag codes s).unitNumber = s.unitNumber ∧
    (State.acceptStore tag codes s).frameCounter = s.frameCounter ∧
    (State.acceptStore tag codes s).memory = s.memory ∧ (State.acceptStore tag codes s).ports = s.ports ∧
    (State.acceptStore tag codes s).slots = s.slots ∧ (State.acceptStore tag codes s).waitList = s.waitList ∧
    (State.acceptStore tag codes s).channels = s.channels ∧ (State.acceptStore tag codes s).comp = s.comp ∧
    (State.acceptStore tag codes s).outputs = s.outputs ∧ (State.acceptStore tag codes s).buses = s.buses ∧
    (State.acceptStore tag codes s).domains = s.domains ∧ (State.acceptStore tag codes s).started = s.started ∧
    (State.acceptStore tag codes s).panelQueue = s.panelQueue := by
  unfold State.acceptStore
  try dsimp only
  repeat' split
  all_goals simp

@[simp] theorem State.store_frame (tag : Byte) (codes : List Nat) (s : State) :
    (State.store tag codes s).1.powered = s.powered ∧ (State.store tag codes s).1.pending = s.pending ∧
    (State.store tag codes s).1.unitNumber = s.unitNumber ∧
    (State.store tag codes s).1.frameCounter = s.frameCounter ∧ (State.store tag codes s).1.memory = s.memory ∧
    (State.store tag codes s).1.ports = s.ports ∧ (State.store tag codes s).1.slots = s.slots ∧
    (State.store tag codes s).1.waitList = s.waitList ∧ (State.store tag codes s).1.channels = s.channels ∧
    (State.store tag codes s).1.comp = s.comp ∧ (State.store tag codes s).1.outputs = s.outputs ∧
    (State.store tag codes s).1.buses = s.buses ∧ (State.store tag codes s).1.domains = s.domains ∧
    (State.store tag codes s).1.started = s.started ∧ (State.store tag codes s).1.panelQueue = s.panelQueue := by
  unfold State.store
  try dsimp only
  repeat' split
  all_goals simp

@[simp] theorem State.storeAnswer_frame (tag : Byte) (r : Result) (s : State) :
    (State.storeAnswer tag r s).powered = s.powered ∧ (State.storeAnswer tag r s).pending = s.pending ∧
    (State.storeAnswer tag r s).unitNumber = s.unitNumber ∧
    (State.storeAnswer tag r s).frameCounter = s.frameCounter ∧ (State.storeAnswer tag r s).memory = s.memory ∧
    (State.storeAnswer tag r s).ports = s.ports ∧ (State.storeAnswer tag r s).slots = s.slots ∧
    (State.storeAnswer tag r s).waitList = s.waitList ∧ (State.storeAnswer tag r s).channels = s.channels ∧
    (State.storeAnswer tag r s).comp = s.comp ∧ (State.storeAnswer tag r s).outputs = s.outputs ∧
    (State.storeAnswer tag r s).buses = s.buses ∧ (State.storeAnswer tag r s).domains = s.domains ∧
    (State.storeAnswer tag r s).started = s.started ∧ (State.storeAnswer tag r s).config = s.config := by
  unfold State.storeAnswer
  try dsimp only
  repeat' split
  all_goals simp

@[simp] theorem State.storeFailed_frame (job : StoreJob) (s : State) :
    (State.storeFailed job s).powered = s.powered ∧ (State.storeFailed job s).pending = s.pending ∧
    (State.storeFailed job s).unitNumber = s.unitNumber ∧ (State.storeFailed job s).frameCounter = s.frameCounter ∧
    (State.storeFailed job s).memory = s.memory ∧ (State.storeFailed job s).ports = s.ports ∧
    (State.storeFailed job s).slots = s.slots ∧ (State.storeFailed job s).waitList = s.waitList ∧
    (State.storeFailed job s).channels = s.channels ∧ (State.storeFailed job s).comp = s.comp ∧
    (State.storeFailed job s).outputs = s.outputs ∧ (State.storeFailed job s).buses = s.buses ∧
    (State.storeFailed job s).domains = s.domains ∧ (State.storeFailed job s).started = s.started := by
  unfold State.storeFailed
  try dsimp only
  repeat' split
  all_goals simp

@[simp] theorem State.storeDone_frame (job : StoreJob) (written : List RecordType) (s : State) :
    (State.storeDone job written s).powered = s.powered ∧ (State.storeDone job written s).pending = s.pending ∧
    (State.storeDone job written s).unitNumber = s.unitNumber ∧
    (State.storeDone job written s).frameCounter = s.frameCounter ∧
    (State.storeDone job written s).memory = s.memory ∧ (State.storeDone job written s).ports = s.ports ∧
    (State.storeDone job written s).slots = s.slots ∧ (State.storeDone job written s).waitList = s.waitList ∧
    (State.storeDone job written s).channels = s.channels ∧ (State.storeDone job written s).comp = s.comp ∧
    (State.storeDone job written s).outputs = s.outputs ∧ (State.storeDone job written s).buses = s.buses ∧
    (State.storeDone job written s).domains = s.domains ∧ (State.storeDone job written s).started = s.started := by
  unfold State.storeDone
  try dsimp only
  repeat' split
  all_goals simp

@[simp] theorem State.cutRecord_frame (rec : StoredRecord) (s : State) :
    (State.cutRecord rec s).powered = s.powered ∧ (State.cutRecord rec s).pending = s.pending ∧
    (State.cutRecord rec s).unitNumber = s.unitNumber ∧ (State.cutRecord rec s).frameCounter = s.frameCounter ∧
    (State.cutRecord rec s).ports = s.ports ∧ (State.cutRecord rec s).slots = s.slots ∧
    (State.cutRecord rec s).waitList = s.waitList ∧ (State.cutRecord rec s).channels = s.channels ∧
    (State.cutRecord rec s).comp = s.comp ∧ (State.cutRecord rec s).outputs = s.outputs ∧
    (State.cutRecord rec s).buses = s.buses ∧ (State.cutRecord rec s).domains = s.domains ∧
    (State.cutRecord rec s).started = s.started ∧ (State.cutRecord rec s).config = s.config ∧
    (State.cutRecord rec s).panelQueue = s.panelQueue ∧ (State.cutRecord rec s).panelReserved = s.panelReserved := by
  unfold State.cutRecord
  try dsimp only
  repeat' split
  all_goals simp

@[simp] theorem State.storeRecordChecked_frame (readBack : Option (List Byte)) (s : State) :
    (State.storeRecordChecked readBack s).powered = s.powered ∧
    (State.storeRecordChecked readBack s).pending = s.pending ∧
    (State.storeRecordChecked readBack s).unitNumber = s.unitNumber ∧
    (State.storeRecordChecked readBack s).frameCounter = s.frameCounter ∧
    (State.storeRecordChecked readBack s).ports = s.ports ∧ (State.storeRecordChecked readBack s).slots = s.slots ∧
    (State.storeRecordChecked readBack s).waitList = s.waitList ∧
    (State.storeRecordChecked readBack s).channels = s.channels ∧
    (State.storeRecordChecked readBack s).comp = s.comp ∧ (State.storeRecordChecked readBack s).outputs = s.outputs ∧
    (State.storeRecordChecked readBack s).buses = s.buses ∧
    (State.storeRecordChecked readBack s).domains = s.domains ∧
    (State.storeRecordChecked readBack s).started = s.started := by
  unfold State.storeRecordChecked
  try dsimp only
  repeat' split
  all_goals simp

@[simp] theorem State.abandonStore_frame (s : State) :
    (State.abandonStore s).powered = s.powered ∧ (State.abandonStore s).pending = s.pending ∧
    (State.abandonStore s).unitNumber = s.unitNumber ∧ (State.abandonStore s).frameCounter = s.frameCounter ∧
    (State.abandonStore s).ports = s.ports ∧ (State.abandonStore s).slots = s.slots ∧
    (State.abandonStore s).waitList = s.waitList ∧ (State.abandonStore s).channels = s.channels ∧
    (State.abandonStore s).comp = s.comp ∧ (State.abandonStore s).outputs = s.outputs ∧
    (State.abandonStore s).buses = s.buses ∧ (State.abandonStore s).domains = s.domains ∧
    (State.abandonStore s).started = s.started ∧ (State.abandonStore s).panelQueue = s.panelQueue ∧
    (State.abandonStore s).panelReserved = s.panelReserved := by
  unfold State.abandonStore
  try dsimp only
  repeat' split
  all_goals simp

@[simp] theorem State.writeTalkClass_frame (x : SlotId) (v : Int) (s : State) :
    (State.writeTalkClass x v s).1.powered = s.powered ∧ (State.writeTalkClass x v s).1.pending = s.pending ∧
    (State.writeTalkClass x v s).1.unitNumber = s.unitNumber ∧
    (State.writeTalkClass x v s).1.frameCounter = s.frameCounter ∧ (State.writeTalkClass x v s).1.memory = s.memory ∧
    (State.writeTalkClass x v s).1.ports = s.ports ∧ (State.writeTalkClass x v s).1.waitList = s.waitList ∧
    (State.writeTalkClass x v s).1.channels = s.channels ∧ (State.writeTalkClass x v s).1.comp = s.comp ∧
    (State.writeTalkClass x v s).1.outputs = s.outputs ∧ (State.writeTalkClass x v s).1.domains = s.domains ∧
    (State.writeTalkClass x v s).1.started = s.started ∧ (State.writeTalkClass x v s).1.config = s.config ∧
    (State.writeTalkClass x v s).1.panelQueue = s.panelQueue ∧
    (State.writeTalkClass x v s).1.panelReserved = s.panelReserved := by
  unfold State.writeTalkClass
  try dsimp only
  repeat' split
  all_goals simp

@[simp] theorem State.writeParam_frame (sl : SlotId) (p : Param) (v : Int) (s : State) :
    (State.writeParam sl p v s).1.powered = s.powered ∧ (State.writeParam sl p v s).1.pending = s.pending ∧
    (State.writeParam sl p v s).1.unitNumber = s.unitNumber ∧
    (State.writeParam sl p v s).1.frameCounter = s.frameCounter ∧ (State.writeParam sl p v s).1.memory = s.memory ∧
    (State.writeParam sl p v s).1.ports = s.ports ∧ (State.writeParam sl p v s).1.waitList = s.waitList ∧
    (State.writeParam sl p v s).1.domains = s.domains ∧ (State.writeParam sl p v s).1.started = s.started ∧
    (State.writeParam sl p v s).1.config = s.config ∧ (State.writeParam sl p v s).1.panelQueue = s.panelQueue ∧
    (State.writeParam sl p v s).1.panelReserved = s.panelReserved := by
  unfold State.writeParam
  try dsimp only
  repeat' split
  all_goals simp

@[simp] theorem State.writeItems_frame (sl : SlotId) (l : List Item) (s : State) :
    (State.writeItems sl l s).1.powered = s.powered ∧ (State.writeItems sl l s).1.pending = s.pending ∧
    (State.writeItems sl l s).1.unitNumber = s.unitNumber ∧
    (State.writeItems sl l s).1.frameCounter = s.frameCounter ∧ (State.writeItems sl l s).1.memory = s.memory ∧
    (State.writeItems sl l s).1.ports = s.ports ∧ (State.writeItems sl l s).1.waitList = s.waitList ∧
    (State.writeItems sl l s).1.domains = s.domains ∧ (State.writeItems sl l s).1.started = s.started ∧
    (State.writeItems sl l s).1.config = s.config ∧ (State.writeItems sl l s).1.panelQueue = s.panelQueue ∧
    (State.writeItems sl l s).1.panelReserved = s.panelReserved := by
  induction l generalizing s with
  | nil => exact ⟨rfl, rfl, rfl, rfl, rfl, rfl, rfl, rfl, rfl, rfl, rfl, rfl⟩
  | cons x xs ih =>
    dsimp only [State.writeItems]
    repeat' split
    all_goals simp [ih]

@[simp] theorem State.writeAll_frame (sl : SlotId) (items : List Item) (echo : Nat) (s : State) :
    (State.writeAll sl items echo s).state.powered = s.powered ∧
    (State.writeAll sl items echo s).state.pending = s.pending ∧
    (State.writeAll sl items echo s).state.unitNumber = s.unitNumber ∧
    (State.writeAll sl items echo s).state.frameCounter = s.frameCounter ∧
    (State.writeAll sl items echo s).state.memory = s.memory ∧
    (State.writeAll sl items echo s).state.ports = s.ports ∧
    (State.writeAll sl items echo s).state.waitList = s.waitList ∧
    (State.writeAll sl items echo s).state.started = s.started ∧
    (State.writeAll sl items echo s).state.config = s.config ∧
    (State.writeAll sl items echo s).state.panelQueue = s.panelQueue ∧
    (State.writeAll sl items echo s).state.panelReserved = s.panelReserved := by
  unfold State.writeAll
  try dsimp only
  repeat' split
  all_goals simp

@[simp] theorem State.doGet_frame (sl : SlotId) (first count : Nat) (s : State) :
    (State.doGet sl first count s).state.powered = s.powered ∧
    (State.doGet sl first count s).state.pending = s.pending ∧
    (State.doGet sl first count s).state.unitNumber = s.unitNumber ∧
    (State.doGet sl first count s).state.frameCounter = s.frameCounter ∧
    (State.doGet sl first count s).state.memory = s.memory ∧ (State.doGet sl first count s).state.ports = s.ports ∧
    (State.doGet sl first count s).state.slots = s.slots ∧
    (State.doGet sl first count s).state.waitList = s.waitList ∧
    (State.doGet sl first count s).state.channels = s.channels ∧ (State.doGet sl first count s).state.comp = s.comp ∧
    (State.doGet sl first count s).state.outputs = s.outputs ∧ (State.doGet sl first count s).state.buses = s.buses ∧
    (State.doGet sl first count s).state.domains = s.domains ∧
    (State.doGet sl first count s).state.started = s.started ∧
    (State.doGet sl first count s).state.config = s.config ∧
    (State.doGet sl first count s).state.panelQueue = s.panelQueue ∧
    (State.doGet sl first count s).state.panelReserved = s.panelReserved := by
  unfold State.doGet
  try dsimp only
  repeat' split
  all_goals simp

@[simp] theorem State.doSet_frame (sl : SlotId) (index : Nat) (value : Int) (echo : Nat) (s : State) :
    (State.doSet sl index value echo s).state.powered = s.powered ∧
    (State.doSet sl index value echo s).state.pending = s.pending ∧
    (State.doSet sl index value echo s).state.unitNumber = s.unitNumber ∧
    (State.doSet sl index value echo s).state.frameCounter = s.frameCounter ∧
    (State.doSet sl index value echo s).state.memory = s.memory ∧
    (State.doSet sl index value echo s).state.ports = s.ports ∧
    (State.doSet sl index value echo s).state.waitList = s.waitList ∧
    (State.doSet sl index value echo s).state.started = s.started ∧
    (State.doSet sl index value echo s).state.config = s.config ∧
    (State.doSet sl index value echo s).state.panelQueue = s.panelQueue ∧
    (State.doSet sl index value echo s).state.panelReserved = s.panelReserved := by
  unfold State.doSet
  try dsimp only
  repeat' split
  all_goals simp

@[simp] theorem State.doMatrix_frame (sl : SlotId) (s1 s2 m1 m2 echo : Nat) (vs : List Int) (s : State) :
    (State.doMatrix sl s1 s2 m1 m2 echo vs s).state.powered = s.powered ∧
    (State.doMatrix sl s1 s2 m1 m2 echo vs s).state.pending = s.pending ∧
    (State.doMatrix sl s1 s2 m1 m2 echo vs s).state.unitNumber = s.unitNumber ∧
    (State.doMatrix sl s1 s2 m1 m2 echo vs s).state.frameCounter = s.frameCounter ∧
    (State.doMatrix sl s1 s2 m1 m2 echo vs s).state.memory = s.memory ∧
    (State.doMatrix sl s1 s2 m1 m2 echo vs s).state.ports = s.ports ∧
    (State.doMatrix sl s1 s2 m1 m2 echo vs s).state.waitList = s.waitList ∧
    (State.doMatrix sl s1 s2 m1 m2 echo vs s).state.started = s.started ∧
    (State.doMatrix sl s1 s2 m1 m2 echo vs s).state.config = s.config ∧
    (State.doMatrix sl s1 s2 m1 m2 echo vs s).state.panelQueue = s.panelQueue ∧
    (State.doMatrix sl s1 s2 m1 m2 echo vs s).state.panelReserved = s.panelReserved := by
  unfold State.doMatrix
  try dsimp only
  repeat' split
  all_goals simp

@[simp] theorem State.doRun_frame (sl : SlotId) (first echo : Nat) (vs : List Int) (s : State) :
    (State.doRun sl first echo vs s).state.powered = s.powered ∧
    (State.doRun sl first echo vs s).state.pending = s.pending ∧
    (State.doRun sl first echo vs s).state.unitNumber = s.unitNumber ∧
    (State.doRun sl first echo vs s).state.frameCounter = s.frameCounter ∧
    (State.doRun sl first echo vs s).state.memory = s.memory ∧
    (State.doRun sl first echo vs s).state.ports = s.ports ∧
    (State.doRun sl first echo vs s).state.waitList = s.waitList ∧
    (State.doRun sl first echo vs s).state.started = s.started ∧
    (State.doRun sl first echo vs s).state.config = s.config ∧
    (State.doRun sl first echo vs s).state.panelQueue = s.panelQueue ∧
    (State.doRun sl first echo vs s).state.panelReserved = s.panelReserved := by
  unfold State.doRun
  try dsimp only
  repeat' split
  all_goals simp

@[simp] theorem State.doRebase_frame (sl : SlotId) (first last col : Nat) (s : State) :
    (State.doRebase sl first last col s).state.powered = s.powered ∧
    (State.doRebase sl first last col s).state.pending = s.pending ∧
    (State.doRebase sl first last col s).state.unitNumber = s.unitNumber ∧
    (State.doRebase sl first last col s).state.frameCounter = s.frameCounter ∧
    (State.doRebase sl first last col s).state.memory = s.memory ∧
    (State.doRebase sl first last col s).state.ports = s.ports ∧
    (State.doRebase sl first last col s).state.slots = s.slots ∧
    (State.doRebase sl first last col s).state.waitList = s.waitList ∧
    (State.doRebase sl first last col s).state.channels = s.channels ∧
    (State.doRebase sl first last col s).state.outputs = s.outputs ∧
    (State.doRebase sl first last col s).state.buses = s.buses ∧
    (State.doRebase sl first last col s).state.started = s.started ∧
    (State.doRebase sl first last col s).state.config = s.config ∧
    (State.doRebase sl first last col s).state.panelQueue = s.panelQueue ∧
    (State.doRebase sl first last col s).state.panelReserved = s.panelReserved := by
  unfold State.doRebase
  try dsimp only
  repeat' split
  all_goals simp

@[simp] theorem State.doRecall_frame (sl : SlotId) (s : State) :
    (State.doRecall sl s).state.powered = s.powered ∧ (State.doRecall sl s).state.pending = s.pending ∧
    (State.doRecall sl s).state.unitNumber = s.unitNumber ∧
    (State.doRecall sl s).state.frameCounter = s.frameCounter ∧ (State.doRecall sl s).state.memory = s.memory ∧
    (State.doRecall sl s).state.ports = s.ports ∧ (State.doRecall sl s).state.slots = s.slots ∧
    (State.doRecall sl s).state.waitList = s.waitList ∧ (State.doRecall sl s).state.channels = s.channels ∧
    (State.doRecall sl s).state.comp = s.comp ∧ (State.doRecall sl s).state.outputs = s.outputs ∧
    (State.doRecall sl s).state.buses = s.buses ∧ (State.doRecall sl s).state.domains = s.domains ∧
    (State.doRecall sl s).state.started = s.started ∧ (State.doRecall sl s).state.config = s.config ∧
    (State.doRecall sl s).state.panelQueue = s.panelQueue ∧
    (State.doRecall sl s).state.panelReserved = s.panelReserved := by
  unfold State.doRecall
  try dsimp only
  repeat' split
  all_goals simp

@[simp] theorem State.doClearOvers_frame (sl : SlotId) (s : State) :
    (State.doClearOvers sl s).state.powered = s.powered ∧ (State.doClearOvers sl s).state.pending = s.pending ∧
    (State.doClearOvers sl s).state.unitNumber = s.unitNumber ∧
    (State.doClearOvers sl s).state.frameCounter = s.frameCounter ∧
    (State.doClearOvers sl s).state.memory = s.memory ∧ (State.doClearOvers sl s).state.ports = s.ports ∧
    (State.doClearOvers sl s).state.slots = s.slots ∧ (State.doClearOvers sl s).state.waitList = s.waitList ∧
    (State.doClearOvers sl s).state.channels = s.channels ∧ (State.doClearOvers sl s).state.comp = s.comp ∧
    (State.doClearOvers sl s).state.outputs = s.outputs ∧ (State.doClearOvers sl s).state.buses = s.buses ∧
    (State.doClearOvers sl s).state.domains = s.domains ∧ (State.doClearOvers sl s).state.started = s.started ∧
    (State.doClearOvers sl s).state.config = s.config ∧ (State.doClearOvers sl s).state.panelQueue = s.panelQueue ∧
    (State.doClearOvers sl s).state.panelReserved = s.panelReserved := by
  unfold State.doClearOvers
  try dsimp only
  repeat' split
  all_goals simp

@[simp] theorem State.doDescribe_frame (sl : SlotId) (s : State) :
    (State.doDescribe sl s).state.powered = s.powered ∧ (State.doDescribe sl s).state.pending = s.pending ∧
    (State.doDescribe sl s).state.unitNumber = s.unitNumber ∧
    (State.doDescribe sl s).state.frameCounter = s.frameCounter ∧ (State.doDescribe sl s).state.memory = s.memory ∧
    (State.doDescribe sl s).state.ports = s.ports ∧ (State.doDescribe sl s).state.slots = s.slots ∧
    (State.doDescribe sl s).state.waitList = s.waitList ∧ (State.doDescribe sl s).state.channels = s.channels ∧
    (State.doDescribe sl s).state.comp = s.comp ∧ (State.doDescribe sl s).state.outputs = s.outputs ∧
    (State.doDescribe sl s).state.buses = s.buses ∧ (State.doDescribe sl s).state.domains = s.domains ∧
    (State.doDescribe sl s).state.started = s.started ∧ (State.doDescribe sl s).state.config = s.config ∧
    (State.doDescribe sl s).state.panelQueue = s.panelQueue ∧
    (State.doDescribe sl s).state.panelReserved = s.panelReserved := by
  unfold State.doDescribe
  try dsimp only
  repeat' split
  all_goals simp

@[simp] theorem State.doMeters_frame (on : Bool) (s : State) :
    (State.doMeters on s).state.powered = s.powered ∧ (State.doMeters on s).state.pending = s.pending ∧
    (State.doMeters on s).state.unitNumber = s.unitNumber ∧
    (State.doMeters on s).state.frameCounter = s.frameCounter ∧ (State.doMeters on s).state.memory = s.memory ∧
    (State.doMeters on s).state.ports = s.ports ∧ (State.doMeters on s).state.slots = s.slots ∧
    (State.doMeters on s).state.waitList = s.waitList ∧ (State.doMeters on s).state.channels = s.channels ∧
    (State.doMeters on s).state.comp = s.comp ∧ (State.doMeters on s).state.outputs = s.outputs ∧
    (State.doMeters on s).state.buses = s.buses ∧ (State.doMeters on s).state.domains = s.domains ∧
    (State.doMeters on s).state.started = s.started ∧ (State.doMeters on s).state.config = s.config ∧
    (State.doMeters on s).state.panelQueue = s.panelQueue ∧
    (State.doMeters on s).state.panelReserved = s.panelReserved := by
  unfold State.doMeters
  try dsimp only
  repeat' split
  all_goals simp

@[simp] theorem State.perform_frame (sl : SlotId) (r : Request) (s : State) :
    (State.perform sl r s).state.powered = s.powered ∧ (State.perform sl r s).state.pending = s.pending ∧
    (State.perform sl r s).state.unitNumber = s.unitNumber ∧
    (State.perform sl r s).state.frameCounter = s.frameCounter ∧ (State.perform sl r s).state.memory = s.memory ∧
    (State.perform sl r s).state.waitList = s.waitList ∧ (State.perform sl r s).state.started = s.started ∧
    (State.perform sl r s).state.config = s.config ∧ (State.perform sl r s).state.panelQueue = s.panelQueue ∧
    (State.perform sl r s).state.panelReserved = s.panelReserved := by
  unfold State.perform
  try dsimp only
  repeat' split
  all_goals simp

@[simp] theorem State.answer_frame (sl : SlotId) (tag kind : Byte) (r : Result) (data : AnswerData) (s : State) :
    (State.answer sl tag kind r data s).powered = s.powered ∧
    (State.answer sl tag kind r data s).pending = s.pending ∧
    (State.answer sl tag kind r data s).unitNumber = s.unitNumber ∧
    (State.answer sl tag kind r data s).frameCounter = s.frameCounter ∧
    (State.answer sl tag kind r data s).memory = s.memory ∧ (State.answer sl tag kind r data s).ports = s.ports ∧
    (State.answer sl tag kind r data s).slots = s.slots ∧ (State.answer sl tag kind r data s).waitList = s.waitList ∧
    (State.answer sl tag kind r data s).channels = s.channels ∧ (State.answer sl tag kind r data s).comp = s.comp ∧
    (State.answer sl tag kind r data s).outputs = s.outputs ∧ (State.answer sl tag kind r data s).buses = s.buses ∧
    (State.answer sl tag kind r data s).domains = s.domains ∧
    (State.answer sl tag kind r data s).started = s.started ∧ (State.answer sl tag kind r data s).config = s.config ∧
    (State.answer sl tag kind r data s).panelReserved = s.panelReserved := by
  unfold State.answer
  try dsimp only
  repeat' split
  all_goals simp

@[simp] theorem State.answerRequest_desk_powered (d : Desk) (tag : Byte) (r : Request) (s : State) : (State.answerRequest (SlotId.desk d) tag r s).powered = s.powered := by
  have hd : (State.answerRequest (SlotId.desk d) tag r s).powered = s.powered := by
    unfold State.answerRequest
    dsimp only
    split
    · simp
    · split
      · simp
      · cases r <;> simp_all [Request.panelOnly, Reply.place]
  exact hd
@[simp] theorem State.answerRequest_desk_pending (d : Desk) (tag : Byte) (r : Request) (s : State) : (State.answerRequest (SlotId.desk d) tag r s).pending = s.pending := by
  have hd : (State.answerRequest (SlotId.desk d) tag r s).pending = s.pending := by
    unfold State.answerRequest
    dsimp only
    split
    · simp
    · split
      · simp
      · cases r <;> simp_all [Request.panelOnly, Reply.place]
  exact hd
@[simp] theorem State.answerRequest_desk_unitNumber (d : Desk) (tag : Byte) (r : Request) (s : State) : (State.answerRequest (SlotId.desk d) tag r s).unitNumber = s.unitNumber := by
  have hd : (State.answerRequest (SlotId.desk d) tag r s).unitNumber = s.unitNumber := by
    unfold State.answerRequest
    dsimp only
    split
    · simp
    · split
      · simp
      · cases r <;> simp_all [Request.panelOnly, Reply.place]
  exact hd
@[simp] theorem State.answerRequest_desk_frameCounter (d : Desk) (tag : Byte) (r : Request) (s : State) : (State.answerRequest (SlotId.desk d) tag r s).frameCounter = s.frameCounter := by
  have hd : (State.answerRequest (SlotId.desk d) tag r s).frameCounter = s.frameCounter := by
    unfold State.answerRequest
    dsimp only
    split
    · simp
    · split
      · simp
      · cases r <;> simp_all [Request.panelOnly, Reply.place]
  exact hd
@[simp] theorem State.answerRequest_desk_memory (d : Desk) (tag : Byte) (r : Request) (s : State) : (State.answerRequest (SlotId.desk d) tag r s).memory = s.memory := by
  have hd : (State.answerRequest (SlotId.desk d) tag r s).memory = s.memory := by
    unfold State.answerRequest
    dsimp only
    split
    · simp
    · split
      · simp
      · cases r <;> simp_all [Request.panelOnly, Reply.place]
  exact hd
@[simp] theorem State.answerRequest_desk_waitList (d : Desk) (tag : Byte) (r : Request) (s : State) : (State.answerRequest (SlotId.desk d) tag r s).waitList = s.waitList := by
  have hd : (State.answerRequest (SlotId.desk d) tag r s).waitList = s.waitList := by
    unfold State.answerRequest
    dsimp only
    split
    · simp
    · split
      · simp
      · cases r <;> simp_all [Request.panelOnly, Reply.place]
  exact hd
@[simp] theorem State.answerRequest_desk_started (d : Desk) (tag : Byte) (r : Request) (s : State) : (State.answerRequest (SlotId.desk d) tag r s).started = s.started := by
  have hd : (State.answerRequest (SlotId.desk d) tag r s).started = s.started := by
    unfold State.answerRequest
    dsimp only
    split
    · simp
    · split
      · simp
      · cases r <;> simp_all [Request.panelOnly, Reply.place]
  exact hd
@[simp] theorem State.answerRequest_desk_config (d : Desk) (tag : Byte) (r : Request) (s : State) : (State.answerRequest (SlotId.desk d) tag r s).config = s.config := by
  have hd : (State.answerRequest (SlotId.desk d) tag r s).config = s.config := by
    unfold State.answerRequest
    dsimp only
    split
    · simp
    · split
      · simp
      · cases r <;> simp_all [Request.panelOnly, Reply.place]
  exact hd
@[simp] theorem State.answerRequest_desk_panelReserved (d : Desk) (tag : Byte) (r : Request) (s : State) : (State.answerRequest (SlotId.desk d) tag r s).panelReserved = s.panelReserved := by
  have hd : (State.answerRequest (SlotId.desk d) tag r s).panelReserved = s.panelReserved := by
    unfold State.answerRequest
    dsimp only
    split
    · simp
    · split
      · simp
      · cases r <;> simp_all [Request.panelOnly, Reply.place]
  exact hd

@[simp] theorem State.takeRequest_desk_powered (d : Desk) (tag : Byte) (r : Request) (s : State) : (State.takeRequest (SlotId.desk d) tag r s).powered = s.powered := by
  unfold State.takeRequest
  dsimp only
  split
  · rfl
  · split
    · exact State.answerRequest_desk_powered d tag r s
    · simp
@[simp] theorem State.takeRequest_desk_pending (d : Desk) (tag : Byte) (r : Request) (s : State) : (State.takeRequest (SlotId.desk d) tag r s).pending = s.pending := by
  unfold State.takeRequest
  dsimp only
  split
  · rfl
  · split
    · exact State.answerRequest_desk_pending d tag r s
    · simp
@[simp] theorem State.takeRequest_desk_unitNumber (d : Desk) (tag : Byte) (r : Request) (s : State) : (State.takeRequest (SlotId.desk d) tag r s).unitNumber = s.unitNumber := by
  unfold State.takeRequest
  dsimp only
  split
  · rfl
  · split
    · exact State.answerRequest_desk_unitNumber d tag r s
    · simp
@[simp] theorem State.takeRequest_desk_frameCounter (d : Desk) (tag : Byte) (r : Request) (s : State) : (State.takeRequest (SlotId.desk d) tag r s).frameCounter = s.frameCounter := by
  unfold State.takeRequest
  dsimp only
  split
  · rfl
  · split
    · exact State.answerRequest_desk_frameCounter d tag r s
    · simp
@[simp] theorem State.takeRequest_desk_memory (d : Desk) (tag : Byte) (r : Request) (s : State) : (State.takeRequest (SlotId.desk d) tag r s).memory = s.memory := by
  unfold State.takeRequest
  dsimp only
  split
  · rfl
  · split
    · exact State.answerRequest_desk_memory d tag r s
    · simp
@[simp] theorem State.takeRequest_desk_waitList (d : Desk) (tag : Byte) (r : Request) (s : State) : (State.takeRequest (SlotId.desk d) tag r s).waitList = s.waitList := by
  unfold State.takeRequest
  dsimp only
  split
  · rfl
  · split
    · exact State.answerRequest_desk_waitList d tag r s
    · simp
@[simp] theorem State.takeRequest_desk_started (d : Desk) (tag : Byte) (r : Request) (s : State) : (State.takeRequest (SlotId.desk d) tag r s).started = s.started := by
  unfold State.takeRequest
  dsimp only
  split
  · rfl
  · split
    · exact State.answerRequest_desk_started d tag r s
    · simp
@[simp] theorem State.takeRequest_desk_config (d : Desk) (tag : Byte) (r : Request) (s : State) : (State.takeRequest (SlotId.desk d) tag r s).config = s.config := by
  unfold State.takeRequest
  dsimp only
  split
  · rfl
  · split
    · exact State.answerRequest_desk_config d tag r s
    · simp
@[simp] theorem State.takeRequest_desk_panelReserved (d : Desk) (tag : Byte) (r : Request) (s : State) : (State.takeRequest (SlotId.desk d) tag r s).panelReserved = s.panelReserved := by
  unfold State.takeRequest
  dsimp only
  split
  · rfl
  · split
    · exact State.answerRequest_desk_panelReserved d tag r s
    · simp

@[simp] theorem State.takeMessage_desk_powered (d : Desk) (kind tag : Byte) (body : List Byte) (s : State) : (State.takeMessage (SlotId.desk d) kind tag body s).powered = s.powered := by
  exact State.takeRequest_desk_powered d tag _ s
@[simp] theorem State.takeMessage_desk_pending (d : Desk) (kind tag : Byte) (body : List Byte) (s : State) : (State.takeMessage (SlotId.desk d) kind tag body s).pending = s.pending := by
  exact State.takeRequest_desk_pending d tag _ s
@[simp] theorem State.takeMessage_desk_unitNumber (d : Desk) (kind tag : Byte) (body : List Byte) (s : State) : (State.takeMessage (SlotId.desk d) kind tag body s).unitNumber = s.unitNumber := by
  exact State.takeRequest_desk_unitNumber d tag _ s
@[simp] theorem State.takeMessage_desk_frameCounter (d : Desk) (kind tag : Byte) (body : List Byte) (s : State) : (State.takeMessage (SlotId.desk d) kind tag body s).frameCounter = s.frameCounter := by
  exact State.takeRequest_desk_frameCounter d tag _ s
@[simp] theorem State.takeMessage_desk_memory (d : Desk) (kind tag : Byte) (body : List Byte) (s : State) : (State.takeMessage (SlotId.desk d) kind tag body s).memory = s.memory := by
  exact State.takeRequest_desk_memory d tag _ s
@[simp] theorem State.takeMessage_desk_waitList (d : Desk) (kind tag : Byte) (body : List Byte) (s : State) : (State.takeMessage (SlotId.desk d) kind tag body s).waitList = s.waitList := by
  exact State.takeRequest_desk_waitList d tag _ s
@[simp] theorem State.takeMessage_desk_started (d : Desk) (kind tag : Byte) (body : List Byte) (s : State) : (State.takeMessage (SlotId.desk d) kind tag body s).started = s.started := by
  exact State.takeRequest_desk_started d tag _ s
@[simp] theorem State.takeMessage_desk_config (d : Desk) (kind tag : Byte) (body : List Byte) (s : State) : (State.takeMessage (SlotId.desk d) kind tag body s).config = s.config := by
  exact State.takeRequest_desk_config d tag _ s
@[simp] theorem State.takeMessage_desk_panelReserved (d : Desk) (kind tag : Byte) (body : List Byte) (s : State) : (State.takeMessage (SlotId.desk d) kind tag body s).panelReserved = s.panelReserved := by
  exact State.takeRequest_desk_panelReserved d tag _ s

@[simp] theorem State.applyStaged_frame (sl : SlotId) (l : List Staged) (s : State) :
    (State.applyStaged sl l s).1.powered = s.powered ∧ (State.applyStaged sl l s).1.pending = s.pending ∧
    (State.applyStaged sl l s).1.unitNumber = s.unitNumber ∧
    (State.applyStaged sl l s).1.frameCounter = s.frameCounter ∧ (State.applyStaged sl l s).1.memory = s.memory ∧
    (State.applyStaged sl l s).1.ports = s.ports ∧ (State.applyStaged sl l s).1.waitList = s.waitList ∧
    (State.applyStaged sl l s).1.domains = s.domains ∧ (State.applyStaged sl l s).1.started = s.started ∧
    (State.applyStaged sl l s).1.config = s.config ∧ (State.applyStaged sl l s).1.panelQueue = s.panelQueue ∧
    (State.applyStaged sl l s).1.panelReserved = s.panelReserved := by
  induction l generalizing s with
  | nil => exact ⟨rfl, rfl, rfl, rfl, rfl, rfl, rfl, rfl, rfl, rfl, rfl, rfl⟩
  | cons x xs ih =>
    dsimp only [State.applyStaged]
    repeat' split
    all_goals simp [ih]

@[simp] theorem State.closeBatches_frame (s : State) :
    (State.closeBatches s).powered = s.powered ∧
    (State.closeBatches s).pending = s.pending ∧
    (State.closeBatches s).unitNumber = s.unitNumber ∧
    (State.closeBatches s).frameCounter = s.frameCounter ∧
    (State.closeBatches s).memory = s.memory ∧
    (State.closeBatches s).ports = s.ports ∧
    (State.closeBatches s).slots = s.slots ∧
    (State.closeBatches s).waitList = s.waitList ∧
    (State.closeBatches s).channels = s.channels ∧
    (State.closeBatches s).comp = s.comp ∧
    (State.closeBatches s).outputs = s.outputs ∧
    (State.closeBatches s).buses = s.buses ∧
    (State.closeBatches s).domains = s.domains ∧
    (State.closeBatches s).started = s.started ∧
    (State.closeBatches s).config = s.config ∧
    (State.closeBatches s).panelQueue = s.panelQueue ∧
    (State.closeBatches s).panelReserved = s.panelReserved := by
  exact ⟨rfl, rfl, rfl, rfl, rfl, rfl, rfl, rfl, rfl, rfl, rfl, rfl, rfl, rfl, rfl, rfl, rfl⟩

@[simp] theorem State.batchEffect_frame (sl : SlotId) (s : State) :
    (State.batchEffect sl s).powered = s.powered ∧ (State.batchEffect sl s).pending = s.pending ∧
    (State.batchEffect sl s).unitNumber = s.unitNumber ∧ (State.batchEffect sl s).frameCounter = s.frameCounter ∧
    (State.batchEffect sl s).memory = s.memory ∧ (State.batchEffect sl s).ports = s.ports ∧
    (State.batchEffect sl s).waitList = s.waitList ∧ (State.batchEffect sl s).domains = s.domains ∧
    (State.batchEffect sl s).started = s.started ∧ (State.batchEffect sl s).config = s.config ∧
    (State.batchEffect sl s).panelReserved = s.panelReserved := by
  unfold State.batchEffect
  split
  · simp
  · exact ⟨rfl, rfl, rfl, rfl, rfl, rfl, rfl, rfl, rfl, rfl, rfl⟩

@[simp] theorem State.feedReceiver_frame (d : Desk) (lane : Option (List Byte)) (s : State) :
    (State.feedReceiver d lane s).powered = s.powered ∧ (State.feedReceiver d lane s).pending = s.pending ∧
    (State.feedReceiver d lane s).unitNumber = s.unitNumber ∧
    (State.feedReceiver d lane s).frameCounter = s.frameCounter ∧ (State.feedReceiver d lane s).memory = s.memory ∧
    (State.feedReceiver d lane s).waitList = s.waitList ∧ (State.feedReceiver d lane s).started = s.started ∧
    (State.feedReceiver d lane s).config = s.config ∧ (State.feedReceiver d lane s).panelReserved = s.panelReserved := by
  unfold State.feedReceiver
  try dsimp only
  repeat' split
  all_goals simp

@[simp] theorem State.absorb_frame (d : Desk) (dl : Delivery) (s : State) :
    (State.absorb d dl s).powered = s.powered ∧ (State.absorb d dl s).pending = s.pending ∧
    (State.absorb d dl s).unitNumber = s.unitNumber ∧ (State.absorb d dl s).frameCounter = s.frameCounter ∧
    (State.absorb d dl s).memory = s.memory ∧ (State.absorb d dl s).waitList = s.waitList ∧
    (State.absorb d dl s).started = s.started ∧ (State.absorb d dl s).config = s.config ∧
    (State.absorb d dl s).panelReserved = s.panelReserved := by
  unfold State.absorb
  try dsimp only
  repeat' split
  all_goals simp

@[simp] theorem State.takeDelivery_frame (p : LinkPort) (dl : Delivery) (s : State) :
    (State.takeDelivery p dl s).powered = s.powered ∧ (State.takeDelivery p dl s).pending = s.pending ∧
    (State.takeDelivery p dl s).unitNumber = s.unitNumber ∧
    (State.takeDelivery p dl s).frameCounter = s.frameCounter ∧ (State.takeDelivery p dl s).memory = s.memory ∧
    (State.takeDelivery p dl s).waitList = s.waitList ∧ (State.takeDelivery p dl s).started = s.started ∧
    (State.takeDelivery p dl s).config = s.config ∧ (State.takeDelivery p dl s).panelReserved = s.panelReserved := by
  unfold State.takeDelivery
  try dsimp only
  repeat' split
  all_goals simp

@[simp] theorem State.takeReturned_frame (d : Desk) (s : State) :
    (State.takeReturned d s).powered = s.powered ∧ (State.takeReturned d s).pending = s.pending ∧
    (State.takeReturned d s).unitNumber = s.unitNumber ∧ (State.takeReturned d s).frameCounter = s.frameCounter ∧
    (State.takeReturned d s).memory = s.memory ∧ (State.takeReturned d s).waitList = s.waitList ∧
    (State.takeReturned d s).started = s.started ∧ (State.takeReturned d s).config = s.config ∧
    (State.takeReturned d s).panelReserved = s.panelReserved := by
  unfold State.takeReturned
  try dsimp only
  repeat' split
  all_goals simp

@[simp] theorem State.settleReturned_frame (s : State) :
    (State.settleReturned s).powered = s.powered ∧ (State.settleReturned s).pending = s.pending ∧
    (State.settleReturned s).unitNumber = s.unitNumber ∧ (State.settleReturned s).frameCounter = s.frameCounter ∧
    (State.settleReturned s).memory = s.memory ∧ (State.settleReturned s).waitList = s.waitList ∧
    (State.settleReturned s).started = s.started ∧ (State.settleReturned s).config = s.config ∧
    (State.settleReturned s).panelReserved = s.panelReserved := by
  unfold State.settleReturned
  try dsimp only
  repeat' split
  all_goals simp

@[simp] theorem State.fadeEndsOn_frame (p : LinkPort) (s : State) :
    (State.fadeEndsOn p s).powered = s.powered ∧
    (State.fadeEndsOn p s).pending = s.pending ∧
    (State.fadeEndsOn p s).unitNumber = s.unitNumber ∧
    (State.fadeEndsOn p s).frameCounter = s.frameCounter ∧
    (State.fadeEndsOn p s).memory = s.memory ∧
    (State.fadeEndsOn p s).waitList = s.waitList ∧
    (State.fadeEndsOn p s).channels = s.channels ∧
    (State.fadeEndsOn p s).comp = s.comp ∧
    (State.fadeEndsOn p s).domains = s.domains ∧
    (State.fadeEndsOn p s).started = s.started ∧
    (State.fadeEndsOn p s).config = s.config ∧
    (State.fadeEndsOn p s).panelReserved = s.panelReserved := by
  unfold State.fadeEndsOn
  repeat' split
  all_goals simp

@[simp] theorem State.portLoss_frame (p : LinkPort) (next : PortState) (s : State) :
    (State.portLoss p next s).powered = s.powered ∧ (State.portLoss p next s).pending = s.pending ∧
    (State.portLoss p next s).unitNumber = s.unitNumber ∧ (State.portLoss p next s).frameCounter = s.frameCounter ∧
    (State.portLoss p next s).memory = s.memory ∧ (State.portLoss p next s).channels = s.channels ∧
    (State.portLoss p next s).comp = s.comp ∧ (State.portLoss p next s).domains = s.domains ∧
    (State.portLoss p next s).started = s.started ∧ (State.portLoss p next s).config = s.config ∧
    (State.portLoss p next s).panelReserved = s.panelReserved := by
  unfold State.portLoss
  try dsimp only
  repeat' split
  all_goals simp

@[simp] theorem State.errorWindowComplete_frame (p : LinkPort) (s : State) :
    (State.errorWindowComplete p s).powered = s.powered ∧ (State.errorWindowComplete p s).pending = s.pending ∧
    (State.errorWindowComplete p s).unitNumber = s.unitNumber ∧
    (State.errorWindowComplete p s).frameCounter = s.frameCounter ∧
    (State.errorWindowComplete p s).memory = s.memory ∧ (State.errorWindowComplete p s).waitList = s.waitList ∧
    (State.errorWindowComplete p s).channels = s.channels ∧ (State.errorWindowComplete p s).comp = s.comp ∧
    (State.errorWindowComplete p s).outputs = s.outputs ∧ (State.errorWindowComplete p s).buses = s.buses ∧
    (State.errorWindowComplete p s).domains = s.domains ∧ (State.errorWindowComplete p s).started = s.started ∧
    (State.errorWindowComplete p s).config = s.config ∧ (State.errorWindowComplete p s).panelQueue = s.panelQueue ∧
    (State.errorWindowComplete p s).panelReserved = s.panelReserved := by
  unfold State.errorWindowComplete
  try dsimp only
  repeat' split
  all_goals simp

@[simp] theorem State.seekFrame_frame (p : LinkPort) (f : StageFrame) (s : State) :
    (State.seekFrame p f s).powered = s.powered ∧ (State.seekFrame p f s).pending = s.pending ∧
    (State.seekFrame p f s).unitNumber = s.unitNumber ∧ (State.seekFrame p f s).frameCounter = s.frameCounter ∧
    (State.seekFrame p f s).memory = s.memory ∧ (State.seekFrame p f s).started = s.started ∧
    (State.seekFrame p f s).config = s.config ∧ (State.seekFrame p f s).panelReserved = s.panelReserved := by
  unfold State.seekFrame
  try dsimp only
  repeat' split
  all_goals simp

@[simp] theorem State.loseAtPeriodEnd_frame (p : LinkPort) (windowFirst : Bool) (s : State) :
    (State.loseAtPeriodEnd p windowFirst s).powered = s.powered ∧
    (State.loseAtPeriodEnd p windowFirst s).pending = s.pending ∧
    (State.loseAtPeriodEnd p windowFirst s).unitNumber = s.unitNumber ∧
    (State.loseAtPeriodEnd p windowFirst s).frameCounter = s.frameCounter ∧
    (State.loseAtPeriodEnd p windowFirst s).memory = s.memory ∧
    (State.loseAtPeriodEnd p windowFirst s).channels = s.channels ∧
    (State.loseAtPeriodEnd p windowFirst s).comp = s.comp ∧
    (State.loseAtPeriodEnd p windowFirst s).domains = s.domains ∧
    (State.loseAtPeriodEnd p windowFirst s).started = s.started ∧
    (State.loseAtPeriodEnd p windowFirst s).config = s.config ∧
    (State.loseAtPeriodEnd p windowFirst s).panelReserved = s.panelReserved := by
  unfold State.loseAtPeriodEnd
  try dsimp only
  repeat' split
  all_goals simp

@[simp] theorem State.lockedPeriod_frame (p : LinkPort) (judge : Port → Port) (own : Port → Delivery) (lost : Port → Bool) (windowFirst : Bool) (s : State) :
    (State.lockedPeriod p judge own lost windowFirst s).powered = s.powered ∧
    (State.lockedPeriod p judge own lost windowFirst s).pending = s.pending ∧
    (State.lockedPeriod p judge own lost windowFirst s).unitNumber = s.unitNumber ∧
    (State.lockedPeriod p judge own lost windowFirst s).frameCounter = s.frameCounter ∧
    (State.lockedPeriod p judge own lost windowFirst s).memory = s.memory ∧
    (State.lockedPeriod p judge own lost windowFirst s).started = s.started ∧
    (State.lockedPeriod p judge own lost windowFirst s).config = s.config ∧
    (State.lockedPeriod p judge own lost windowFirst s).panelReserved = s.panelReserved := by
  unfold State.lockedPeriod
  try dsimp only
  repeat' split
  all_goals simp

@[simp] theorem State.openPeriod_powered (p : LinkPort) (s : State) : (State.openPeriod p s).powered = s.powered := by
  unfold State.openPeriod
  dsimp only
  split
  · rw [State.modPort_powered, State.foldOver_powered]
    · simp
    · intro x s; split <;> simp
  · simp
@[simp] theorem State.openPeriod_pending (p : LinkPort) (s : State) : (State.openPeriod p s).pending = s.pending := by
  unfold State.openPeriod
  dsimp only
  split
  · rw [State.modPort_pending, State.foldOver_pending]
    · simp
    · intro x s; split <;> simp
  · simp
@[simp] theorem State.openPeriod_unitNumber (p : LinkPort) (s : State) : (State.openPeriod p s).unitNumber = s.unitNumber := by
  unfold State.openPeriod
  dsimp only
  split
  · rw [State.modPort_unitNumber, State.foldOver_unitNumber]
    · simp
    · intro x s; split <;> simp
  · simp
@[simp] theorem State.openPeriod_frameCounter (p : LinkPort) (s : State) : (State.openPeriod p s).frameCounter = s.frameCounter := by
  unfold State.openPeriod
  dsimp only
  split
  · rw [State.modPort_frameCounter, State.foldOver_frameCounter]
    · simp
    · intro x s; split <;> simp
  · simp
@[simp] theorem State.openPeriod_memory (p : LinkPort) (s : State) : (State.openPeriod p s).memory = s.memory := by
  unfold State.openPeriod
  dsimp only
  split
  · rw [State.modPort_memory, State.foldOver_memory]
    · simp
    · intro x s; split <;> simp
  · simp
@[simp] theorem State.openPeriod_waitList (p : LinkPort) (s : State) : (State.openPeriod p s).waitList = s.waitList := by
  unfold State.openPeriod
  dsimp only
  split
  · rw [State.modPort_waitList, State.foldOver_waitList]
    · simp
    · intro x s; split <;> simp
  · simp
@[simp] theorem State.openPeriod_channels (p : LinkPort) (s : State) : (State.openPeriod p s).channels = s.channels := by
  unfold State.openPeriod
  dsimp only
  split
  · rw [State.modPort_channels, State.foldOver_channels]
    · simp
    · intro x s; split <;> simp
  · simp
@[simp] theorem State.openPeriod_comp (p : LinkPort) (s : State) : (State.openPeriod p s).comp = s.comp := by
  unfold State.openPeriod
  dsimp only
  split
  · rw [State.modPort_comp, State.foldOver_comp]
    · simp
    · intro x s; split <;> simp
  · simp
@[simp] theorem State.openPeriod_outputs (p : LinkPort) (s : State) : (State.openPeriod p s).outputs = s.outputs := by
  unfold State.openPeriod
  dsimp only
  split
  · rw [State.modPort_outputs, State.foldOver_outputs]
    · simp
    · intro x s; split <;> simp
  · simp
@[simp] theorem State.openPeriod_buses (p : LinkPort) (s : State) : (State.openPeriod p s).buses = s.buses := by
  unfold State.openPeriod
  dsimp only
  split
  · rw [State.modPort_buses, State.foldOver_buses]
    · simp
    · intro x s; split <;> simp
  · simp
@[simp] theorem State.openPeriod_domains (p : LinkPort) (s : State) : (State.openPeriod p s).domains = s.domains := by
  unfold State.openPeriod
  dsimp only
  split
  · rw [State.modPort_domains, State.foldOver_domains]
    · simp
    · intro x s; split <;> simp
  · simp
@[simp] theorem State.openPeriod_started (p : LinkPort) (s : State) : (State.openPeriod p s).started = s.started := by
  unfold State.openPeriod
  dsimp only
  split
  · rw [State.modPort_started, State.foldOver_started]
    · simp
    · intro x s; split <;> simp
  · simp
@[simp] theorem State.openPeriod_config (p : LinkPort) (s : State) : (State.openPeriod p s).config = s.config := by
  unfold State.openPeriod
  dsimp only
  split
  · rw [State.modPort_config, State.foldOver_config]
    · simp
    · intro x s; split <;> simp
  · simp
@[simp] theorem State.openPeriod_panelQueue (p : LinkPort) (s : State) : (State.openPeriod p s).panelQueue = s.panelQueue := by
  unfold State.openPeriod
  dsimp only
  split
  · rw [State.modPort_panelQueue, State.foldOver_panelQueue]
    · simp
    · intro x s; split <;> simp
  · simp
@[simp] theorem State.openPeriod_panelReserved (p : LinkPort) (s : State) : (State.openPeriod p s).panelReserved = s.panelReserved := by
  unfold State.openPeriod
  dsimp only
  split
  · rw [State.modPort_panelReserved, State.foldOver_panelReserved]
    · simp
    · intro x s; split <;> simp
  · simp

@[simp] theorem State.validFrame_frame (p : LinkPort) (f : StageFrame) (windowFirst : Bool) (s : State) :
    (State.validFrame p f windowFirst s).powered = s.powered ∧
    (State.validFrame p f windowFirst s).pending = s.pending ∧
    (State.validFrame p f windowFirst s).unitNumber = s.unitNumber ∧
    (State.validFrame p f windowFirst s).frameCounter = s.frameCounter ∧
    (State.validFrame p f windowFirst s).memory = s.memory ∧
    (State.validFrame p f windowFirst s).started = s.started ∧
    (State.validFrame p f windowFirst s).config = s.config ∧
    (State.validFrame p f windowFirst s).panelReserved = s.panelReserved := by
  unfold State.validFrame
  try dsimp only
  repeat' split
  all_goals simp

@[simp] theorem State.crcFailedFrame_frame (p : LinkPort) (s : State) :
    (State.crcFailedFrame p s).powered = s.powered ∧ (State.crcFailedFrame p s).pending = s.pending ∧
    (State.crcFailedFrame p s).unitNumber = s.unitNumber ∧ (State.crcFailedFrame p s).frameCounter = s.frameCounter ∧
    (State.crcFailedFrame p s).memory = s.memory ∧ (State.crcFailedFrame p s).started = s.started ∧
    (State.crcFailedFrame p s).config = s.config ∧ (State.crcFailedFrame p s).panelReserved = s.panelReserved := by
  unfold State.crcFailedFrame
  try dsimp only
  repeat' split
  all_goals simp

@[simp] theorem State.fourthMissing_frame (p : LinkPort) (windowFirst : Bool) (s : State) :
    (State.fourthMissing p windowFirst s).powered = s.powered ∧
    (State.fourthMissing p windowFirst s).pending = s.pending ∧
    (State.fourthMissing p windowFirst s).unitNumber = s.unitNumber ∧
    (State.fourthMissing p windowFirst s).frameCounter = s.frameCounter ∧
    (State.fourthMissing p windowFirst s).memory = s.memory ∧
    (State.fourthMissing p windowFirst s).channels = s.channels ∧
    (State.fourthMissing p windowFirst s).comp = s.comp ∧ (State.fourthMissing p windowFirst s).domains = s.domains ∧
    (State.fourthMissing p windowFirst s).started = s.started ∧
    (State.fourthMissing p windowFirst s).config = s.config ∧
    (State.fourthMissing p windowFirst s).panelReserved = s.panelReserved := by
  unfold State.fourthMissing
  try dsimp only
  repeat' split
  all_goals simp

@[simp] theorem State.missingPeriod_frame (p : LinkPort) (windowFirst : Bool) (s : State) :
    (State.missingPeriod p windowFirst s).powered = s.powered ∧
    (State.missingPeriod p windowFirst s).pending = s.pending ∧
    (State.missingPeriod p windowFirst s).unitNumber = s.unitNumber ∧
    (State.missingPeriod p windowFirst s).frameCounter = s.frameCounter ∧
    (State.missingPeriod p windowFirst s).memory = s.memory ∧
    (State.missingPeriod p windowFirst s).started = s.started ∧
    (State.missingPeriod p windowFirst s).config = s.config ∧
    (State.missingPeriod p windowFirst s).panelReserved = s.panelReserved := by
  unfold State.missingPeriod
  try dsimp only
  repeat' split
  all_goals simp

@[simp] theorem State.missingFrame_frame (p : LinkPort) (windowFirst : Bool) (s : State) :
    (State.missingFrame p windowFirst s).powered = s.powered ∧
    (State.missingFrame p windowFirst s).pending = s.pending ∧
    (State.missingFrame p windowFirst s).unitNumber = s.unitNumber ∧
    (State.missingFrame p windowFirst s).frameCounter = s.frameCounter ∧
    (State.missingFrame p windowFirst s).memory = s.memory ∧
    (State.missingFrame p windowFirst s).started = s.started ∧
    (State.missingFrame p windowFirst s).config = s.config ∧
    (State.missingFrame p windowFirst s).panelReserved = s.panelReserved := by
  unfold State.missingFrame
  try dsimp only
  repeat' split
  all_goals simp

@[simp] theorem State.lightMeasurement_frame (p : LinkPort) (reading : LightReading) (s : State) :
    (State.lightMeasurement p reading s).powered = s.powered ∧
    (State.lightMeasurement p reading s).pending = s.pending ∧
    (State.lightMeasurement p reading s).unitNumber = s.unitNumber ∧
    (State.lightMeasurement p reading s).frameCounter = s.frameCounter ∧
    (State.lightMeasurement p reading s).memory = s.memory ∧
    (State.lightMeasurement p reading s).channels = s.channels ∧ (State.lightMeasurement p reading s).comp = s.comp ∧
    (State.lightMeasurement p reading s).domains = s.domains ∧
    (State.lightMeasurement p reading s).started = s.started ∧
    (State.lightMeasurement p reading s).config = s.config ∧
    (State.lightMeasurement p reading s).panelReserved = s.panelReserved := by
  unfold State.lightMeasurement
  try dsimp only
  repeat' split
  all_goals simp

@[simp] theorem State.statusRead_frame (s : State) :
    (State.statusRead s).powered = s.powered ∧ (State.statusRead s).pending = s.pending ∧
    (State.statusRead s).unitNumber = s.unitNumber ∧ (State.statusRead s).frameCounter = s.frameCounter ∧
    (State.statusRead s).memory = s.memory ∧ (State.statusRead s).ports = s.ports ∧
    (State.statusRead s).slots = s.slots ∧ (State.statusRead s).waitList = s.waitList ∧
    (State.statusRead s).channels = s.channels ∧ (State.statusRead s).comp = s.comp ∧
    (State.statusRead s).outputs = s.outputs ∧ (State.statusRead s).buses = s.buses ∧
    (State.statusRead s).domains = s.domains ∧ (State.statusRead s).started = s.started ∧
    (State.statusRead s).config = s.config ∧ (State.statusRead s).panelQueue = s.panelQueue ∧
    (State.statusRead s).panelReserved = s.panelReserved := by
  unfold State.statusRead
  try dsimp only
  repeat' split
  all_goals simp

@[simp] theorem State.messageRead_frame (s : State) :
    (State.messageRead s).powered = s.powered ∧ (State.messageRead s).pending = s.pending ∧
    (State.messageRead s).unitNumber = s.unitNumber ∧ (State.messageRead s).frameCounter = s.frameCounter ∧
    (State.messageRead s).memory = s.memory ∧ (State.messageRead s).ports = s.ports ∧
    (State.messageRead s).slots = s.slots ∧ (State.messageRead s).waitList = s.waitList ∧
    (State.messageRead s).channels = s.channels ∧ (State.messageRead s).comp = s.comp ∧
    (State.messageRead s).outputs = s.outputs ∧ (State.messageRead s).buses = s.buses ∧
    (State.messageRead s).domains = s.domains ∧ (State.messageRead s).started = s.started ∧
    (State.messageRead s).config = s.config ∧ (State.messageRead s).panelReserved = s.panelReserved := by
  unfold State.messageRead
  try dsimp only
  repeat' split
  all_goals simp

@[simp] theorem State.channelDue_frame (i : Fin 64) (s : State) :
    (State.channelDue i s).powered = s.powered ∧ (State.channelDue i s).pending = s.pending ∧
    (State.channelDue i s).unitNumber = s.unitNumber ∧ (State.channelDue i s).frameCounter = s.frameCounter ∧
    (State.channelDue i s).memory = s.memory ∧ (State.channelDue i s).ports = s.ports ∧
    (State.channelDue i s).slots = s.slots ∧ (State.channelDue i s).waitList = s.waitList ∧
    (State.channelDue i s).comp = s.comp ∧ (State.channelDue i s).outputs = s.outputs ∧
    (State.channelDue i s).buses = s.buses ∧ (State.channelDue i s).domains = s.domains ∧
    (State.channelDue i s).started = s.started ∧ (State.channelDue i s).config = s.config ∧
    (State.channelDue i s).panelQueue = s.panelQueue ∧ (State.channelDue i s).panelReserved = s.panelReserved := by
  unfold State.channelDue
  try dsimp only
  repeat' split
  all_goals simp

@[simp] theorem State.boundaryDue_frame (s : State) :
    (State.boundaryDue s).powered = s.powered ∧ (State.boundaryDue s).pending = s.pending ∧
    (State.boundaryDue s).unitNumber = s.unitNumber ∧ (State.boundaryDue s).frameCounter = s.frameCounter ∧
    (State.boundaryDue s).memory = s.memory ∧ (State.boundaryDue s).ports = s.ports ∧
    (State.boundaryDue s).waitList = s.waitList ∧ (State.boundaryDue s).domains = s.domains ∧
    (State.boundaryDue s).started = s.started ∧ (State.boundaryDue s).config = s.config ∧
    (State.boundaryDue s).panelReserved = s.panelReserved := by
  unfold State.boundaryDue
  try dsimp only
  repeat' split
  all_goals simp

@[simp] theorem State.windowsDue_frame (s : State) :
    (State.windowsDue s).powered = s.powered ∧ (State.windowsDue s).pending = s.pending ∧
    (State.windowsDue s).unitNumber = s.unitNumber ∧ (State.windowsDue s).frameCounter = s.frameCounter ∧
    (State.windowsDue s).memory = s.memory ∧ (State.windowsDue s).waitList = s.waitList ∧
    (State.windowsDue s).started = s.started ∧ (State.windowsDue s).config = s.config ∧
    (State.windowsDue s).panelReserved = s.panelReserved := by
  unfold State.windowsDue
  try dsimp only
  repeat' split
  all_goals simp

@[simp] theorem State.fadesDue_frame (s : State) :
    (State.fadesDue s).powered = s.powered ∧ (State.fadesDue s).pending = s.pending ∧
    (State.fadesDue s).unitNumber = s.unitNumber ∧ (State.fadesDue s).frameCounter = s.frameCounter ∧
    (State.fadesDue s).memory = s.memory ∧ (State.fadesDue s).waitList = s.waitList ∧
    (State.fadesDue s).started = s.started ∧ (State.fadesDue s).config = s.config ∧
    (State.fadesDue s).panelReserved = s.panelReserved := by
  unfold State.fadesDue
  try dsimp only
  repeat' split
  all_goals simp

@[simp] theorem State.graceDue_frame (s : State) :
    (State.graceDue s).powered = s.powered ∧ (State.graceDue s).pending = s.pending ∧
    (State.graceDue s).unitNumber = s.unitNumber ∧ (State.graceDue s).frameCounter = s.frameCounter ∧
    (State.graceDue s).memory = s.memory ∧ (State.graceDue s).channels = s.channels ∧
    (State.graceDue s).started = s.started ∧ (State.graceDue s).config = s.config ∧
    (State.graceDue s).panelReserved = s.panelReserved := by
  unfold State.graceDue
  try dsimp only
  repeat' split
  all_goals simp

@[simp] theorem State.channelsDue_frame (s : State) :
    (State.channelsDue s).powered = s.powered ∧ (State.channelsDue s).pending = s.pending ∧
    (State.channelsDue s).unitNumber = s.unitNumber ∧ (State.channelsDue s).frameCounter = s.frameCounter ∧
    (State.channelsDue s).memory = s.memory ∧ (State.channelsDue s).ports = s.ports ∧
    (State.channelsDue s).slots = s.slots ∧ (State.channelsDue s).waitList = s.waitList ∧
    (State.channelsDue s).comp = s.comp ∧ (State.channelsDue s).outputs = s.outputs ∧
    (State.channelsDue s).buses = s.buses ∧ (State.channelsDue s).domains = s.domains ∧
    (State.channelsDue s).started = s.started ∧ (State.channelsDue s).config = s.config ∧
    (State.channelsDue s).panelQueue = s.panelQueue ∧ (State.channelsDue s).panelReserved = s.panelReserved := by
  unfold State.channelsDue
  try dsimp only
  repeat' split
  all_goals simp

@[simp] theorem State.outputsDue_frame (s : State) :
    (State.outputsDue s).powered = s.powered ∧ (State.outputsDue s).pending = s.pending ∧
    (State.outputsDue s).unitNumber = s.unitNumber ∧ (State.outputsDue s).frameCounter = s.frameCounter ∧
    (State.outputsDue s).memory = s.memory ∧ (State.outputsDue s).ports = s.ports ∧
    (State.outputsDue s).slots = s.slots ∧ (State.outputsDue s).waitList = s.waitList ∧
    (State.outputsDue s).channels = s.channels ∧ (State.outputsDue s).comp = s.comp ∧
    (State.outputsDue s).buses = s.buses ∧ (State.outputsDue s).domains = s.domains ∧
    (State.outputsDue s).started = s.started ∧ (State.outputsDue s).config = s.config ∧
    (State.outputsDue s).panelQueue = s.panelQueue ∧ (State.outputsDue s).panelReserved = s.panelReserved := by
  unfold State.outputsDue
  try dsimp only
  repeat' split
  all_goals simp

@[simp] theorem State.talkDue_frame (s : State) :
    (State.talkDue s).powered = s.powered ∧ (State.talkDue s).pending = s.pending ∧
    (State.talkDue s).unitNumber = s.unitNumber ∧ (State.talkDue s).frameCounter = s.frameCounter ∧
    (State.talkDue s).memory = s.memory ∧ (State.talkDue s).ports = s.ports ∧ (State.talkDue s).slots = s.slots ∧
    (State.talkDue s).waitList = s.waitList ∧ (State.talkDue s).channels = s.channels ∧
    (State.talkDue s).comp = s.comp ∧ (State.talkDue s).outputs = s.outputs ∧ (State.talkDue s).domains = s.domains ∧
    (State.talkDue s).started = s.started ∧ (State.talkDue s).config = s.config ∧
    (State.talkDue s).panelQueue = s.panelQueue ∧ (State.talkDue s).panelReserved = s.panelReserved := by
  exact ⟨rfl, rfl, rfl, rfl, rfl, rfl, rfl, rfl, rfl, rfl, rfl, rfl, rfl, rfl, rfl, rfl⟩

@[simp] theorem State.takeDue_frame (s : State) :
    (State.takeDue s).powered = s.powered ∧ (State.takeDue s).pending = s.pending ∧
    (State.takeDue s).unitNumber = s.unitNumber ∧ (State.takeDue s).frameCounter = s.frameCounter ∧
    (State.takeDue s).memory = s.memory ∧ (State.takeDue s).config = s.config ∧
    (State.takeDue s).panelReserved = s.panelReserved := by
  unfold State.takeDue
  try dsimp only
  repeat' split
  all_goals simp

@[simp] theorem State.closeSlots_frame (s : State) :
    (State.closeSlots s).powered = s.powered ∧ (State.closeSlots s).pending = s.pending ∧
    (State.closeSlots s).unitNumber = s.unitNumber ∧ (State.closeSlots s).frameCounter = s.frameCounter ∧
    (State.closeSlots s).memory = s.memory ∧ (State.closeSlots s).waitList = s.waitList ∧
    (State.closeSlots s).started = s.started ∧ (State.closeSlots s).config = s.config ∧
    (State.closeSlots s).panelReserved = s.panelReserved := by
  unfold State.closeSlots
  try dsimp only
  repeat' split
  all_goals simp

@[simp] theorem State.formInputs_frame (lanes : List Sample) (s : State) :
    (State.formInputs lanes s).1.powered = s.powered ∧ (State.formInputs lanes s).1.pending = s.pending ∧
    (State.formInputs lanes s).1.unitNumber = s.unitNumber ∧
    (State.formInputs lanes s).1.frameCounter = s.frameCounter ∧ (State.formInputs lanes s).1.memory = s.memory ∧
    (State.formInputs lanes s).1.ports = s.ports ∧ (State.formInputs lanes s).1.slots = s.slots ∧
    (State.formInputs lanes s).1.waitList = s.waitList ∧ (State.formInputs lanes s).1.outputs = s.outputs ∧
    (State.formInputs lanes s).1.buses = s.buses ∧ (State.formInputs lanes s).1.domains = s.domains ∧
    (State.formInputs lanes s).1.started = s.started ∧ (State.formInputs lanes s).1.config = s.config ∧
    (State.formInputs lanes s).1.panelQueue = s.panelQueue ∧
    (State.formInputs lanes s).1.panelReserved = s.panelReserved := by
  unfold State.formInputs
  try dsimp only
  repeat' split
  all_goals simp

@[simp] theorem State.formMixes_frame (engine : List Sample) (tb1 tb2 : Sample) (s : State) :
    (State.formMixes engine tb1 tb2 s).1.powered = s.powered ∧
    (State.formMixes engine tb1 tb2 s).1.pending = s.pending ∧
    (State.formMixes engine tb1 tb2 s).1.unitNumber = s.unitNumber ∧
    (State.formMixes engine tb1 tb2 s).1.frameCounter = s.frameCounter ∧
    (State.formMixes engine tb1 tb2 s).1.memory = s.memory ∧ (State.formMixes engine tb1 tb2 s).1.ports = s.ports ∧
    (State.formMixes engine tb1 tb2 s).1.slots = s.slots ∧
    (State.formMixes engine tb1 tb2 s).1.waitList = s.waitList ∧
    (State.formMixes engine tb1 tb2 s).1.channels = s.channels ∧ (State.formMixes engine tb1 tb2 s).1.comp = s.comp ∧
    (State.formMixes engine tb1 tb2 s).1.outputs = s.outputs ∧ (State.formMixes engine tb1 tb2 s).1.buses = s.buses ∧
    (State.formMixes engine tb1 tb2 s).1.domains = s.domains ∧
    (State.formMixes engine tb1 tb2 s).1.started = s.started ∧
    (State.formMixes engine tb1 tb2 s).1.config = s.config ∧
    (State.formMixes engine tb1 tb2 s).1.panelQueue = s.panelQueue ∧
    (State.formMixes engine tb1 tb2 s).1.panelReserved = s.panelReserved := by
  unfold State.formMixes
  try dsimp only
  repeat' split
  all_goals simp

@[simp] theorem State.formOutputs_frame (x : FrameSamples) (s : State) :
    (State.formOutputs x s).powered = s.powered ∧ (State.formOutputs x s).pending = s.pending ∧
    (State.formOutputs x s).unitNumber = s.unitNumber ∧ (State.formOutputs x s).frameCounter = s.frameCounter ∧
    (State.formOutputs x s).memory = s.memory ∧ (State.formOutputs x s).ports = s.ports ∧
    (State.formOutputs x s).slots = s.slots ∧ (State.formOutputs x s).waitList = s.waitList ∧
    (State.formOutputs x s).channels = s.channels ∧ (State.formOutputs x s).comp = s.comp ∧
    (State.formOutputs x s).buses = s.buses ∧ (State.formOutputs x s).domains = s.domains ∧
    (State.formOutputs x s).started = s.started ∧ (State.formOutputs x s).config = s.config ∧
    (State.formOutputs x s).panelQueue = s.panelQueue ∧ (State.formOutputs x s).panelReserved = s.panelReserved := by
  unfold State.formOutputs
  try dsimp only
  repeat' split
  all_goals simp

@[simp] theorem State.gatherPeaks_frame (x : FrameSamples) (s : State) :
    (State.gatherPeaks x s).powered = s.powered ∧ (State.gatherPeaks x s).pending = s.pending ∧
    (State.gatherPeaks x s).unitNumber = s.unitNumber ∧ (State.gatherPeaks x s).frameCounter = s.frameCounter ∧
    (State.gatherPeaks x s).memory = s.memory ∧ (State.gatherPeaks x s).ports = s.ports ∧
    (State.gatherPeaks x s).slots = s.slots ∧ (State.gatherPeaks x s).waitList = s.waitList ∧
    (State.gatherPeaks x s).channels = s.channels ∧ (State.gatherPeaks x s).comp = s.comp ∧
    (State.gatherPeaks x s).outputs = s.outputs ∧ (State.gatherPeaks x s).buses = s.buses ∧
    (State.gatherPeaks x s).domains = s.domains ∧ (State.gatherPeaks x s).started = s.started ∧
    (State.gatherPeaks x s).config = s.config ∧ (State.gatherPeaks x s).panelQueue = s.panelQueue ∧
    (State.gatherPeaks x s).panelReserved = s.panelReserved := by
  unfold State.gatherPeaks
  try dsimp only
  repeat' split
  all_goals simp

@[simp] theorem State.sendFrames_frame (x : FrameSamples) (s : State) :
    (State.sendFrames x s).powered = s.powered ∧ (State.sendFrames x s).pending = s.pending ∧
    (State.sendFrames x s).unitNumber = s.unitNumber ∧ (State.sendFrames x s).frameCounter = s.frameCounter ∧
    (State.sendFrames x s).memory = s.memory ∧ (State.sendFrames x s).ports = s.ports ∧
    (State.sendFrames x s).slots = s.slots ∧ (State.sendFrames x s).waitList = s.waitList ∧
    (State.sendFrames x s).channels = s.channels ∧ (State.sendFrames x s).comp = s.comp ∧
    (State.sendFrames x s).outputs = s.outputs ∧ (State.sendFrames x s).buses = s.buses ∧
    (State.sendFrames x s).domains = s.domains ∧ (State.sendFrames x s).started = s.started ∧
    (State.sendFrames x s).config = s.config ∧ (State.sendFrames x s).panelQueue = s.panelQueue ∧
    (State.sendFrames x s).panelReserved = s.panelReserved := by
  unfold State.sendFrames
  try dsimp only
  repeat' split
  all_goals simp

@[simp] theorem State.tick_frame (s : State) :
    (State.tick s).powered = s.powered ∧ (State.tick s).pending = s.pending ∧
    (State.tick s).unitNumber = s.unitNumber ∧ (State.tick s).memory = s.memory ∧
    (State.tick s).waitList = s.waitList ∧ (State.tick s).comp = s.comp ∧ (State.tick s).domains = s.domains ∧
    (State.tick s).started = s.started ∧ (State.tick s).config = s.config ∧ (State.tick s).panelQueue = s.panelQueue ∧
    (State.tick s).panelReserved = s.panelReserved := by
  unfold State.tick
  try dsimp only
  repeat' split
  all_goals simp

@[simp] theorem State.formFrame_frame (lanes : List Sample) (stageTalk : Sample) (s : State) :
    (State.formFrame lanes stageTalk s).powered = s.powered ∧
    (State.formFrame lanes stageTalk s).pending = s.pending ∧
    (State.formFrame lanes stageTalk s).unitNumber = s.unitNumber ∧
    (State.formFrame lanes stageTalk s).memory = s.memory ∧
    (State.formFrame lanes stageTalk s).waitList = s.waitList ∧
    (State.formFrame lanes stageTalk s).domains = s.domains ∧
    (State.formFrame lanes stageTalk s).started = s.started ∧ (State.formFrame lanes stageTalk s).config = s.config ∧
    (State.formFrame lanes stageTalk s).panelQueue = s.panelQueue ∧
    (State.formFrame lanes stageTalk s).panelReserved = s.panelReserved := by
  unfold State.formFrame
  try dsimp only
  repeat' split
  all_goals simp

@[simp] theorem State.framePeriod_frame (lanes : List Sample) (stageTalk : Sample) (s : State) :
    (State.framePeriod lanes stageTalk s).powered = s.powered ∧
    (State.framePeriod lanes stageTalk s).pending = s.pending ∧
    (State.framePeriod lanes stageTalk s).unitNumber = s.unitNumber ∧
    (State.framePeriod lanes stageTalk s).memory = s.memory ∧
    (State.framePeriod lanes stageTalk s).config = s.config ∧
    (State.framePeriod lanes stageTalk s).panelReserved = s.panelReserved := by
  unfold State.framePeriod
  try dsimp only
  repeat' split
  all_goals simp

end Sys2Proof.Machine
end

