-- ==== Sys2Proof/Laws/Memory.lean ====
section
/-!
SUPPORT. The configuration memory: its canonical form is kept by every write, and what a byte reads as after one.
-/
namespace Sys2Proof.Machine

/-- A lower bound of the offsets may be lowered. -/
theorem Memory.wfFrom_mono {lo lo' : Nat} (h : lo' ≤ lo) : ∀ {m : List Host.Cell}, Memory.wfFrom lo m = true → Memory.wfFrom lo' m = true
  | [], _ => rfl
  | (k, v) :: rest, hm => by
    simp only [Memory.wfFrom, Bool.and_eq_true, decide_eq_true_eq] at hm ⊢
    exact ⟨⟨⟨Nat.le_trans h hm.1.1.1, hm.1.1.2⟩, hm.1.2⟩, hm.2⟩

/-- Putting a byte keeps the canonical form. -/
theorem memPut_wfFrom (a : Nat) (v : Byte) (ha : a < memorySize) :
    ∀ (m : List Host.Cell) (lo : Nat), lo ≤ a → Memory.wfFrom lo m = true → Memory.wfFrom lo (memPut m a v) = true
  | [], lo, hlo, _ => by
    unfold memPut
    split <;> simp_all [Memory.wfFrom]
  | (k, w) :: rest, lo, hlo, hm => by
    simp only [Memory.wfFrom, Bool.and_eq_true, decide_eq_true_eq] at hm
    obtain ⟨⟨⟨h1, h2⟩, h3⟩, h4⟩ := hm
    unfold memPut
    split
    · split
      · simp only [Memory.wfFrom, Bool.and_eq_true, decide_eq_true_eq]
        exact ⟨⟨⟨h1, h2⟩, h3⟩, h4⟩
      · simp only [Memory.wfFrom, Bool.and_eq_true, decide_eq_true_eq]
        exact ⟨⟨⟨hlo, ha⟩, by assumption⟩, ⟨⟨by omega, h2⟩, h3⟩, h4⟩
    · split
      · subst_vars
        split
        · exact Memory.wfFrom_mono (by omega) h4
        · simp only [Memory.wfFrom, Bool.and_eq_true, decide_eq_true_eq]
          exact ⟨⟨⟨h1, h2⟩, by assumption⟩, h4⟩
      · simp only [Memory.wfFrom, Bool.and_eq_true, decide_eq_true_eq]
        exact ⟨⟨⟨h1, h2⟩, h3⟩, memPut_wfFrom a v ha rest (k + 1) (by omega) h4⟩

/-- Writing a byte keeps the canonical form. -/
theorem memWrite_wf (m : List Host.Cell) (a : Nat) (v : Byte) (h : Memory.wf m = true) : Memory.wf (memWrite m a v) = true := by
  unfold memWrite
  split
  · exact memPut_wfFrom a v (by assumption) m 0 (Nat.zero_le a) h
  · exact h

/-- Writing bytes keeps the canonical form. -/
theorem memWriteBlock_wf : ∀ (vs : List Byte) (m : List Host.Cell) (a : Nat), Memory.wf m = true → Memory.wf (memWriteBlock m a vs) = true
  | [], _, _, h => h
  | v :: vs, m, a, h => memWriteBlock_wf vs (memWrite m a v) (a + 1) (memWrite_wf m a v h)

/-- Offsets below every entry read as blank. -/
theorem memRead_below : ∀ (m : List Host.Cell) (lo a : Nat), a < lo → Memory.wfFrom lo m = true → memRead m a = blankByte
  | [], _, _, _, _ => rfl
  | (k, v) :: rest, lo, a, ha, hm => by
    simp only [Memory.wfFrom, Bool.and_eq_true, decide_eq_true_eq] at hm
    unfold memRead
    rw [if_neg (by omega)]
    exact memRead_below rest (k + 1) a (by omega) hm.2

/-- What a byte reads as after one is put. -/
theorem memRead_memPut (a : Nat) (v : Byte) : ∀ (m : List Host.Cell) (lo b : Nat), Memory.wfFrom lo m = true →
    memRead (memPut m a v) b = if b = a then v else memRead m b
  | [], _, b, _ => by
    unfold memPut
    split
    · simp_all [memRead]
    · by_cases h : b = a
      · simp [memRead, h]
      · simp [memRead, h, Ne.symm h]
  | (k, w) :: rest, lo, b, hm => by
    have hm' := hm
    simp only [Memory.wfFrom, Bool.and_eq_true, decide_eq_true_eq] at hm
    obtain ⟨⟨⟨h1, h2⟩, h3⟩, h4⟩ := hm
    unfold memPut
    split
    · split
      · by_cases h : b = a
        · subst h
          have : memRead ((k, w) :: rest) b = blankByte := by
            unfold memRead
            rw [if_neg (by omega)]
            exact memRead_below rest (k + 1) b (by omega) h4
          simp_all
        · simp [h]
      · by_cases h : b = a
        · simp [memRead, h]
        · simp [memRead, h, Ne.symm h]
    · split
      · have hak : k = a := by omega
        subst hak
        split
        · by_cases h : b = k
          · subst h
            simp_all [memRead_below rest (b + 1) b (by omega) h4]
          · simp [memRead, h, Ne.symm h]
        · by_cases h : b = k
          · simp [memRead, h]
          · simp [memRead, h, Ne.symm h]
      · have ih := memRead_memPut a v rest (k + 1) b h4
        by_cases hk : k = b
        · subst hk
          simp [memRead, show ¬ (k = a) by omega]
        · simp [memRead, hk, ih]

/-- What a byte reads as after a write. -/
theorem memRead_memWrite (m : List Host.Cell) (a b : Nat) (v : Byte) (h : Memory.wf m = true) (ha : a < memorySize) :
    memRead (memWrite m a v) b = if b = a then v else memRead m b := by
  unfold memWrite
  rw [if_pos ha]
  exact memRead_memPut a v m 0 b h

/-- A write does not reach other offsets. -/
theorem memRead_memWrite_ne (m : List Host.Cell) (a b : Nat) (v : Byte) (h : Memory.wf m = true) (hb : b ≠ a) :
    memRead (memWrite m a v) b = memRead m b := by
  unfold memWrite
  split
  · rw [memRead_memPut a v m 0 b h, if_neg hb]
  · rfl

/-- A block write does not reach offsets outside the block. -/
theorem memRead_memWriteBlock_outside : ∀ (vs : List Byte) (m : List Host.Cell) (a b : Nat), Memory.wf m = true →
    (b < a ∨ a + vs.length ≤ b) → memRead (memWriteBlock m a vs) b = memRead m b
  | [], _, _, _, _, _ => rfl
  | v :: vs, m, a, b, h, hb => by
    unfold memWriteBlock
    simp only [List.length_cons] at hb
    rw [memRead_memWriteBlock_outside vs (memWrite m a v) (a + 1) b (memWrite_wf m a v h) (by omega)]
    exact memRead_memWrite_ne m a b v h (by omega)

/-- A block that fits reads back as it was written. -/
theorem memReadBlock_memWriteBlock : ∀ (vs : List Byte) (m : List Host.Cell) (a : Nat), Memory.wf m = true →
    a + vs.length ≤ memorySize → memReadBlock (memWriteBlock m a vs) a vs.length = vs
  | [], _, _, _, _ => rfl
  | v :: vs, m, a, h, hb => by
    simp only [List.length_cons] at hb
    have hw := memWrite_wf m a v h
    unfold memWriteBlock
    simp only [List.length_cons, memReadBlock]
    rw [memRead_memWriteBlock_outside vs (memWrite m a v) (a + 1) a hw (by omega),
      memRead_memWrite m a a v h (by omega), if_pos rfl,
      memReadBlock_memWriteBlock vs (memWrite m a v) (a + 1) hw (by omega)]

/-! ## The operations that write it (R196, R197) -/

/-- A store cut short keeps the canonical form. -/
theorem State.cutRecord_wf (rec : StoredRecord) (s : State) (h : Memory.wf s.memory = true) :
    Memory.wf (s.cutRecord rec).memory = true := memWriteBlock_wf _ _ _ h

/-- Abandoning a store keeps the canonical form. -/
theorem State.abandonStore_wf (s : State) (h : Memory.wf s.memory = true) : Memory.wf s.abandonStore.memory = true := by
  unfold State.abandonStore
  split
  · exact h
  · exact State.cutRecord_wf _ _ h

/-- A checked record keeps the canonical form. -/
theorem State.storeRecordChecked_wf (readBack : Option (List Byte)) (s : State) (h : Memory.wf s.memory = true) :
    Memory.wf (s.storeRecordChecked readBack).memory = true := by
  unfold State.storeRecordChecked
  split
  · exact h
  · split
    · simpa using State.cutRecord_wf _ _ h
    · dsimp only
      split
      · split
        · simpa using memWriteBlock_wf _ _ _ h
        · exact memWriteBlock_wf _ _ _ h
      · simpa using memWriteBlock_wf _ _ _ h

/-- RESTART keeps the canonical form. -/
theorem State.restart_wf (s : State) (h : Memory.wf s.memory = true) : Memory.wf s.restart.memory = true := State.abandonStore_wf s h

/-- The memory at reset is canonical. -/
theorem State.reset_memory_wf : Memory.wf State.reset.memory = true := rfl

/-- Reading a run of bytes looks at those offsets alone. -/
theorem memReadBlock_congr (m m' : List Host.Cell) : ∀ (n a : Nat), (∀ b, a ≤ b → b < a + n → memRead m b = memRead m' b) →
    memReadBlock m a n = memReadBlock m' a n
  | 0, _, _ => rfl
  | n + 1, a, h => by
    show memRead m a :: memReadBlock m (a + 1) n = memRead m' a :: memReadBlock m' (a + 1) n
    rw [h a (Nat.le_refl a) (by omega), memReadBlock_congr m m' n (a + 1) fun b h1 h2 => h b (by omega) (by omega)]

/-- The records of a layout written one after another. -/
def writeRecords (m : List Host.Cell) (recs : List StoredRecord) : List Host.Cell :=
  recs.foldl (fun m r => memWriteBlock m r.offset r.bytes) m

/-- Writing a layout leaves the offsets before it. -/
theorem memRead_writeRecords_below (image : PerType (List Byte)) : ∀ (order : List RecordType) (m : List Host.Cell) (a b : Nat),
    Memory.wf m = true → b < a → memRead (writeRecords m (layRecords image a order)) b = memRead m b
  | [], _, _, _, _, _ => rfl
  | r :: rest, m, a, b, h, hb => by
    show memRead (writeRecords (memWriteBlock m a _) (layRecords image _ rest)) b = _
    rw [memRead_writeRecords_below image rest _ _ b (memWriteBlock_wf _ m a h) (Nat.lt_of_lt_of_le hb (Nat.le_add_right a _)),
      memRead_memWriteBlock_outside _ m a b h (Or.inl hb)]

/-- A record is 7 bytes longer than its body (R189). -/
theorem recordBytes_length (r : RecordType) (last : Bool) (body : List Byte) : (recordBytes r last body).length = body.length + 7 := by
  simp [recordBytes, be16]

/-- A layout that has room is read back record by record. -/
theorem memReadBlock_writeRecords (image : PerType (List Byte)) : ∀ (order : List RecordType) (m : List Host.Cell) (a : Nat),
    Memory.wf m = true → a + (order.map fun r => (image.get r).length + 7).sum ≤ memorySize →
    ∀ rec, rec ∈ layRecords image a order →
      memReadBlock (writeRecords m (layRecords image a order)) rec.offset rec.bytes.length = rec.bytes
  | [], _, _, _, _, _, h => nomatch h
  | r :: rest, m, a, h, hr, rec, hin => by
    simp only [List.map_cons, List.sum_cons] at hr
    have hl := recordBytes_length r rest.isEmpty (image.get r)
    have hw := memWriteBlock_wf (recordBytes r rest.isEmpty (image.get r)) m a h
    rcases List.mem_cons.1 hin with rfl | hin
    · show memReadBlock (writeRecords (memWriteBlock m a _) (layRecords image _ rest)) a _ = recordBytes r rest.isEmpty (image.get r)
      rw [memReadBlock_congr _ (memWriteBlock m a (recordBytes r rest.isEmpty (image.get r))) _ _ fun b _ hb =>
        memRead_writeRecords_below image rest _ _ b hw hb]
      exact memReadBlock_memWriteBlock _ m a h (by omega)
    · exact memReadBlock_writeRecords image rest _ _ hw (by omega) rec hin

end Sys2Proof.Machine
end

