-- ==== Sys2Proof/Laws/Records.lean ====
section
/-!
SUPPORT. Records: that each operation of a compensation cell, an output, a batch and a queue keeps that record in its range.
-/
namespace Sys2Proof.Machine

/-! ## Every entry of a list -/

/-- What a change keeps holds of every entry after it. -/
theorem forall_modNth {α : Type} (P : α → Prop) (f : α → α) (hf : ∀ x, P x → P (f x)) (l : List α) (i : Nat)
    (h : ∀ x, x ∈ l → P x) : ∀ x, x ∈ modNth l i f → P x := by
  induction l generalizing i with
  | nil => intro x hx; simp [modNth] at hx
  | cons a as ih =>
    have ha := h a List.mem_cons_self
    have has := fun x hx => h x (List.mem_cons_of_mem a hx)
    intro x hx
    cases i with
    | zero =>
      rcases List.mem_cons.1 (by simpa [modNth] using hx) with rfl | hx
      · exact hf a ha
      · exact has x hx
    | succ k =>
      rcases List.mem_cons.1 (by simpa [modNth] using hx) with rfl | hx
      · exact ha
      · exact ih k has x (by simpa [modNth] using hx)

/-- What a change keeps in every place holds of every entry after it. -/
theorem forall_mapFrom {α β : Type} (P : α → Prop) (Q : β → Prop) (f : Nat → α → β) (hf : ∀ i x, P x → Q (f i x)) :
    ∀ (l : List α) (i : Nat), (∀ x, x ∈ l → P x) → ∀ y, y ∈ mapFrom f i l → Q y
  | [], _, _, _, hy => by simp [mapFrom] at hy
  | a :: as, i, h, y, hy => by
    rcases List.mem_cons.1 hy with rfl | hy
    · exact hf i a (h a List.mem_cons_self)
    · exact forall_mapFrom P Q f hf as (i + 1) (fun x hx => h x (List.mem_cons_of_mem a hx)) y hy

/-- An entry read from a list that the list may not have. -/
theorem forall_nth {α : Type} (P : α → Prop) (l : List α) (i : Nat) (x : α) (h : ∀ y, y ∈ l → P y) (hx : P x) : P (nth l i x) := by
  unfold nth
  rcases Nat.lt_or_ge i l.length with hi | hi
  · rw [List.getD_eq_getElem _ _ hi]; exact h _ (List.getElem_mem hi)
  · rw [List.getD_eq_default _ _ hi]; exact hx

/-! ## Compensation cells (R71, R73, R75 to R78) -/

theorem clampTo_range (lo hi v : Int) (h : lo ≤ hi) : lo ≤ clampTo lo hi v ∧ clampTo lo hi v ≤ hi := by
  unfold clampTo
  split
  · omega
  · split <;> omega

theorem clampTrim_range (v : Int) : -36 ≤ clampTrim v ∧ clampTrim v ≤ 36 := clampTo_range (-36) 36 v (by decide)

/-- One step toward a target stays between the two ends. -/
theorem toward_range (lo hi t c : Int) (ht : lo ≤ t ∧ t ≤ hi) (hc : lo ≤ c ∧ c ≤ hi) : lo ≤ toward t c ∧ toward t c ≤ hi := by
  unfold toward
  split
  · omega
  · split <;> omega

theorem Cell.reset_lawful : Cell.reset.Lawful :=
  { target := by decide, current := by decide, count := by decide, reference := rfl, off := fun _ => ⟨rfl, rfl⟩, undo := fun _ h => (nomatch h) }

theorem Cell.Lawful.ramp {c : Cell} (h : c.Lawful) : c.ramp.Lawful := by
  unfold Cell.ramp
  split
  · split
    next hn => exact { h with count := hn }
    · exact { h with current := toward_range _ _ _ _ h.target h.current, count := (by decide : 0 < 8) }
  · exact { h with count := (by decide : 0 < 8) }

/-- Nothing but the current trim, the count and the mark of an early step differs between a cell and its settled form. -/
theorem Cell.settled_fields (c : Cell) : c.settled.on = c.on ∧ c.settled.eref = c.eref ∧ c.settled.target = c.target ∧
    c.settled.limited = c.limited ∧ c.settled.undo = none := by
  unfold Cell.settled
  split
  · exact ⟨rfl, rfl, rfl, rfl, rfl⟩
  next h => exact ⟨rfl, rfl, rfl, rfl, h⟩

theorem Cell.Lawful.settled {c : Cell} (h : c.Lawful) : c.settled.Lawful := by
  unfold Cell.settled
  split
  next v hv => exact { h with current := h.undo v hv, count := (by decide : 7 < 8), undo := fun _ hn => (nomatch hn) }
  · exact h

/-- A step taken ahead of the frame is taken back whole: what the frame makes of the cell, and what any write makes of it, is the
same with and without the command (log 3). -/
theorem Cell.settled_stepEarly {c : Cell} (h : c.count < 8) : c.stepEarly.settled = c.settled := by
  unfold Cell.stepEarly
  split
  next hd =>
    obtain ⟨hs, hu⟩ := hd
    have hr : c.ramping = true ∧ 8 ≤ c.count + 1 := by simpa [Cell.stepDue] using hs
    have hc : c.count = 7 := by omega
    have hn : ¬ c.count + 1 < 8 := by omega
    simp only [Cell.ramp, hr.1, if_true, if_neg hn]
    rcases c with ⟨on, eref, target, current, count, limited, undo⟩
    obtain rfl : undo = none := hu
    obtain rfl : count = 7 := hc
    rfl
  · rfl

theorem Cell.Lawful.stepEarly {c : Cell} (h : c.Lawful) : c.stepEarly.Lawful := by
  unfold Cell.stepEarly
  split
  · exact { h.ramp with undo := fun v hv => by obtain rfl := Option.some.inj hv; exact h.current }
  · exact h

theorem Cell.Lawful.newGain {c : Cell} (h : c.Lawful) (e : Int) : (c.newGain e).Lawful := by
  have hs := h.settled
  have hf := c.settled_fields
  unfold Cell.newGain
  split
  next r ho hr =>
    refine { target := clampTrim_range _, current := ?_, count := ?_, reference := hs.reference, off := ?_, undo := hs.undo }
    · dsimp only
      split
      · exact clampTrim_range _
      · exact clampTrim_range _
    · have hk := hs.count
      dsimp only
      generalize clampTrim (wantedTrim r e) = t'
      generalize (if c.settled.ramping = true then clampTrim (c.settled.current + (t' - c.settled.target)) else t') = cur
      split
      · decide
      · exact hk
    · intro hz
      have : c.on = false := hf.1 ▸ hz
      rw [ho] at this
      exact (nomatch this)
  · exact h

theorem Cell.Lawful.toZero {c : Cell} (h : c.Lawful) : c.toZero.Lawful :=
  { target := (by decide : (-36 : Int) ≤ 0 ∧ (0 : Int) ≤ 36), current := h.settled.current,
    count := by have := h.settled.count; unfold Cell.toZero; dsimp only; split <;> omega,
    reference := h.settled.reference, off := fun _ => ⟨rfl, rfl⟩, undo := h.settled.undo }

theorem Cell.Lawful.setMode {c : Cell} (h : c.Lawful) (on : Bool) (e : Int) : (c.setMode on e).Lawful := by
  have hz := h.toZero
  unfold Cell.setMode
  split
  · exact h
  split
  · exact { target := hz.target, current := hz.current, count := hz.count, reference := rfl, off := fun hf => (nomatch hf),
            undo := hz.undo }
  · exact { target := hz.target, current := hz.current, count := hz.count, reference := rfl, off := fun _ => ⟨rfl, rfl⟩,
            undo := hz.undo }

theorem Cell.Lawful.rebase {c : Cell} (h : c.Lawful) (e : Int) : (c.rebase e).Lawful := by
  have hz := h.toZero
  unfold Cell.rebase
  split
  next ho =>
    exact { target := hz.target, current := hz.current, count := hz.count, reference := by
              show true = c.settled.on
              rw [c.settled_fields.1, ho],
            off := fun hf => by
              have : c.on = false := c.settled_fields.1 ▸ hf
              rw [ho] at this
              exact (nomatch this),
            undo := hz.undo }
  · exact h

/-- The cells of an input after a change of each that keeps the law. -/
theorem lawful_mapCells {ic : InputComp} (h : ∀ col, (ic.cells.get col).Lawful) (f : Fin 4 → Cell → Cell)
    (hf : ∀ col c, c.Lawful → (f col c).Lawful) (col : Fin 4) : ((ic.cells.map f).get col).Lawful := by
  rw [PerColumn.get_map]
  exact hf col _ (h col)

/-- The cells of an input after a change of one that keeps the law. -/
theorem lawful_setCell {ic : InputComp} (h : ∀ col, (ic.cells.get col).Lawful) (k : Fin 4) (c : Cell) (hc : c.Lawful) (col : Fin 4) :
    ((ic.cells.set k c).get col).Lawful := by
  rw [PerColumn.get_set]
  split
  · exact hc
  · exact h col

theorem InputComp.newGain_lawful {ic : InputComp} (h : ∀ col, (ic.cells.get col).Lawful) (e : Int) (col : Fin 4) :
    ((ic.newGain e).cells.get col).Lawful := by
  unfold InputComp.newGain
  split
  · exact h col
  · exact lawful_mapCells h _ (fun _ _ hc => hc.newGain e) col

theorem InputComp.advance_lawful {ic : InputComp} (h : ∀ col, (ic.cells.get col).Lawful) (handed : Option Int)
    (col : Fin 4) : ((ic.advance handed).cells.get col).Lawful := by
  unfold InputComp.advance
  refine lawful_mapCells (fun k => ?_) _ (fun k c hc => hc.settled.ramp) col
  split
  · exact newGain_lawful h _ k
  · exact h k

/-- A change of one input's compensation that keeps its cells' law keeps the table's. -/
theorem State.CompLawful.modComp {s : State} (h : s.CompLawful) (i : Nat) (f : InputComp → InputComp)
    (hf : ∀ ic : InputComp, (∀ col, (ic.cells.get col).Lawful) → ∀ col, ((f ic).cells.get col).Lawful) :
    (s.modComp i f).CompLawful := forall_modNth (fun ic : InputComp => ∀ col, (ic.cells.get col).Lawful) f hf s.comp i h

theorem State.CompLawful.modCell {s : State} (h : s.CompLawful) (i : Nat) (c : Fin 4) (f : Int → Cell → Cell)
    (hf : ∀ e x, x.Lawful → (f e x).Lawful) : (s.modCell i c f).CompLawful :=
  h.modComp i _ fun ic hic col => lawful_setCell hic c _ (hf ic.stageGain _ (hic c)) col

theorem State.CompLawful.resetColumn {s : State} (h : s.CompLawful) (c : Fin 4) : (s.resetColumn c).CompLawful := by
  intro ic hic
  obtain ⟨old, ho, rfl⟩ := List.mem_map.1 hic
  exact lawful_setCell (h old ho) c _ Cell.reset_lawful

theorem State.CompLawful.rebaseInputs {s : State} (h : s.CompLawful) (c : Fin 4) (x y : Nat) : (s.rebaseInputs c x y).CompLawful := by
  refine forall_mapFrom (fun ic : InputComp => ∀ col, (ic.cells.get col).Lawful) (fun ic : InputComp => ∀ col, (ic.cells.get col).Lawful) _
    (fun i ic hic => ?_) s.comp 1 h
  split
  · exact lawful_setCell hic c _ ((hic c).rebase _)
  · exact hic

/-! ## Levels (R88, R91) -/

/-- A step taken ahead of the frame is taken back whole (log 3). -/
theorem Level.settled_stepEarly {l : Level} (h : l.count < 8) : l.stepEarly.settled = l.settled := by
  unfold Level.stepEarly
  split
  next hd =>
    obtain ⟨hr, hk, hu⟩ := hd
    have hc : l.count = 7 := by omega
    have hn : ¬ l.count + 1 < 8 := by omega
    have ho : l.on = true := by
      have : l.on = true ∧ l.current ≠ l.rampEnd := by simpa [Level.ramping] using hr
      exact this.1
    simp only [Level.ramp, hr, if_true, if_neg hn]
    rcases l with ⟨on, target, current, count, undo⟩
    obtain rfl : undo = none := hu
    obtain rfl : count = 7 := hc
    obtain rfl : on = true := ho
    unfold Level.move Level.settled
    dsimp only
    split
    next ht => obtain ⟨rfl, _⟩ := ht; rfl
    · rfl
  · rfl

/-- A write makes the same of a level whether or not its step has been taken ahead of the frame (log 3). -/
theorem Level.write_stepEarly {l : Level} (h : l.count < 8) (t : Option Int) : l.stepEarly.write t = l.write t := by
  unfold Level.write
  rw [Level.settled_stepEarly h]

/-! ## Outputs (R123, R126 to R134) -/

theorem stepNat_le {t n top : Nat} (ht : t ≤ top) (hn : n ≤ top) : stepNat t n ≤ top := by
  unfold stepNat
  split
  · omega
  · split <;> omega

theorem Output.reset_lawful : Output.reset.Lawful := { shares := by decide, gate := by decide, phase := by decide }

/-- The law reads the shares, the gate and the phase. -/
theorem Output.Lawful.congr {o r : Output} (h : o.Lawful) (hp : r.primaryShare = o.primaryShare)
    (hf : r.fallbackShare = o.fallbackShare) (hg : r.gate = o.gate) (ht : r.phase = o.phase) : r.Lawful :=
  { shares := hp ▸ hf ▸ h.shares, gate := hg ▸ h.gate, phase := ht ▸ h.phase }

theorem Output.Lawful.primaryLost {o : Output} (h : o.Lawful) (b : Bool) : (o.primaryLost b).Lawful := by
  refine h.congr ?_ ?_ ?_ ?_ <;> (unfold Output.primaryLost; split <;> rfl)

theorem Output.Lawful.primaryRegained {o : Output} (h : o.Lawful) (ms : Nat) : (o.primaryRegained ms).Lawful := by
  refine h.congr ?_ ?_ ?_ ?_ <;> (unfold Output.primaryRegained; dsimp only; split <;> first | rfl | (split <;> rfl))

theorem Output.Lawful.fallbackLost {o : Output} (h : o.Lawful) : o.fallbackLost.Lawful := by
  refine h.congr ?_ ?_ ?_ ?_ <;> (unfold Output.fallbackLost; dsimp only; split <;> first | rfl | (split <;> rfl))

theorem Output.Lawful.fallbackRegained {o : Output} (h : o.Lawful) : o.fallbackRegained.Lawful := by
  refine h.congr ?_ ?_ ?_ ?_ <;> (unfold Output.fallbackRegained; split <;> rfl)

theorem Output.Lawful.selectAfresh {o : Output} (h : o.Lawful) (p f : Bool) : (o.selectAfresh p f).Lawful := h.congr rfl rfl rfl rfl

theorem Output.Lawful.crossfadeEnd {o : Output} (h : o.Lawful) : o.crossfadeEnd.Lawful := by
  refine h.congr ?_ ?_ ?_ ?_ <;> (unfold Output.crossfadeEnd; split <;> first | rfl | (split <;> rfl))

theorem Output.Lawful.holdExpiry {o : Output} (h : o.Lawful) : o.holdExpiry.Lawful := by
  refine h.congr ?_ ?_ ?_ ?_ <;> (unfold Output.holdExpiry; split <;> first | rfl | (split <;> rfl))

theorem Output.Lawful.tick {o : Output} (h : o.Lawful) : o.tick.Lawful := h.congr rfl rfl rfl rfl

/-- The shares never add up to more than 240, since one of them falls or stands whenever the other rises (R126, R127). -/
theorem Output.Lawful.moveShares {o : Output} (h : o.Lawful) : o.moveShares.Lawful := by
  refine { shares := ?_, gate := h.gate, phase := h.phase }
  have hs := h.shares
  unfold Output.moveShares stepNat
  cases o.selection <;> simp only [Selection.targets] <;> grind

theorem Output.Lawful.overrideStage {o : Output} (h : o.Lawful) (started : Bool) (x : Sample) :
    (o.overrideStage started x).1.Lawful := by
  have hg : stepNat (o.gateTarget started) o.gate ≤ 64 :=
    stepNat_le (by unfold Output.gateTarget; split <;> omega) h.gate
  have hc : ∀ r : Output, r.Lawful → r.changeContent.Lawful := fun r hr => by
    unfold Output.changeContent
    split
    · split
      · exact { shares := hr.shares, gate := hr.gate, phase := (by decide : 0 < 48) }
      · exact hr.congr rfl rfl rfl rfl
      · exact hr
    · exact hr
  have h2 := hc { o with gate := stepNat (o.gateTarget started) o.gate } { shares := h.shares, gate := hg, phase := h.phase }
  unfold Output.overrideStage
  dsimp only
  split
  · exact { shares := h2.shares, gate := h2.gate, phase := Nat.mod_lt _ (by decide) }
  · exact h2

theorem Output.Lawful.form {o : Output} (h : o.Lawful) (started : Bool) (x y : Sample) :
    (o.form started x y).1.Lawful := by
  have h1 : ∀ l : Level, ({ o.moveShares with level := l } : Output).Lawful := fun l => h.moveShares.congr rfl rfl rfl rfl
  exact ((h1 _).overrideStage started _).congr rfl rfl rfl rfl

/-- A change of one output that keeps its law keeps every output's. -/
theorem State.OutputsLawful.modOutput {s : State} (h : s.OutputsLawful) (i : Nat) (f : Output → Output)
    (hf : ∀ o, o.Lawful → (f o).Lawful) : (s.modOutput i f).OutputsLawful := forall_modNth Output.Lawful f hf s.outputs i h

/-! ## Batches (R158, R162, R164) -/

theorem Batch.reset_lawful : Batch.reset.Lawful := ⟨by decide, fun _ => ⟨rfl, rfl⟩⟩

theorem Batch.Lawful.dropDomain {b : Batch} (h : b.Lawful) (d : Nat) : (b.dropDomain d).Lawful := by
  refine ⟨(List.length_filter_le _ _).trans h.1, fun hn => ?_⟩
  obtain ⟨hs, hd⟩ := h.2 hn
  simp [Batch.dropDomain, hs, hd, satAdd]

/-- Replacing one slot's batch by a lawful one. -/
theorem State.BatchesLawful.setBatch {s : State} (h : s.BatchesLawful) (sl : SlotId) (b : Batch) (hb : b.Lawful) :
    (s.setBatch sl b).BatchesLawful := by
  intro x
  show ((s.batches.set sl b).get x).Lawful
  rw [PerSlot.get_set]
  split
  · exact hb
  · exact h x

/-- Entries join a list only while the batch is OPEN and there is room (R164). -/
theorem State.BatchesLawful.stage {s : State} (h : s.BatchesLawful) (sl : SlotId) (es : List Staged) (ho : s.staging sl = true)
    (hr : s.stagingRoom sl es.length = true) : (s.stage sl es).BatchesLawful := by
  refine h.setBatch sl _ ⟨?_, fun hn => ?_⟩
  · simpa [State.stagingRoom] using hr
  · have : (s.batch sl).state = .opened := by simpa [State.staging] using ho
    rw [show (s.batch sl).state = .none from hn] at this
    exact (nomatch this)

/-! ## Queues (R165, R172, R186) -/

@[simp] theorem completeIn_length (r : Result) (x y : Nat) : ∀ l : List Answer, (completeIn r x y l).length = l.length
  | [] => rfl
  | a :: l => by
    unfold completeIn
    split
    · simp [completeIn_length r x y l]
    · rfl

@[simp] theorem completePanel_length (r : Result) (x y : Nat) : ∀ l : List PanelMsg, (completePanel r x y l).length = l.length
  | [] => rfl
  | m :: l => by
    unfold completePanel
    split
    · split
      · simp [completePanel_length r x y l]
      · rfl
    · simp [completePanel_length r x y l]
    · simp [completePanel_length r x y l]

theorem replaceIn_length (p : PanelMsg → Bool) (m : PanelMsg) : ∀ (l q : List PanelMsg), replaceIn p m l = some q → q.length = l.length
  | [], _, h => (nomatch h)
  | x :: l, q, h => by
    unfold replaceIn at h
    split at h
    · obtain rfl := Option.some.inj h
      rfl
    · obtain ⟨q', hq', rfl⟩ := Option.map_eq_some_iff.1 h
      simp [replaceIn_length p m l q' hq']

/-- A report or digest offered to the panel queue never takes it past its 32 places (R150, R186). -/
theorem State.offerPanel_places (p : PanelMsg → Bool) (m : PanelMsg) (s : State) (h : s.panelPlaces ≤ 32) :
    (s.offerPanel p m).panelPlaces ≤ 32 := by
  unfold State.offerPanel
  split
  next q hq =>
    have := replaceIn_length p m _ _ hq
    simp only [State.panelPlaces] at h ⊢
    omega
  · split
    next hr =>
      have hr' : s.panelPlaces < 32 := of_decide_eq_true hr
      simp only [State.panelPlaces] at hr'
      simp only [State.panelPlaces, List.length_append, List.length_cons, List.length_nil]
      omega
    · exact h

end Sys2Proof.Machine
end

