-- ==== Sys2Proof/Laws/Talkback.lean ====
section
/-!
SUPPORT. The talk buses: where an entry is placed in a waiting list, and that every operation of a bus keeps the bus's law.
-/
namespace Sys2Proof.Machine

/-! ## Placing an entry (R107) -/

theorem placeQueued_perm (cls : SlotId → Nat) (sl : SlotId) : ∀ l, (placeQueued cls sl l).Perm (sl :: l)
  | [] => .refl _
  | x :: xs => by
    unfold placeQueued
    split
    · exact ((placeQueued_perm cls sl xs).cons x).trans (.swap sl x xs)
    · exact .refl _

theorem placePreempted_perm (cls : SlotId → Nat) (sl : SlotId) : ∀ l, (placePreempted cls sl l).Perm (sl :: l)
  | [] => .refl _
  | x :: xs => by
    unfold placePreempted
    split
    · exact ((placePreempted_perm cls sl xs).cons x).trans (.swap sl x xs)
    · exact .refl _

theorem reorder_perm (cls : SlotId → Nat) : ∀ l, (reorder cls l).Perm l
  | [] => .refl _
  | x :: xs => (placePreempted_perm cls x _).trans ((reorder_perm cls xs).cons x)

@[simp] theorem mem_placeQueued {cls : SlotId → Nat} {sl x : SlotId} {l : List SlotId} :
    x ∈ placeQueued cls sl l ↔ x = sl ∨ x ∈ l := by rw [(placeQueued_perm cls sl l).mem_iff, List.mem_cons]

@[simp] theorem mem_placePreempted {cls : SlotId → Nat} {sl x : SlotId} {l : List SlotId} :
    x ∈ placePreempted cls sl l ↔ x = sl ∨ x ∈ l := by rw [(placePreempted_perm cls sl l).mem_iff, List.mem_cons]

@[simp] theorem mem_reorder {cls : SlotId → Nat} {x : SlotId} {l : List SlotId} : x ∈ reorder cls l ↔ x ∈ l :=
  (reorder_perm cls l).mem_iff

/-- A waiting list in serving order: higher class first (R107). -/
abbrev Served (cls : SlotId → Nat) (l : List SlotId) : Prop := l.Pairwise fun x y => cls y ≤ cls x

theorem placeQueued_served (cls : SlotId → Nat) (sl : SlotId) : ∀ l, Served cls l → Served cls (placeQueued cls sl l)
  | [], _ => List.pairwise_singleton _ _
  | x :: xs, h => by
    have hx := List.pairwise_cons.1 h
    unfold placeQueued
    split
    next hc =>
      refine List.pairwise_cons.2 ⟨fun y hy => ?_, placeQueued_served cls sl xs hx.2⟩
      rcases mem_placeQueued.1 hy with rfl | hy
      · exact hc
      · exact hx.1 y hy
    next hc =>
      refine List.pairwise_cons.2 ⟨fun y hy => ?_, h⟩
      rcases List.mem_cons.1 hy with rfl | hy
      · omega
      · have := hx.1 y hy; omega

theorem placePreempted_served (cls : SlotId → Nat) (sl : SlotId) : ∀ l, Served cls l → Served cls (placePreempted cls sl l)
  | [], _ => List.pairwise_singleton _ _
  | x :: xs, h => by
    have hx := List.pairwise_cons.1 h
    unfold placePreempted
    split
    next hc =>
      refine List.pairwise_cons.2 ⟨fun y hy => ?_, placePreempted_served cls sl xs hx.2⟩
      rcases mem_placePreempted.1 hy with rfl | hy
      · omega
      · exact hx.1 y hy
    next hc =>
      refine List.pairwise_cons.2 ⟨fun y hy => ?_, h⟩
      rcases List.mem_cons.1 hy with rfl | hy
      · omega
      · have := hx.1 y hy; omega

theorem reorder_served (cls : SlotId → Nat) : ∀ l, Served cls (reorder cls l)
  | [] => List.Pairwise.nil
  | x :: xs => placePreempted_served cls x _ (reorder_served cls xs)

/-! ## The law of a bus (R105, R106) -/

/-- An empty bus is lawful. -/
theorem BusRec.reset_lawful (act : SlotId → Prop) (cls : SlotId → Nat) : BusRec.reset.Lawful act cls :=
  { talkerActive := fun _ h => (nomatch h), waitingActive := fun _ h => (nomatch h), once := List.Pairwise.nil,
    apart := fun _ h => (nomatch h), noQueueWithoutTalker := fun _ => rfl, ordered := List.Pairwise.nil, timed := rfl }

/-- The law reads the talker, the list and whether the timer runs. -/
theorem BusRec.Lawful.congr {act : SlotId → Prop} {cls : SlotId → Nat} {b c : BusRec} (h : b.Lawful act cls)
    (ht : c.talker = b.talker) (hw : c.waiting = b.waiting) (hm : c.timer.isSome = b.timer.isSome) : c.Lawful act cls :=
  { talkerActive := fun x hx => h.talkerActive x (ht ▸ hx), waitingActive := fun x hx => h.waitingActive x (hw ▸ hx),
    once := hw ▸ h.once, apart := fun x hx => hw ▸ h.apart x (ht ▸ hx),
    noQueueWithoutTalker := fun hx => hw ▸ h.noQueueWithoutTalker (ht ▸ hx), ordered := hw ▸ h.ordered,
    timed := by rw [hm, ht, h.timed] }

/-- The law with more slots ACTIVE, or with the same classes under another name. -/
theorem BusRec.Lawful.mono {act act' : SlotId → Prop} {cls cls' : SlotId → Nat} {b : BusRec} (h : b.Lawful act cls)
    (ha : ∀ x, act x → act' x) (hc : ∀ x, x ∈ b.waiting → cls' x = cls x) : b.Lawful act' cls' :=
  { talkerActive := fun x hx => ha x (h.talkerActive x hx), waitingActive := fun x hx => ha x (h.waitingActive x hx),
    once := h.once, apart := h.apart, noQueueWithoutTalker := h.noQueueWithoutTalker,
    ordered := h.ordered.imp_of_mem fun hx hy hxy => by rw [hc _ hx, hc _ hy]; exact hxy,
    timed := h.timed }

theorem BusRec.Lawful.clearNotice {act : SlotId → Prop} {cls : SlotId → Nat} {b : BusRec} (h : b.Lawful act cls) (sl : SlotId) :
    (b.clearNotice sl).Lawful act cls := h.congr rfl rfl rfl

theorem BusRec.Lawful.tick {act : SlotId → Prop} {cls : SlotId → Nat} {b : BusRec} (h : b.Lawful act cls) :
    b.tick.Lawful act cls := h.congr rfl rfl (Option.isSome_map ..)

/-- The hand-on of R108 keeps the law. -/
theorem BusRec.Lawful.handOn {act : SlotId → Prop} {cls : SlotId → Nat} {b : BusRec} (h : b.Lawful act cls) (limit : Nat) :
    (b.handOn limit).Lawful act cls := by
  unfold BusRec.handOn
  split
  next hw =>
    exact { talkerActive := fun _ h => (nomatch h), waitingActive := h.waitingActive, once := h.once, apart := fun _ h => (nomatch h),
            noQueueWithoutTalker := fun _ => hw, ordered := h.ordered, timed := rfl }
  next x xs hw =>
    have ho := List.nodup_cons.1 (hw ▸ h.once)
    exact { talkerActive := fun y hy => h.waitingActive y (by simp only [Option.some.injEq] at hy; simp [hw, hy]),
            waitingActive := fun y hy => h.waitingActive y (by rw [hw]; exact List.mem_cons_of_mem _ hy),
            once := ho.2, apart := fun y hy => (Option.some.inj hy) ▸ ho.1, noQueueWithoutTalker := fun h => (nomatch h),
            ordered := (List.pairwise_cons.1 (hw ▸ h.ordered)).2, timed := rfl }

/-- A press of an ACTIVE slot keeps the law (R112). -/
theorem BusRec.Lawful.press {act : SlotId → Prop} {cls : SlotId → Nat} {b : BusRec} (h : b.Lawful act cls) (limit : Nat)
    {sl : SlotId} (hs : act sl) : (b.press cls limit sl).1.Lawful act cls := by
  unfold BusRec.press
  split
  · exact h
  split
  · exact h
  next ht hw =>
  split
  next hn =>
    have he := h.noQueueWithoutTalker hn
    exact { talkerActive := fun y hy => (Option.some.inj hy) ▸ hs, waitingActive := h.waitingActive, once := h.once,
            apart := fun y _ => by simp [BusRec.grant, he], noQueueWithoutTalker := fun h => (nomatch h), ordered := h.ordered,
            timed := rfl }
  next t htk =>
    have hts : t ≠ sl := fun e => ht (e ▸ htk)
    split
    · exact { talkerActive := fun y hy => (Option.some.inj hy) ▸ hs,
              waitingActive := fun y hy => by
                rcases mem_placePreempted.1 hy with rfl | hy
                · exact h.talkerActive _ htk
                · exact h.waitingActive y hy,
              once := (placePreempted_perm cls t b.waiting).nodup_iff.2 (List.nodup_cons.2 ⟨h.apart t htk, h.once⟩),
              apart := fun y hy => by
                obtain rfl := Option.some.inj hy
                intro hm
                rcases mem_placePreempted.1 hm with e | hm
                · exact hts e.symm
                · exact hw hm,
              noQueueWithoutTalker := fun h => (nomatch h), ordered := placePreempted_served cls t _ h.ordered, timed := rfl }
    · exact { talkerActive := h.talkerActive,
              waitingActive := fun y hy => by
                rcases mem_placeQueued.1 hy with rfl | hy
                · exact hs
                · exact h.waitingActive y hy,
              once := (placeQueued_perm cls sl b.waiting).nodup_iff.2 (List.nodup_cons.2 ⟨hw, h.once⟩),
              apart := fun y hy hm => by
                rcases mem_placeQueued.1 hm with rfl | hm
                · exact ht hy
                · exact h.apart y hy hm,
              noQueueWithoutTalker := fun hn => by rw [hn] at htk; exact (nomatch htk),
              ordered := placeQueued_served cls sl _ h.ordered, timed := h.timed }

/-- A release keeps the law (R114). -/
theorem BusRec.Lawful.release {act : SlotId → Prop} {cls : SlotId → Nat} {b : BusRec} (h : b.Lawful act cls) (limit : Nat)
    (sl : SlotId) : (b.release limit sl).1.Lawful act cls := by
  unfold BusRec.release
  split
  · exact h.handOn limit
  split
  · exact { talkerActive := h.talkerActive, waitingActive := fun y hy => h.waitingActive y (List.mem_of_mem_filter hy),
            once := h.once.filter _, apart := fun y hy hm => h.apart y hy (List.mem_of_mem_filter hm),
            noQueueWithoutTalker := fun hn => by simp [h.noQueueWithoutTalker hn], ordered := h.ordered.filter _,
            timed := h.timed }
  · exact h

/-- A slot that has released a bus, or left ACTIVE, is on it neither as talker nor waiting (R114, R119). -/
theorem BusRec.Lawful.release_off {act : SlotId → Prop} {cls : SlotId → Nat} {b : BusRec} (h : b.Lawful act cls) (limit : Nat)
    (sl : SlotId) : (b.release limit sl).1.talker ≠ some sl ∧ sl ∉ (b.release limit sl).1.waiting := by
  unfold BusRec.release
  split
  next ht =>
    have ha := h.apart sl ht
    unfold BusRec.handOn
    split
    next hw => exact ⟨fun e => (nomatch e), ha⟩
    next x xs hw =>
      rw [hw] at ha
      exact ⟨fun e => ha (by rw [← Option.some.inj e]; exact List.mem_cons_self), fun hm => ha (List.mem_cons_of_mem _ hm)⟩
  next ht =>
    split
    · exact ⟨ht, by simp⟩
    next hw => exact ⟨ht, hw⟩

/-- A slot leaves a bus: the law holds even with the slot no longer ACTIVE (R119). -/
theorem BusRec.Lawful.remove {act act' : SlotId → Prop} {cls : SlotId → Nat} {b : BusRec} (h : b.Lawful act cls) (limit : Nat)
    (sl : SlotId) (ha : ∀ x, x ≠ sl → act x → act' x) : (b.remove limit sl).Lawful act' cls := by
  have hr := h.release limit sl
  have ho := h.release_off limit sl
  exact { talkerActive := fun x hx => ha x (fun e => ho.1 (e ▸ hx)) (hr.talkerActive x hx),
          waitingActive := fun x hx => ha x (fun e => ho.2 (e ▸ hx)) (hr.waitingActive x hx),
          once := hr.once, apart := hr.apart, noQueueWithoutTalker := hr.noQueueWithoutTalker, ordered := hr.ordered,
          timed := hr.timed }

/-- A talk timer's expiry keeps the law (R116). -/
theorem BusRec.Lawful.timeout {act : SlotId → Prop} {cls : SlotId → Nat} {b : BusRec} (h : b.Lawful act cls) (limit : Nat) :
    (b.timeout limit).Lawful act cls := by
  unfold BusRec.timeout
  split
  · split
    · exact (h.handOn limit).congr rfl rfl rfl
    · exact h
  · exact h

/-- After a class change of a slot the list that holds it is in the order of the new classes (R107, R120). -/
theorem BusRec.Lawful.reorder {act : SlotId → Prop} {cls cls' : SlotId → Nat} {b : BusRec} (h : b.Lawful act cls) (sl : SlotId)
    (hc : ∀ x, x ≠ sl → cls' x = cls x) :
    (if sl ∈ b.waiting then { b with waiting := Sys2Proof.Machine.reorder cls' b.waiting } else b).Lawful act cls' := by
  split
  · exact { talkerActive := h.talkerActive, waitingActive := fun x hx => h.waitingActive x (mem_reorder.1 hx),
            once := (reorder_perm cls' b.waiting).nodup_iff.2 h.once, apart := fun x hx hm => h.apart x hx (mem_reorder.1 hm),
            noQueueWithoutTalker := fun hn => by simp [h.noQueueWithoutTalker hn, Sys2Proof.Machine.reorder],
            ordered := reorder_served cls' _, timed := h.timed }
  next hs => exact h.mono (fun _ hx => hx) fun x hx => hc x fun e => hs (e ▸ hx)

end Sys2Proof.Machine
end

