-- ==== Sys2Proof/Tests/Slice0.lean ====
section
/-!
SUPPORT. Own tests: ill-formed commands are refused, worked figures of the spec, one step of each family, and for every statement with hypotheses a state and operands that meet them together.
-/
namespace Sys2Proof.Tests

open Sys2Proof Sys2Proof.Machine

set_option Elab.async false

/-! ## Ill-formed commands -/

/-- A stage-bound frame of silence. -/
def quietFrame (number : Word) (ident : DeskId) : StageFrame :=
  { number := number, ident := ident, roleCode := 0, audio := Audio.silent, lane := List.replicate 8 0 }

theorem test_frame_with_a_sample_too_large_is_refused :
    (Instr.validFrame .a { quietFrame 0 0 with audio := { Audio.silent with talk := 8388608 } } false).wellFormed = false := by decide
theorem test_frame_with_fifteen_returns_is_refused :
    (Instr.validFrame .a { quietFrame 0 0 with audio := { returns := List.replicate 15 0, talk := 0 } } false).wellFormed = false := by
  decide
theorem test_frame_with_a_return_too_low_is_refused :
    (Instr.validFrame .a { quietFrame 0 0 with audio := { returns := List.replicate 16 (-8388609), talk := 0 } } false).wellFormed =
      false := by decide
theorem test_frame_with_seven_lane_bytes_is_refused :
    (Instr.validFrame .a { quietFrame 0 0 with lane := List.replicate 7 0 } false).wellFormed = false := by decide
theorem test_quiet_frame_is_well_formed : (Instr.validFrame .d (quietFrame 0xFFFF#16 5) true).wellFormed = true := by decide
theorem test_frame_period_with_63_lanes_is_refused : (Instr.framePeriod (List.replicate 63 0) 0).wellFormed = false := by decide
theorem test_frame_period_with_a_lane_sample_too_large_is_refused :
    (Instr.framePeriod (List.replicate 64 8388608) 0).wellFormed = false := by decide
theorem test_frame_period_with_a_talk_sample_too_large_is_refused :
    (Instr.framePeriod (List.replicate 64 0) 8388608).wellFormed = false := by decide
theorem test_load_that_stops_past_the_memory_is_refused : (Instr.loadEnd (some 65536)).wellFormed = false := by decide
theorem test_read_back_of_six_bytes_is_refused : (Instr.storeRecordChecked (some (List.replicate 6 0))).wellFormed = false := by decide
theorem test_read_back_of_too_many_bytes_is_refused :
    (Instr.storeRecordChecked (some (List.replicate 8200 0))).wellFormed = false := by decide +kernel
theorem test_known_kind_is_not_an_unknown_one : (Instr.unknownKind .panel 0 0x20#8).wellFormed = false := by decide
theorem test_setting_row_with_index_192_is_refused : (Instr.writeDesiredSetting .panel 0 192 0 0).wellFormed = false := by decide
theorem test_mode_row_with_indices_191_and_320_is_refused :
    (Instr.writeColumnMode .panel 0 191 0 0).wellFormed = false ∧ (Instr.writeColumnMode .panel 0 320 0 0).wellFormed = false := by decide
theorem test_crosspoint_row_outside_its_indices_is_refused :
    ([1023, 2608, 2699, 2724].all fun i => !(Instr.writeCrosspoint .panel 0 (BitVec.ofNat 16 i) 0 0).wellFormed) = true := by decide
theorem test_ceiling_row_outside_its_indices_is_refused :
    (Instr.writeDuckCeiling .panel 0 2729 0 0).wellFormed = false ∧ (Instr.writeDuckCeiling .panel 0 2754 0 0).wellFormed = false := by
  decide
theorem test_source_row_outside_its_indices_is_refused :
    ([2799, 2832, 2839, 2872].all fun i => !(Instr.writeOutputSource .panel 0 (BitVec.ofNat 16 i) 0 0).wellFormed) = true := by decide
theorem test_output_level_row_outside_its_indices_is_refused :
    (Instr.writeOutputLevel .panel 0 2879 0 0).wellFormed = false ∧ (Instr.writeOutputLevel .panel 0 2912 0 0).wellFormed = false := by
  decide
theorem test_override_row_outside_its_indices_is_refused :
    (Instr.writeOverride .panel 0 2919 0 0).wellFormed = false ∧ (Instr.writeOverride .panel 0 2952 0 0).wellFormed = false := by decide
theorem test_class_row_outside_its_indices_is_refused :
    (Instr.writeTalkClass .panel 0 2999 0 0).wellFormed = false ∧ (Instr.writeTalkClass .panel 0 3004 0 0).wellFormed = false := by
  decide
theorem test_limit_grace_and_revert_rows_of_another_index_are_refused :
    (Instr.writeTalkLimit .panel 0 3011 0 0).wellFormed = false ∧ (Instr.writeGraceTime .panel 0 3010 0 0).wellFormed = false ∧
      (Instr.writeRevertHoldTime .panel 0 3013 0 0).wellFormed = false := by decide
theorem test_other_index_row_of_a_writable_index_is_refused :
    ([0, 256, 2607, 2753, 2871, 2880, 2951, 3003, 3010, 3011, 3012].all fun i =>
      !(Instr.writeOtherIndex .panel 0 (BitVec.ofNat 16 i) 0 0).wellFormed) = true := by decide
theorem test_window_that_does_not_fit_a_message_is_refused :
    (Instr.setWindowMatrix .panel 0 1 1 1 1 0 (List.replicate 509 0)).wellFormed = false ∧
      (Instr.setWindowRun .panel 0 0 0 (List.replicate 510 0)).wellFormed = false := by decide +kernel
theorem test_store_of_too_many_codes_is_refused : (Instr.store .panel 0 (List.replicate 1024 1)).wellFormed = false := by
  decide +kernel
theorem test_known_transaction_is_not_an_unknown_one : (Instr.unknownTransaction 0x02#8).wellFormed = false := by decide
theorem test_no_word_spells_a_command : decodeTableWord 32 0xFFFFFFFF = none ∧ State.reset.withFetchWord 32 0 = State.reset :=
  ⟨rfl, rfl⟩

/-! ## Worked figures of the spec -/

/-- The table of 4.1.1. -/
theorem test_worked_levels :
    [applyLevel (-13) 1000000, applyLevel (-13) (-1000000), applyLevel (-12) 3, applyLevel (-12) (-3), applyLevel 12 6000000,
      applyLevel 36 1500000, applyLevel (-180) 8388607, applyLevel (-180) 1000] =
    [470913, -470913, 2, -1, 12000000, 12000000, 256, 0] := by decide +kernel
/-- The table of R83. -/
theorem test_thresholds :
    [0, 1, 11, 12, 13, 24, 36, 179, 180].map threshold =
      [8388607, 7900607, 4442815, 4194304, 3950304, 2097152, 1048576, 271, 256] := by decide +kernel
/-- The peaks of R84. -/
theorem test_level_codes : [8388608, 8388607, 4194304, 4194303, 270, 256, 255, 0].map levelCode = [0, 0, 12, 13, 180, 180, 180, 180] := by
  decide +kernel
/-- The table of R135. -/
theorem test_tone :
    [0, 2, 4, 8, 12, 16, 24, 28, 36].map toneSample = [0, 217113, 419431, 726475, 838861, 726475, 0, -419431, -838861] := by
  decide +kernel
/-- Steps 1, 32 and 63 of a fade of 5,000,000 (2.4). -/
theorem test_fade_steps : [share 5000000 1 64, share 5000000 32 64, share 5000000 63 64] = [78125, 2500000, 4921875] := by decide +kernel
theorem test_truncation_is_toward_zero : share (-65) 1 64 = -1 ∧ share (-63) 1 64 = 0 ∧ share 63 1 64 = 0 := by decide
theorem test_saturation : saturate 12000000 = 8388607 ∧ saturate (-8388609) = -8388608 ∧ clips 8388607 = false := by decide
/-- The two checks over the digits 1 to 9, by their generators, initial values and inversions (R18, R19). -/
theorem test_checks_of_the_digits :
    frameCheck [0x31, 0x32, 0x33, 0x34, 0x35, 0x36, 0x37, 0x38, 0x39] = 0xFC891918#32 ∧
      messageCheck [0x31, 0x32, 0x33, 0x34, 0x35, 0x36, 0x37, 0x38, 0x39] = 0x29B1#16 := by decide +kernel
/-- A frame whose bytes can be told apart. -/
def laidOut : StageFrame :=
  { number := 0x1234#16, ident := 0x0A0B0C0D0E0F#48, roleCode := 1,
    audio := { returns := 0x010203 :: List.replicate 15 (-1), talk := -2 }, lane := [1, 2, 3, 4, 5, 6, 7, 8] }
/-- A frame's bytes lie where R17 lays them. -/
theorem test_stage_frame_layout :
    (stageBytes laidOut).length = 72 ∧
      (stageBytes laidOut).take 12 = [0x12, 0x34, 0x0A, 0x0B, 0x0C, 0x0D, 0x0E, 0x0F, 0x01, 0x01, 0x02, 0x03] ∧
      ((stageBytes laidOut).drop 57).take 11 = [0xFF, 0xFF, 0xFE, 1, 2, 3, 4, 5, 6, 7, 8] := by decide +kernel
theorem test_message_layout :
    messageContent 0x20#8 7#8 [3#8] = [0x20, 7, 0, 1, 3] ++ be16 (messageCheck [0x20, 7, 0, 1, 3]).toNat ∧
      messageParse (messageContent 0x20#8 7#8 [3#8]) = some (0x20#8, 7#8, [3#8]) := by decide +kernel
theorem test_a_request_body_is_read_by_its_layout :
    requestParse 0x11#8 [0x0A, 0x8C, 0xFF, 0x4B, 1] = .set 2700 (-181) 1 ∧ requestParse 0x20#8 [3, 3] = .badBody 0x20#8 ∧
      requestParse 0x77#8 [] = .unknown 0x77#8 := by decide +kernel
theorem test_map_ends_and_gaps :
    ([704, 1023, 2608, 2699, 2724, 2729, 2754, 2799, 2832, 2839, 2872, 2879, 2912, 2919, 2952, 2999, 3004, 3009, 3013].all fun i =>
      (paramOf i).isNone) = true ∧
    ([0, 703, 1024, 2607, 2700, 2723, 2730, 2753, 2800, 2831, 2840, 2871, 2880, 2911, 2920, 2951, 3000, 3003, 3010, 3012].all fun i =>
      (paramOf i).isSome) = true := by decide +kernel
theorem test_domains_of_parameters :
    [0, 63, 127, 191, 256, 1024, 2607, 2723, 2753, 2800, 2951, 3000, 3012].map (fun i => (paramOf i).bind Param.domain) =
      [0, 7, 7, 7, 15, 8, 13, 13, 13, 14, 14, 14, 14].map some ∧ ((paramOf 192).bind Param.domain) = none := by decide +kernel
theorem test_sources :
    sourceOf 24 = some (.mix 23) ∧ sourceOf 101 = some (.input 0) ∧ sourceOf 25 = none ∧ sourceOf 65535 = none ∧
      pairRefused 201 216 = true ∧ pairRefused 201 301 = false ∧ pairRefused 101 101 = false := by decide +kernel

/-! ## Small states -/

/-- Started, with the panel alone. -/
def up : State := { State.reset with started := true, config := { ConfigUnit.reset with loading := false } }

/-- A LOCKED port of a console that sends frame 100 next. -/
def lockedPort (x : DeskId) : Port :=
  { Port.reset with state := .locked, lightCode := 20, lockRun := 32, identSeen := some x, roleSeen := some .front, expected := 100 }

/-- An ACTIVE slot on bound ports. -/
def activeSlot (x : DeskId) (bound : List LinkPort) : Slot :=
  { Slot.reset with state := .active, ident := some x, role := some .front, bound := bound, active := bound.head?, talkClass := 2 }

/-- Console 5 on port A, in slot 1. -/
def one : State := (up.modPort .a fun _ => lockedPort 5).modSlot .d1 fun _ => activeSlot 5 [.a]

/-- Console 5 on ports A and B, in slot 1. -/
def two : State := (one.modPort .b fun _ => lockedPort 5).modSlot .d1 fun _ => activeSlot 5 [.a, .b]

/-- Slot 1 with a console in SILENT whose port A has been lost; its grace timer has run out. -/
def hushed : State :=
  (up.modPort .a fun r => { r with state := .seeking }).modSlot .d1 fun _ =>
    { activeSlot 5 [.a] with state := .silent, active := none, conceal := .silentGap, grace := some { count := 48, limit := 48 } }

/-- A port in SEEKING one valid frame short of lock, on console 5's frame 99. -/
def nearlyLocked : Port := { Port.reset with state := .seeking, lightCode := 20, lockRun := 31, seekNumber := 99, seekIdent := 5 }

/-- The frame the ports of the states above wait for. -/
def next5 : StageFrame := quietFrame 100 5

/-- The state after a command. -/
def after (c : Instr) (s : State) : State :=
  match exec c s with
  | .next t => t
  | .fault _ => s
  | .refused _ => s

/-! ## The laws as checks -/

theorem LinkPort.mem_all (p : LinkPort) : p ∈ LinkPort.all := by cases p <;> decide
theorem Desk.mem_all (d : Desk) : d ∈ Desk.all := by cases d <;> decide
theorem SlotId.mem_all (x : SlotId) : x ∈ SlotId.all := by
  rcases x with _ | d
  · decide
  · cases d <;> decide
theorem Bus.mem_all (b : Bus) : b ∈ Bus.all := by cases b <;> decide

/-- A fact about every port is four facts. -/
theorem forall_port {P : LinkPort → Prop} : (∀ p, P p) ↔ P .a ∧ P .b ∧ P .c ∧ P .d :=
  ⟨fun h => ⟨h .a, h .b, h .c, h .d⟩, fun h p => by cases p <;> simp_all⟩
/-- A fact about every desk slot is three facts. -/
theorem forall_desk {P : Desk → Prop} : (∀ d, P d) ↔ P .d1 ∧ P .d2 ∧ P .d3 :=
  ⟨fun h => ⟨h .d1, h .d2, h .d3⟩, fun h d => by cases d <;> simp_all⟩

/-- The lengths of the tables, as a check. -/
theorem shaped_of {s : State} (h : s.cards.length = 8 ∧ s.channels.length = 64 ∧ s.comp.length = 64 ∧ s.mixes.length = 24 ∧
    (∀ m ∈ s.mixes, m.xps.length = 66) ∧ s.outputs.length = 32 ∧ s.domains.length = 16 ∧ s.meter.viewPeaks.length = 64 ∧
    s.meter.viewClips.length = 64 ∧ s.meter.mixPeaks.length = 24 ∧ s.meter.outPeaks.length = 32 ∧
    s.meter.returnPeaks.d1.length = 16 ∧ s.meter.returnPeaks.d2.length = 16 ∧ s.meter.returnPeaks.d3.length = 16) : s.Shaped :=
  let ⟨h1, h2, h3, h4, h5, h6, h7, h8, h9, h10, h11, h12, h13, h14⟩ := h
  { cards := h1, channels := h2, comp := h3, mixes := h4, crosspoints := h5, outputs := h6, domains := h7, viewPeaks := h8,
    viewClips := h9, mixPeaks := h10, outPeaks := h11, returnPeaks := fun d => by cases d <;> assumption }

/-- The law of the attachment table, as a check. -/
def attachCheck (s : State) : Bool :=
  decide (∀ d ∈ Desk.all, ((s.slot d).state = .active →
      ∃ p ∈ LinkPort.all, (s.slot d).active = some p ∧ p ∈ (s.slot d).bound ∧ (s.port p).usable = true) ∧
    ((s.slot d).state ≠ .active → (s.slot d).active = none) ∧
    ((s.slot d).state = .silent → ∀ p ∈ LinkPort.all, p ∈ (s.slot d).bound → (s.port p).usable = false) ∧
    ((s.slot d).state = .vacant → (s.slot d).bound = [])) &&
  decide (∀ d ∈ Desk.all, ((s.slot d).bound.length ≤ 2 ∧ (s.slot d).bound.Nodup) ∧
    (∀ e ∈ Desk.all, ∀ p ∈ LinkPort.all, p ∈ (s.slot d).bound → p ∈ (s.slot e).bound → d = e) ∧
    (∀ p ∈ LinkPort.all, p ∈ (s.slot d).bound → (s.port p).usable = true → (s.port p).identSeen = (s.slot d).ident)) &&
  decide (∀ d ∈ Desk.all, ∀ e ∈ Desk.all, (s.slot d).state ≠ .vacant → (s.slot e).state ≠ .vacant →
    (s.slot d).ident = (s.slot e).ident → d = e) &&
  decide (∀ p ∈ LinkPort.all, (s.port p).usable = true → (s.port p).identSeen.isSome = true ∧ (s.port p).roleSeen.isSome = true) &&
  decide (s.waitList.Nodup ∧ ∀ p ∈ s.waitList, (s.port p).usable = true ∧ ∀ d ∈ Desk.all, p ∉ (s.slot d).bound ∧
    ((s.slot d).state ≠ .vacant → (s.slot d).ident ≠ (s.port p).identSeen)) &&
  decide ((∃ d ∈ Desk.all, (s.slot d).state = .vacant) → s.waitList = []) &&
  decide (∀ p ∈ LinkPort.all, (s.port p).usable = true → (∀ d ∈ Desk.all, p ∉ (s.slot d).bound) →
    (p ∉ s.waitList → ∃ d ∈ Desk.all, (s.slot d).state ≠ .vacant ∧ (s.slot d).ident = (s.port p).identSeen) ∧
    ∀ d ∈ Desk.all, (s.slot d).state ≠ .vacant → (s.slot d).ident = (s.port p).identSeen →
      (s.slot d).bound.length = 2 ∧ ∀ q ∈ LinkPort.all, q ∈ (s.slot d).bound → (s.port q).usable = true)

/-- The check suffices. -/
theorem attach_of {s : State} (h : attachCheck s = true) : s.AttachLawful := by
  simp only [attachCheck, Bool.and_eq_true, decide_eq_true_eq] at h
  obtain ⟨⟨⟨⟨⟨⟨hd, hp⟩, hi⟩, hc⟩, hw⟩, hv⟩, hb⟩ := h
  have hd' := fun d => hd d (Desk.mem_all d)
  have hp' := fun d => hp d (Desk.mem_all d)
  exact {
    activePath := fun d h => let ⟨p, _, hp⟩ := (hd' d).1 h; ⟨p, hp⟩
    onlyActive := fun d => (hd' d).2.1
    silent := fun d h p => (hd' d).2.2.1 h p (LinkPort.mem_all p)
    vacant := fun d => (hd' d).2.2.2
    twoPorts := fun d => (hp' d).1
    oneSlot := fun d e p => (hp' d).2.1 e (Desk.mem_all e) p (LinkPort.mem_all p)
    oneIdentity := fun d e => hi d (Desk.mem_all d) e (Desk.mem_all e)
    identity := fun d p => (hp' d).2.2 p (LinkPort.mem_all p)
    carried := fun p => hc p (LinkPort.mem_all p)
    waiting := ⟨hw.1, fun p h => ⟨(hw.2 p h).1, fun d => ((hw.2 p h).2 d (Desk.mem_all d)).1⟩⟩
    strangers := fun p d h => ((hw.2 p h).2 d (Desk.mem_all d)).2
    noVacancy := fun ⟨d, h⟩ => hv ⟨d, Desk.mem_all d, h⟩
    surplus := fun p h hn hq => let ⟨d, _, hd⟩ := (hb p (LinkPort.mem_all p) h fun d _ => hn d).1 hq; ⟨d, hd⟩
    both := fun p d h hn hs hx =>
      let ⟨h2, hu⟩ := (hb p (LinkPort.mem_all p) h fun e _ => hn e).2 d (Desk.mem_all d) hs hx
      ⟨h2, fun q => hu q (LinkPort.mem_all q)⟩ }

/-- The law of a bus, as a check. -/
def busCheck (s : State) (b : BusRec) : Bool :=
  decide ((∀ x ∈ SlotId.all, b.talker = some x → s.slotState x = .active) ∧ (∀ x ∈ b.waiting, s.slotState x = .active) ∧
    b.waiting.Nodup ∧ (∀ x ∈ SlotId.all, b.talker = some x → x ∉ b.waiting) ∧ (b.talker = none → b.waiting = []) ∧
    b.waiting.Pairwise (fun x y => s.talkClassOf y ≤ s.talkClassOf x) ∧ b.timer.isSome = b.talker.isSome)

theorem bus_of {s : State} {b : BusRec} (h : busCheck s b = true) : b.Lawful (fun x => s.slotState x = .active) s.talkClassOf := by
  have h := of_decide_eq_true h
  exact {
    talkerActive := fun x => h.1 x (SlotId.mem_all x)
    waitingActive := fun x => h.2.1 x
    once := h.2.2.1
    apart := fun x => h.2.2.2.1 x (SlotId.mem_all x)
    noQueueWithoutTalker := h.2.2.2.2.1
    ordered := h.2.2.2.2.2.1
    timed := h.2.2.2.2.2.2 }

theorem talk_of {s : State} (h : busCheck s s.buses.tb1 = true ∧ busCheck s s.buses.tb2 = true ∧ s.started = true ∧
    s.config.loading = false) : s.TalkLawful :=
  { tb1 := bus_of h.1, tb2 := bus_of h.2.1, idleBefore := (by rw [h.2.2.1]; intro h; cases h),
    loadFirst := (by rw [h.2.2.2]; intro h; cases h) }

theorem up_shaped : up.Shaped := shaped_of (by decide +kernel)
theorem one_shaped : one.Shaped := shaped_of (by decide +kernel)
theorem one_attach : one.AttachLawful := attach_of (by decide +kernel)
theorem two_attach : two.AttachLawful := attach_of (by decide +kernel)
theorem one_talk : one.TalkLawful := talk_of (by decide +kernel)

/-! ## The hypotheses of the statements are met

One theorem for each statement with hypotheses: a state and operands that meet those of each clause together, at the ends of ranges
where a clause has a range. -/

/-- A store of START_CHANNELS alone, its one record being written. -/
def job : StoreJob :=
  { tag := 9, rest := [], written := [],
    current := { type := .startChannels, offset := 0, bytes := recordBytes .startChannels false (List.replicate 192 0) } }

/-- A store is in progress, with its place in the panel queue. -/
def storing : State := { up with panelReserved := 1, config := { up.config with store := some job } }

theorem test_met_EveryCommandCompletes :
    State.reset.pending = [] ∧ ({ up with powered := false } : State).powered = false ∧ ∀ x, Instr.powerLoss ≠ .fullReset x :=
  ⟨rfl, rfl, fun _ h => nomatch h⟩

theorem one_comp : one.CompLawful := by
  intro ic h col
  have h : ic = InputComp.reset := List.eq_of_mem_replicate (n := 64) h
  subst h
  have hc : ∀ c : Fin 4, InputComp.reset.cells.get c = Cell.reset := by decide
  rw [hc]
  exact ⟨by decide, by decide, by decide, by decide, by decide, fun v h => (nomatch h)⟩
theorem one_outputs : one.OutputsLawful := by
  intro o h
  have h : o = Output.reset := List.eq_of_mem_replicate (n := 32) h
  subst h
  exact ⟨by decide, by decide, by decide⟩
theorem one_batches : one.BatchesLawful := by
  intro x
  rcases x with _ | d
  · exact ⟨by decide, fun _ => ⟨rfl, rfl⟩⟩
  · cases d <;> exact ⟨by decide, fun _ => ⟨rfl, rfl⟩⟩
theorem one_gains : one.GainsAgree :=
  { inputs := by decide +kernel, equal := by decide +kernel, absent := by decide +kernel }
theorem one_queues : one.QueuesLawful :=
  { panel := by decide, reservation := by decide, answers := forall_desk.2 (by decide) }

/-- The laws hold together in a state with a console, and a step of it is a next state: the hypotheses of the six step laws. -/
theorem test_met_step_laws :
    State.Laws { one with pending := [.missingFrame .a false] } ∧
      ∃ t, step { one with pending := [.missingFrame .a false] } = .next t :=
  ⟨{ memory := (by decide : Memory.wf [] = true), shape := shaped_of (by decide +kernel), talk := talk_of (by decide +kernel),
     attach := attach_of (by decide +kernel), queues := ⟨by decide, by decide, forall_desk.2 (by decide)⟩, trims := one_comp,
     gains := ⟨by decide +kernel, by decide +kernel, by decide +kernel⟩, outputs := one_outputs, batches := one_batches }, ⟨_, rfl⟩⟩

theorem test_met_FullResetAndPowerLoss : storing.powered = true ∧ storing.config.store ≠ none := by decide +kernel

theorem test_met_RestartEffect : up.Accepts .panel := by
  simp only [State.Accepts, State.HasRoom]; decide

theorem test_met_StartupCompletes :
    (let s : State := { State.reset with config := { ConfigUnit.reset with loading := false }, line := { CardLine.reset with polled := true } }
     s.powered = true ∧ s.config.loading = false ∧ s.line.polled = true) ∧
    State.reset.powered = true ∧ ¬(State.reset.config.loading = false ∧ State.reset.line.polled = true) := by decide

theorem test_met_LoadEffect :
    (State.reset.powered = true ∧ State.reset.config.loading = true ∧ State.reset.Shaped ∧ State.reset.config.fresh = true) ∧
    (let s : State := { State.reset with config := { ConfigUnit.reset with fresh := false } }
     s.powered = true ∧ s.config.loading = true ∧ s.Shaped ∧ s.config.fresh = false) :=
  ⟨⟨rfl, rfl, shaped_of (by decide +kernel), rfl⟩, rfl, rfl, shaped_of (by decide +kernel), rfl⟩

theorem test_met_StoreEffect :
    up.Accepts .panel ∧ (∃ c, c ∈ [9#8] ∧ RecordType.ofCode c.toNat = none) ∧
    (storing.Accepts .panel ∧ (∀ c, c ∈ [1#8, 5#8] → RecordType.ofCode c.toNat ≠ none) ∧ storing.config.store ≠ none) ∧
    (∀ c, c ∈ List.replicate 8 3#8 → RecordType.ofCode c.toNat ≠ none) ∧ up.config.store = none := by
  simp only [State.Accepts, State.HasRoom]; decide +kernel

/-- A store with a second record to come. -/
def storingTwo : State :=
  { storing with config := { storing.config with store := some { job with rest := [{ job.current with offset := 199 }] } } }

theorem test_met_StoreRecordEffect :
    (up.powered = true ∧ up.MemoryCanonical ∧ up.config.store = none) ∧ storing.powered = true ∧ storing.MemoryCanonical ∧
    storing.config.store = some job ∧
    job.current.offset + job.current.bytes.length ≤ 65536 ∧ job.rest = [] ∧ some job.current.bytes ≠ none ∧
    (∃ j next rest, storingTwo.config.store = some j ∧ j.rest = next :: rest ∧
      j.current.offset + j.current.bytes.length ≤ 65536) :=
  ⟨⟨rfl, rfl, rfl⟩, rfl, rfl, rfl, by decide +kernel, rfl, by decide +kernel, _, _, _, rfl, rfl, by decide +kernel⟩

/-- Bodies of erased bytes, of the lengths the types have. -/
def erasedImage : PerType (List Byte) :=
  { unit := List.replicate 32 0x41#8, startChannels := List.replicate 192 0xFF#8, safeMix := List.replicate 3264 0xFF#8,
    outputPatch := List.replicate 224 0xFF#8, stageSettings := List.replicate 5 0xFF#8 }

/-- The memory that holds them. -/
def erasedMemory : List Host.Cell := writeRecords [] (layRecords erasedImage 0 (storeOrder erasedImage))

theorem erasedMemory_holds (rec : StoredRecord) (h : rec ∈ layRecords erasedImage 0 (storeOrder erasedImage)) :
    memReadBlock erasedMemory rec.offset rec.bytes.length = rec.bytes :=
  memReadBlock_writeRecords erasedImage _ [] 0 rfl (by simp [storeOrder, erasedImage, PerType.get, memorySize, -List.reduceReplicate]) rec h

theorem test_met_StoredConfigurationLoadsBack :
    (erasedImage.startChannels.length = 192 ∧ erasedImage.safeMix.length = 3264 ∧ erasedImage.outputPatch.length = 224 ∧
      erasedImage.stageSettings.length = 5 ∧ erasedImage.unit.length ≤ 32 ∧
      ∀ rec, rec ∈ layRecords erasedImage 0 (storeOrder erasedImage) →
        memReadBlock erasedMemory rec.offset rec.bytes.length = rec.bytes) ∧
    (up.Shaped ∧ (∀ i, i < 64 → 0 ≤ (up.channel i).desired.gain ∧ (up.channel i).desired.gain ≤ 60) ∧
      ∀ m, m < 24 → -180 ≤ (up.mix m).ceiling ∧ (up.mix m).ceiling ≤ 0 ∧ (up.mix m).master.target = none ∧
        ∀ j, j < 66 → ((up.mix m).xp j).target = none) ∧
    (let s := up.modOutput 31 fun o => { o with primary := 416, fallback := some 301 }
     s.Shaped ∧ sourceOf (s.output 31).primary ≠ none ∧ (s.output 31).fallback = some 301 ∧ sourceOf 301 ≠ none ∧
      pairRefused (s.output 31).primary ((s.output 31).fallback.getD 0) = false ∧ (s.output 31).level.target = none) ∧
    (up.panelClass ≤ 3 ∧ up.talkLimit ≤ 255 ∧ up.graceTime = 50 * 60 ∧ up.revertTime = 100 * 20) :=
  ⟨⟨List.length_replicate, List.length_replicate, List.length_replicate, List.length_replicate, Nat.le_of_eq List.length_replicate,
    erasedMemory_holds⟩, ⟨up_shaped, by decide +kernel, by decide +kernel⟩, ⟨shaped_of (by decide +kernel), by decide +kernel⟩, by decide⟩

/-- A whole record, one cut short by the end of the memory and one with a bad check, of type STAGE_SETTINGS at offset 0. -/
def oneRecord (length_ check : Byte) : List Host.Cell :=
  memWriteBlock [] 0 ([5, 1, 0, length_, 0, check] ++ [3, 60, 60, 0, 20] ++ [BitVec.ofInt 8 (-143)])

theorem test_met_the_walk_of_a_chain :
    (let m := oneRecord 5 (BitVec.ofInt 8 (-11))
     memRead m 0 + memRead m 1 + memRead m 2 + memRead m 3 + memRead m 4 + memRead m 5 = 0 ∧
      RecordType.ofCode (memRead m 0).toNat = some .stageSettings ∧ memRead m 1 = 1 ∧
      lengthOk .stageSettings 5 = true ∧ sumBytes (memReadBlock m 6 5) + memRead m 11 = 0) ∧
    (let m := oneRecord 4 (BitVec.ofInt 8 (-10))
     memRead m 0 + memRead m 1 + memRead m 2 + memRead m 3 + memRead m 4 + memRead m 5 = 0 ∧ lengthOk .stageSettings 4 = false) ∧
    (let m := oneRecord 5 0
     memRead m 0 + memRead m 1 + memRead m 2 + memRead m 3 + memRead m 4 + memRead m 5 ≠ 0) ∧
    RecordType.ofCode (6 : Byte).toNat = none := by decide +kernel

/-! ### Link ports -/

/-- Port B with a measurement due. -/
def due (state : PortState) : State := up.modPort .b fun _ => { lockedPort 5 with state := state, lightFrames := 48 }

theorem test_met_LightMeasurementEffect :
    ((0 : Int) ≤ 0 ∧ (-36000 : Int) < 0 ∧ 72 ≤ 72 ∧ 500 * ((72 : Nat) : Int) ≤ -(-36000) ∧ -(-36000 : Int) < 500 * ((72 : Nat) + 1) ∧
      (-36000 : Int) ≤ -36000 ∧ (-36001 : Int) < -36000 ∧ (-1 : Int) < 0 ∧ 500 * ((0 : Nat) : Int) ≤ -(-1) ∧ -(-1 : Int) < 500 * ((0 : Nat) + 1)) ∧
    (up.powered = true ∧ (up.port .a).lightFrames < 48) ∧
    ((due .dark).powered = true ∧ 48 ≤ ((due .dark).port .b).lightFrames ∧ ((due .dark).port .b).state = .dark ∧
      (LightReading.power (-36000)).code ≠ 254 ∧ LightReading.checkFailed.code ≠ 254) ∧
    (((due .seeking).port .b).state = .seeking ∧ (LightReading.power (-36001)).code = 254) ∧
    (((due .locked).port .b).usable = true ∧ ((due .errored).port .b).usable = true) ∧ ((due .seeking).port .b).state ≠ .dark := by
  decide

/-- Port A in SEEKING with a lock run. -/
def seeking (run : Nat) : State := up.modPort .a fun _ => { nearlyLocked with lockRun := run }

theorem test_met_SeekingAndLock :
    (up.powered = true ∧ (up.port .a).state = .dark) ∧ (seeking 30).powered = true ∧ ((seeking 30).port .a).state = .seeking ∧
    (0 < ((seeking 30).port .a).lockRun ∧ ((seeking 30).port .a).lockRun < 31 ∧
      next5.number = ((seeking 30).port .a).seekNumber + 1 ∧ next5.ident = ((seeking 30).port .a).seekIdent) ∧
    (¬0 < ((seeking 0).port .a).lockRun ∧ (quietFrame 102 5).number ≠ ((seeking 30).port .a).seekNumber + 1) ∧
    31 ≤ ((seeking 31).port .a).lockRun ∧ next5.number = ((seeking 31).port .a).seekNumber + 1 ∧
    next5.ident = ((seeking 31).port .a).seekIdent := by decide

/-- Port A of `one` with a window position and runs. -/
def running (position run : Nat) : State :=
  one.modPort .a fun r => { r with windowPos := position, missingRun := run, mismatchRun := run }

theorem test_met_LockedPeriods :
    (running 4799 2).powered = true ∧ ((running 4799 2).port .a).usable = true ∧ ((running 4799 2).port .a).windowPos < 4800 ∧
    ((running 4799 2).port .a).identSeen = some next5.ident ∧ State.QuietLinks .a (running 4799 2) ∧ nth next5.lane 0 0 = 0x00#8 ∧
    ((running 4799 2).port .a).missingRun < 3 ∧ ((running 4799 2).port .a).identSeen ≠ some (quietFrame 100 6).ident ∧
    ((running 4799 2).port .a).mismatchRun < 3 := by
  simp only [State.QuietLinks, State.NoneReturned, forall_port, forall_desk]; decide

/-- Slot 1 of `one` in a concealment state. -/
def concealing (c : Conceal) (step : Nat) : State := one.modSlot .d1 fun r => { r with conceal := c, step := step }

theorem concealing_attach (c : Conceal) (n : Nat) : (concealing c n).AttachLawful := attach_of (by cases c <;> rfl)

theorem test_met_ActivePathDelivery :
    (∀ c n, (concealing c n).AttachLawful ∧ (concealing c n).powered = true ∧ ((concealing c n).port .a).usable = true ∧
      ((concealing c n).port .a).windowPos < 4800 ∧ (concealing c n).NoneReturned ∧
      ((concealing c n).port .a).identSeen = some next5.ident ∧ State.RunsOn .d1 .a (concealing c n) ∧
      ((concealing c n).port .a).bufLast = none ∧ ((concealing c n).slot .d1).conceal = c ∧ ((concealing c n).slot .d1).step = n) ∧
    (let s : State := one.modPort .a fun r => { r with bufLast := some 98 }
     s.AttachLawful ∧ s.NoneReturned ∧ State.RunsOn .d1 .a s ∧ (s.port .a).bufLast = some 98 ∧ (s.port .a).skip = false ∧
      (s.slot .d1).conceal = .none ∧ next5.number = (s.port .a).expected ∧ (s.port .a).identSeen = some next5.ident) ∧
    (two.AttachLawful ∧ two.NoneReturned ∧ (two.port .b).usable = true ∧ (two.port .b).identSeen = some next5.ident ∧
      .b ∈ (two.slot .d1).bound ∧ (two.slot .d1).active ≠ some .b) ∧
    settleMessage (assemble (one.lane .d1).receiver (some next5.lane)) = (none, none) ∧
    (let s := one.modSlot .d1 fun r => { r with produced := true, conceal := .fadingOut, step := 0 }
     s.AttachLawful ∧ s.NoneReturned ∧ (s.slot .d1).state = .active ∧ (s.slot .d1).active = some .a ∧ (s.port .a).bufLast = none ∧
      (s.port .a).frameSeen = false ∧ (s.slot .d1).taken = false ∧ (s.slot .d1).produced = true ∧
      (s.slot .d1).conceal = .fadingOut ∧ (s.slot .d1).step < 64) ∧
    (let s := one.modSlot .d1 fun r => { r with produced := true, taken := true }
     s.AttachLawful ∧ s.NoneReturned ∧ (s.slot .d1).active = some .a ∧ (s.port .a).bufLast = none ∧
      (s.port .a).frameSeen = false ∧ (s.slot .d1).taken = true) := by
  refine ⟨fun c n => ⟨concealing_attach c n, rfl, rfl, by show 0 < 4800; decide, fun p => by cases p <;> rfl, rfl, ⟨rfl, rfl, rfl, rfl⟩,
    rfl, rfl, rfl⟩, ⟨attach_of (by decide +kernel), ?_⟩, ⟨two_attach, ?_⟩, by decide, ⟨attach_of (by decide +kernel), ?_⟩,
    attach_of (by decide +kernel), ?_⟩
  · simp only [State.NoneReturned, State.RunsOn, forall_port]; decide
  all_goals simp only [State.NoneReturned, forall_port]; decide

theorem test_met_PortLossEffect :
    ((running 4799 3).powered = true ∧ ((running 4799 3).port .a).usable = true ∧ ((running 4799 3).port .a).windowPos < 4800 ∧
      3 ≤ ((running 4799 3).port .a).missingRun ∧ ((running 4799 3).port .a).identSeen ≠ some (quietFrame 100 6).ident ∧
      3 ≤ ((running 4799 3).port .a).mismatchRun) ∧
    ((due .errored).powered = true ∧ ((due .errored).port .b).usable = true ∧ ((due .errored).port .b).windowPos < 4800 ∧
      48 ≤ ((due .errored).port .b).lightFrames) := by decide

/-- Console 5 on ports A and B of slot 1, and on port C, surplus; port A is about to be lost. -/
def three : State :=
  (two.modPort .a fun r => { r with missingRun := 3 }).modPort .c fun _ => lockedPort 5

theorem test_met_a_surplus_port_is_bound :
    let s := three
    s.powered = true ∧ s.AttachLawful ∧ s.NoneReturned ∧ (s.port .a).usable = true ∧ (s.port .a).windowPos < 4800 ∧
    3 ≤ (s.port .a).missingRun ∧ .a ∈ (s.slot .d1).bound ∧ (∀ e, .c ∉ (s.slot e).bound) ∧ (s.port .c).usable = true ∧
    (s.port .c).identSeen = (s.slot .d1).ident ∧ (∀ x : LinkPort, x.code < 2 → ∃ e, x ∈ (s.slot e).bound) ∧
    (s.slot .d1).active = some .a ∧ .b ∈ (s.slot .d1).bound := by
  refine ⟨rfl, attach_of (by decide +kernel), fun p => by cases p <;> rfl, rfl, by decide, by decide, by decide, fun e => by cases e <;> decide, rfl, rfl,
    fun x h => ?_, rfl, by decide⟩
  cases x
  · exact ⟨.d1, by decide⟩
  · exact ⟨.d1, by decide⟩
  · exact absurd h (by decide)
  · exact absurd h (by decide)

/-- `two` with ports A and B in states, and a window of one of them to be acted on. -/
def windowed (p : LinkPort) (sa sb : PortState) (count : Nat) : State :=
  ((two.modPort .a fun r => { r with state := sa }).modPort .b fun r => { r with state := sb }).modPort p fun r =>
    { r with windowPos := 4800, windowCount := count }

theorem test_met_ErrorWindowEffect :
    ((running 4799 0).powered = true ∧ ¬(((running 4799 0).port .a).usable = true ∧ 4800 ≤ ((running 4799 0).port .a).windowPos)) ∧
    (((running 4800 0).port .a).usable = true ∧ 4800 ≤ ((running 4800 0).port .a).windowPos) ∧
    (let s := windowed .a .locked .locked 8
     s.AttachLawful ∧ s.NoneReturned ∧ (s.slot .d1).state = .active ∧ (s.slot .d1).conceal = .none ∧ (s.slot .d1).active = some .a ∧
      .a ∈ (s.slot .d1).bound ∧ .b ∈ (s.slot .d1).bound ∧ (s.port .a).state = .locked ∧ 8 ≤ (s.port .a).windowCount ∧
      4800 ≤ (s.port .a).windowPos ∧ (s.port .b).state = .locked) ∧
    (let s := windowed .b .errored .errored 1
     s.AttachLawful ∧ s.NoneReturned ∧ (s.slot .d1).active = some .a ∧ (s.port .b).state = .errored ∧ (s.port .b).windowCount ≤ 1 ∧
      4800 ≤ (s.port .b).windowPos ∧ (s.port .a).state = .errored) ∧
    (let s := windowed .a .locked .errored 8
     s.AttachLawful ∧ s.NoneReturned ∧ 4800 ≤ (s.port .a).windowPos ∧ ∀ d x, (s.slot d).active = some x → x = .a ∧
      (s.port .b).state ≠ .locked ∧ (s.port .a).state ≠ .errored) := by
  refine ⟨by decide, by decide, ⟨attach_of (by decide +kernel), fun p => by cases p <;> rfl, by decide⟩,
    ⟨attach_of (by decide +kernel), fun p => by cases p <;> rfl, by decide⟩, attach_of (by decide +kernel), fun p => by cases p <;> rfl,
    by decide, fun d x h => ?_⟩
  cases d <;> cases h
  decide

/-- `one` with a frame of a hitless switch still to be taken. -/
def returned : State := one.modPort .a fun r => { r with captured := some (quietFrame 99 5), bufLast := some 99 }

theorem test_met_ReturnedFrameIsTaken :
    one.NoneReturned ∧ returned.AttachLawful ∧ State.RunsOn .d1 .a returned ∧ (returned.slot .d1).conceal = .none ∧
    (returned.port .a).captured = some (quietFrame 99 5) ∧
    (returned.powered = true ∧ (returned.port .a).usable = true ∧ (returned.port .a).windowPos < 4800 ∧
      (returned.port .a).identSeen = some next5.ident ∧ (returned.port .a).expected = next5.number ∧
      (returned.port .a).frameSeen = false ∧ (returned.port .a).bufLast = some 99) := by
  refine ⟨?_, attach_of (by decide +kernel), ?_⟩ <;> simp only [State.NoneReturned, State.RunsOn, forall_port] <;> decide

theorem test_met_StageFramesRoundTrip : next5.ok = true ∧ (quietFrame 0xFFFF#16 0xFFFFFFFFFFFF#48).ok = true := by decide
theorem test_met_MessagesRoundTrip :
    ((List.replicate 1023 0xA5#8).length ≤ 1023 ∧ 1028 < 6 + (List.replicate 1023 0xA5#8).length) ∧
    ((List.replicate 7 0xA5#8).length = 7 ∧ 1023 < 256 * (4 : Byte).toNat + (0 : Byte).toNat) ∧
    (let c : List Byte := [0x10, 1, 0, 0, 0, 0]
     4 ≤ c.length ∧ 6 + 0 ≤ c.length ∧ messageCheck (c.take 4) ≠ nth c 4 0 ++ nth c 5 0) ∧
    (let l := { Lane.reset with tx := { Lane.reset.tx with
       sending := some { cls := .answer, rest := List.replicate 7 0, first := true } } }
     l.tx.sending = some { cls := .answer, rest := List.replicate 7 0, first := true }) ∧
    (Lane.reset.tx.sending = none ∧ ∀ c, Lane.reset.waiting c = none) ∧
    (let l := { Lane.reset with tx := { Lane.reset.tx with pendingDigest := some [1] } }
     l.tx.sending = none ∧ l.waiting .digest = some (messageContent 0x81#8 0#8 [1]) ∧ l.tx.next.following.following = .digest ∧
      l.waiting l.tx.next = none ∧ l.waiting l.tx.next.following = none) := by
  refine ⟨by decide +kernel, by decide, by decide +kernel, rfl, ⟨rfl, fun c => by cases c <;> rfl⟩, rfl, rfl, rfl, rfl, rfl⟩

/-! ### Attachments -/

/-- Consoles 6, 7 and 8 in the three slots on ports B, C and D. -/
def full : State :=
  let s := (((up.modPort .b fun _ => lockedPort 6).modPort .c fun _ => lockedPort 7).modPort .d fun _ => lockedPort 8)
  ((s.modSlot .d1 fun _ => activeSlot 6 [.b]).modSlot .d2 fun _ => activeSlot 7 [.c]).modSlot .d3 fun _ => activeSlot 8 [.d]

/-- A state with port A one frame short of lock on console 5. -/
def almost (s : State) : State := s.modPort .a fun _ => nearlyLocked

theorem test_met_LockEventEffect :
    (let s := almost up
     s.powered = true ∧ s.AttachLawful ∧ s.NoneReturned ∧ (s.port .a).state = .seeking ∧ 31 ≤ (s.port .a).lockRun ∧
      next5.number = (s.port .a).seekNumber + 1 ∧ next5.ident = (s.port .a).seekIdent ∧ (∀ d, .a ∉ (s.slot d).bound) ∧
      (∀ e, (s.slot e).state ≠ .vacant → (s.slot e).ident ≠ some next5.ident) ∧ s.firstVacant = some .d1 ∧
      (s.lane .d1).receiver = none) ∧
    (let s := almost full
     s.powered = true ∧ s.AttachLawful ∧ s.NoneReturned ∧ (∀ d, .a ∉ (s.slot d).bound) ∧
      (∀ e, (s.slot e).state ≠ .vacant ∧ (s.slot e).ident ≠ some next5.ident) ∧ .a ∉ s.waitList) ∧
    (let s := almost ((up.modPort .b fun _ => lockedPort 5).modSlot .d1 fun _ => activeSlot 5 [.b])
     s.powered = true ∧ s.AttachLawful ∧ s.NoneReturned ∧ (∀ d, .a ∉ (s.slot d).bound) ∧ (s.slot .d1).state = .active ∧
      (s.slot .d1).ident = some next5.ident ∧ (s.slot .d1).bound.length = 1) ∧
    (let s := almost hushed
     s.powered = true ∧ s.AttachLawful ∧ s.NoneReturned ∧ (s.slot .d1).state = .silent ∧ (s.slot .d1).ident = some next5.ident ∧
      (s.lane .d1).receiver = none ∧ .a ∈ (s.slot .d1).bound ∧ (s.slot .d1).conceal = .silentGap) ∧
    (let s := almost (hushed.modSlot .d1 fun r => { r with bound := [.b] })
     s.AttachLawful ∧ (s.slot .d1).state = .silent ∧ (∀ e, .a ∉ (s.slot e).bound) ∧ (s.slot .d1).bound.length < 2) := by
  refine ⟨⟨rfl, attach_of (by decide +kernel), ?_⟩, ⟨rfl, attach_of (by decide +kernel), ?_⟩, ⟨rfl, attach_of (by decide +kernel), ?_⟩,
    ⟨rfl, attach_of (by decide +kernel), ?_⟩, attach_of (by decide +kernel), ?_⟩ <;>
  · simp only [State.NoneReturned, forall_port, forall_desk]; decide +kernel

/-- Console 6 on ports A and B of slot 1, port A being one frame short of lock on console 5. -/
def moved : State := almost ((up.modPort .b fun _ => lockedPort 6).modSlot .d1 fun _ => { activeSlot 6 [.a, .b] with active := some .b })

/-- Console 5 on ports B and C of slot 1, port B in a state; port A is one frame short of lock on it. -/
def contested (b : PortState) : State :=
  almost (((up.modPort .b fun _ => { lockedPort 5 with state := b }).modPort .c fun _ => lockedPort 5).modSlot .d1 fun _ =>
    { activeSlot 5 [.b, .c] with active := some .c })

theorem test_met_a_bound_console_locks :
    (moved.powered = true ∧ moved.AttachLawful ∧ moved.NoneReturned ∧ (moved.port .a).state = .seeking ∧
      31 ≤ (moved.port .a).lockRun ∧ .a ∈ (moved.slot .d1).bound ∧ (moved.slot .d1).ident ≠ some next5.ident ∧
      (∀ k, (moved.slot k).state ≠ .vacant → (moved.slot k).ident ≠ some next5.ident) ∧ moved.firstVacant = some .d2) ∧
    (let s := moved.modSlot .d2 fun _ => { activeSlot 5 [] with state := .silent, active := none, grace := some { count := 0, limit := 48 } }
     s.AttachLawful ∧ .a ∈ (s.slot .d1).bound ∧ (s.slot .d2).state ≠ .vacant ∧ (s.slot .d2).ident = some next5.ident ∧
      (s.slot .d2).bound.length ≤ 1 ∧ (s.slot .d2).state = .silent) ∧
    (let s := ((moved.modPort .c fun _ => lockedPort 7).modSlot .d2 fun _ => activeSlot 7 [.c]).modSlot .d3 fun _ =>
       { activeSlot 8 [] with state := .silent, active := none, grace := some { count := 0, limit := 48 } }
     s.AttachLawful ∧ .a ∈ (s.slot .d1).bound ∧ ∀ k, (s.slot k).state ≠ .vacant ∧ (s.slot k).ident ≠ some next5.ident) ∧
    (∀ b, (contested b).AttachLawful ∧ (∀ e, .a ∉ ((contested b).slot e).bound) ∧ ((contested b).slot .d1).state ≠ .vacant ∧
      ((contested b).slot .d1).ident = some next5.ident ∧ ((contested b).slot .d1).bound.length = 2) ∧
    ((∀ r, r ∈ ((contested .seeking).slot .d1).bound → r ≠ .b → ((contested .seeking).port r).usable = true) ∧
      ((contested .seeking).port .b).usable = false) ∧
    ∀ q, q ∈ ((contested .errored).slot .d1).bound → ((contested .errored).port q).usable = true := by
  refine ⟨⟨rfl, attach_of (by decide +kernel), ?_⟩, ⟨attach_of (by decide +kernel), ?_⟩, ⟨attach_of (by decide +kernel), ?_⟩,
    fun b => ⟨attach_of (by cases b <;> decide +kernel), ?_⟩, ?_, ?_⟩
  case refine_4 => exact ⟨fun e => by cases b <;> cases e <;> decide, by cases b <;> decide, rfl, rfl⟩
  all_goals simp only [State.NoneReturned, forall_port, forall_desk]; decide +kernel

/-- Console 5 runs on port B of slot 1, port B in a state, and port A, bound or not, is one frame short of lock on it. -/
def limping (b : PortState) (bound : List LinkPort) : State :=
  almost ((up.modPort .b fun _ => { lockedPort 5 with state := b }).modSlot .d1 fun _ =>
    { activeSlot 5 bound with active := some .b })

theorem test_met_a_lock_event_switches :
    (∀ b, (limping b [.b, .a]).powered = true ∧ ((limping b [.b, .a]).port .a).state = .seeking ∧ .a ∈ ((limping b [.b, .a]).slot .d1).bound) ∧
    (limping .errored [.b, .a]).AttachLawful ∧ (limping .errored [.b, .a]).NoneReturned ∧
    (limping .locked [.b, .a]).AttachLawful ∧ (limping .locked [.b, .a]).NoneReturned ∧
    (let s := limping .errored [.b]
     s.AttachLawful ∧ s.NoneReturned ∧ (∀ e, .a ∉ (s.slot e).bound) ∧ (s.slot .d1).bound.length = 1 ∧
      (s.slot .d1).state = .active ∧ (s.slot .d1).ident = some next5.ident ∧ (s.slot .d1).active = some .b ∧
      (s.port .b).state = .errored ∧ (s.slot .d1).conceal = .none ∧ 31 ≤ (s.port .a).lockRun ∧
      next5.number = (s.port .a).seekNumber + 1 ∧ next5.ident = (s.port .a).seekIdent) ∧
    ∃ x, x ∈ ((contested .seeking).slot .d1).bound ∧ ((contested .seeking).port x).usable = false := by
  refine ⟨fun b => ⟨rfl, rfl, by cases b <;> decide⟩, attach_of (by decide +kernel), fun p => by cases p <;> rfl,
    attach_of (by decide +kernel), fun p => by cases p <;> rfl, ⟨attach_of (by decide +kernel), fun p => by cases p <;> rfl,
    fun e => by cases e <;> decide, ?_⟩, .b, by decide⟩
  decide

/-- Port B, the standby, is about to be lost while the active path A is ERRORED and port C surplus. -/
def limpingThree : State :=
  (three.modPort .a fun r => { r with state := .errored, missingRun := 0 }).modPort .b fun r => { r with missingRun := 3 }

theorem test_met_a_surplus_port_is_switched_to :
    let s := limpingThree
    s.powered = true ∧ s.AttachLawful ∧ s.NoneReturned ∧ (s.port .b).usable = true ∧ (s.port .b).windowPos < 4800 ∧
    3 ≤ (s.port .b).missingRun ∧ .b ∈ (s.slot .d1).bound ∧ (s.port .c).state = .locked ∧ (s.slot .d1).active = some .a ∧
    (s.port .a).state = .errored ∧ (s.slot .d1).conceal = .none := by
  exact ⟨rfl, attach_of (by decide +kernel), fun p => by cases p <;> rfl, by decide⟩

/-- An uncompleted answer of an apply. -/
def applying : Answer := { tag := 9, kind := 0x29#8, result := .done, data := .none, complete := false }

theorem test_met_a_sealed_batch_goes :
    let s := ((running 4799 3).modLane .d1 fun l => { l with answers := [applying] }).setBatch (.desk .d1)
      { state := .sealed, staged := [{ index := 1024, value := 0, domain := some 8 }], dropped := 65535 }
    s.AttachLawful ∧ s.TalkLawful ∧ s.NoneReturned ∧ 3 ≤ (s.port .a).missingRun ∧ (s.slot .d1).active = some .a ∧
    (s.batch (.desk .d1)).state = .sealed ∧ (s.lane .d1).answers = [] ++ applying :: [] ∧ applying.complete = false := by
  exact ⟨attach_of (by decide +kernel), talk_of (by decide +kernel), fun p => by cases p <;> rfl, by decide⟩

theorem test_met_SilentEffect :
    let s := running 4799 3
    s.powered = true ∧ s.AttachLawful ∧ s.TalkLawful ∧ s.NoneReturned ∧ (s.port .a).usable = true ∧ (s.port .a).windowPos < 4800 ∧
    3 ≤ (s.port .a).missingRun ∧ (s.slot .d1).state = .active ∧ (s.slot .d1).active = some .a ∧
    ∀ q, q ∈ (s.slot .d1).bound → q ≠ .a → (s.port q).usable = false := by
  refine ⟨rfl, attach_of (by decide +kernel), talk_of (by decide +kernel), ?_⟩
  simp only [State.NoneReturned, forall_port]; decide +kernel

/-- Console 5 on ports A and B; port A is about to be lost, and port B holds frame 100. -/
def twoPaths (taken : Option Word) : State :=
  ((two.modPort .a fun r => { r with missingRun := 3 }).modPort .b fun r => { r with buffer := [quietFrame 100 5] }).modSlot .d1
    fun r => { r with lastTaken := taken }

theorem test_met_SwitchoverEffect :
    (let s := twoPaths (some 99)
     s.powered = true ∧ s.AttachLawful ∧ s.NoneReturned ∧ (s.port .a).usable = true ∧ (s.port .a).windowPos < 4800 ∧
      3 ≤ (s.port .a).missingRun ∧ (s.slot .d1).state = .active ∧ (s.slot .d1).active = some .a ∧ (s.slot .d1).produced = false ∧
      (s.slot .d1).taken = false ∧ .b ∈ (s.slot .d1).bound ∧ (s.port .b).usable = true ∧
      (∀ g, g ∈ (s.port .b).buffer → nth g.lane 0 0 = 0x00#8) ∧ (s.slot .d1).conceal = .none ∧ (s.slot .d1).lastTaken = some 99 ∧
      (s.port .b).query (99 + 1) = some (quietFrame 100 5)) ∧
    (let s := twoPaths (some 100)
     s.AttachLawful ∧ ∀ n, (s.slot .d1).lastTaken = some n → (s.port .b).query (n + 1) = none) ∧
    (let s := (twoPaths (some 99)).modSlot .d1 fun r => { r with taken := true, produced := true }
     s.AttachLawful ∧ (s.slot .d1).taken = true ∧ (s.port .a).frameSeen = false) ∧
    (let s := (twoPaths (some 99)).modSlot .d1 fun r => { r with conceal := .fadingIn, step := 64 }
     s.AttachLawful ∧ (s.slot .d1).conceal = .fadingIn ∧ 64 ≤ (s.slot .d1).step) := by
  refine ⟨⟨rfl, attach_of (by decide +kernel), ?_⟩, ⟨attach_of (by decide +kernel), ?_⟩, ⟨attach_of (by decide +kernel), by decide +kernel⟩,
    attach_of (by decide +kernel), by decide +kernel⟩
  · simp only [State.NoneReturned, forall_port]; decide +kernel
  · intro n h; cases h; decide +kernel

theorem test_met_FadeEnds :
    (let s := concealing .fadingOut 64
     s.powered = true ∧ (s.slot .d1).conceal = .fadingOut ∧ (s.slot .d1).step = 64) ∧
    ¬(((concealing .fadingOut 63).slot .d1).conceal = .fadingOut ∧ 64 ≤ ((concealing .fadingOut 63).slot .d1).step) ∧
    (let s := concealing .fadingIn 64
     s.powered = true ∧ (s.slot .d1).conceal = .fadingIn ∧ (s.slot .d1).step = 64 ∧ s.NoneReturned ∧
      ¬∃ p q, (s.slot .d1).state = .active ∧ (s.slot .d1).active = some p ∧ q ∈ (s.slot .d1).bound ∧ q ≠ p ∧
        (s.port p).state = .errored ∧ (s.port q).state = .locked) ∧
    (let s := (two.modPort .a fun r => { r with state := .errored }).modSlot .d1 fun r => { r with conceal := .fadingIn, step := 64 }
     s.powered = true ∧ s.AttachLawful ∧ (s.slot .d1).conceal = .fadingIn ∧ (s.slot .d1).step = 64 ∧ (s.slot .d1).state = .active ∧
      (s.slot .d1).active = some .a ∧ .b ∈ (s.slot .d1).bound ∧ (s.port .a).state = .errored ∧ (s.port .b).state = .locked) := by
  refine ⟨by decide, by decide, ⟨rfl, rfl, rfl, fun p => by cases p <;> rfl, ?_⟩, ⟨rfl, attach_of (by decide +kernel), by decide⟩⟩
  rintro ⟨p, q, _, hp, hq, _, he, _⟩
  cases hp
  cases he

/-- Slot 1 silent and its time over, slots 2 and 3 held by consoles 7 and 8, console 9 waiting on port B. -/
def queueing : State :=
  let s := ((hushed.modPort .b fun _ => lockedPort 9).modPort .c fun _ => lockedPort 7).modPort .d fun _ => lockedPort 8
  let u := (s.modSlot .d2 fun _ => activeSlot 7 [.c]).modSlot .d3 fun _ => activeSlot 8 [.d]
  { u with waitList := [.b] }

theorem test_met_GraceExpiryEffect :
    (hushed.powered = true ∧ (hushed.slot .d1).grace = some { count := 48, limit := 48 } ∧ (hushed.slot .d1).state = .silent ∧
      hushed.waitList = []) ∧
    (queueing.powered = true ∧ (queueing.slot .d1).grace = some { count := 48, limit := 48 } ∧ (queueing.slot .d1).state = .silent ∧
      queueing.AttachLawful ∧ queueing.waitList = [.b] ∧ (queueing.port .b).identSeen = some 9 ∧
      (queueing.port .b).roleSeen = some .front) ∧
    (one.slot .d1).state ≠ .silent ∧
    (let s := hushed.modSlot .d1 fun r => { r with grace := some { count := 47, limit := 48 } }
     ∀ g, (s.slot .d1).grace = some g → g.count < g.limit) := by
  refine ⟨by decide, ⟨rfl, rfl, rfl, attach_of (by decide +kernel), rfl, rfl, rfl⟩, by decide, ?_⟩
  intro s g h
  cases h
  decide

/-- `two` with port B in a state and slot 1 in a concealment state. -/
def prefer (st : PortState) (c : Conceal) : State :=
  (two.modPort .b fun r => { r with state := st }).modSlot .d1 fun r => { r with conceal := c }

theorem test_met_PathPreferAnswers :
    (∀ sl, sl = .panel ∨ sl = .desk .d1 → two.Accepts sl) ∧ two.NoneReturned ∧ two.AttachLawful ∧
    LinkPort.ofCode (4#8 : Byte).toNat = none ∧ (∀ d, .c ∉ (two.slot d).bound) ∧
    (.a ∈ (two.slot .d1).bound ∧ (two.slot .d1).active = some .a) ∧
    (let s := prefer .errored .none
     s.Accepts .panel ∧ s.NoneReturned ∧ s.AttachLawful ∧ .b ∈ (s.slot .d1).bound ∧ (s.slot .d1).active ≠ some .b ∧
      (s.port .b).state ≠ .locked) ∧
    (let s := prefer .locked .fadingIn
     s.Accepts .panel ∧ s.NoneReturned ∧ s.AttachLawful ∧ (s.slot .d1).active ≠ some .b ∧ (s.port .b).state = .locked ∧
      (s.slot .d1).conceal ≠ .none) ∧
    (let s := prefer .locked .none
     s.Accepts (.desk .d1) ∧ s.NoneReturned ∧ s.AttachLawful ∧ (s.slot .d1).active ≠ some .b ∧ (s.port .b).state = .locked ∧
      (s.slot .d1).conceal = .none) := by
  refine ⟨?_, ?_, two_attach, ?_, ?_, ?_, ⟨?_, ?_, attach_of (by decide +kernel), ?_⟩, ⟨?_, ?_, attach_of (by decide +kernel), ?_⟩,
    ⟨?_, ?_, attach_of (by decide +kernel), ?_⟩⟩
  · rintro sl (rfl | rfl) <;> simp only [State.Accepts, State.HasRoom] <;> decide
  all_goals first | decide | (simp only [State.Accepts, State.HasRoom, State.NoneReturned, forall_port, forall_desk]; decide)

/-! ### Front end -/

/-- Channel 6 (input 5 from 0) of a PRESENT card in flight with a new setting, and its four cells ON with reference `eref`. -/
def flying (owed : Bool) (link : Link) (desired : Setting) (eref : Int) : State :=
  (((up.modCard 0 fun _ => { present := true, unanswered := 0 }).modChannel 5 fun c =>
    { c with link := link, op := .inFlight, sent := some { gain := 38, pad := false, phantom := owed }, markerTimer := some 5,
             holdOwed := owed, desired := desired }).modComp 5 fun ic =>
    { ic with cells := ic.cells.map fun _ c => { c with on := true, eref := some eref } })

theorem test_met_MarkerEffect :
    (∀ owed link, (flying owed link Setting.rest 57).powered = true ∧ (flying owed link Setting.rest 57).Shaped ∧
      ((flying owed link Setting.rest 57).channel 5).op = .inFlight ∧
      ((flying owed link Setting.rest 57).channel 5).sent = some { gain := 38, pad := false, phantom := owed } ∧
      ((flying owed link Setting.rest 57).card (5 / 8)).present = true ∧ ((flying owed link Setting.rest 57).channel 5).link = link ∧
      ((flying owed link Setting.rest 57).channel 5).holdOwed = owed ∧
      ((flying owed link Setting.rest 57).inputComp 5).stageGain ≠ ({ gain := 38, pad := false, phantom := owed } : Setting).effective ∧
      ((flying owed link Setting.rest 57).cell 5 3).on = true ∧ ((flying owed link Setting.rest 57).cell 5 3).eref = some 57 ∧
      2 * (57 - 38) > (36 : Int)) ∧
    (up.powered = true ∧ up.Shaped ∧ (up.channel 63).op ≠ .inFlight ∧ (up.cell 5 0).on = false) := by
  refine ⟨fun owed link => ?_, rfl, up_shaped, by decide +kernel⟩
  cases owed <;> cases link <;> exact ⟨rfl, shaped_of (by decide +kernel), by decide +kernel⟩

/-- In a free setting slot, with a send list, a card-line queue and input 5's desired setting. -/
def slotOf (send queue : List (Fin 64)) (desired : Setting) : State :=
  { up with sendList := send, cardQueue := queue, channels := modNth up.channels 5 fun c => { c with link := .ready, desired := desired } }

/-- A louder setting, without and with phantom. -/
def louder (phantom : Bool) : Setting := { gain := 60, pad := true, phantom := phantom }

/-- A setting exchange of input 63 is under way. -/
def asking (op : Operation) : State :=
  { up with line := { up.line with slotTaken := true, exchange := .setting 63 (louder false) },
            channels := modNth up.channels 63 fun c => { c with op := op } }

theorem test_met_SettingExchanges :
    (∀ a b g, (slotOf a b g).powered = true ∧ (slotOf a b g).Shaped ∧ (slotOf a b g).line.slotTaken = false ∧
      (slotOf a b g).line.slotNumber % 10 ≠ 0 ∧ (slotOf a b g).line.exchange = .none ∧ (slotOf a b g).sendList = a ∧
      (slotOf a b g).cardQueue = b) ∧
    (((slotOf [5, 63] [] (louder true)).channel 5).gate = 0 ∧ (5 : Fin 64) ∉ [(63 : Fin 64)] ∧
      ((slotOf [5, 63] [] (louder true)).channel 5).desired ≠ ((slotOf [5, 63] [] (louder true)).channel 5).applied) ∧
    (((slotOf [] [5] (louder false)).channel 5).desired ≠ ((slotOf [] [5] (louder false)).channel 5).applied ∧
      ((slotOf [] [5] (louder false)).channel 5).desired.phantom = ((slotOf [] [5] (louder false)).channel 5).applied.phantom) ∧
    ((slotOf [] [5] (louder true)).channel 5).desired.phantom ≠ ((slotOf [] [5] (louder true)).channel 5).applied.phantom ∧
    ((slotOf [5] [] Setting.rest).channel 5).desired = ((slotOf [5] [] Setting.rest).channel 5).applied ∧
    (∀ op, (asking op).powered = true ∧ (asking op).Shaped ∧ (asking op).line.exchange = .setting 63 (louder false) ∧
      ((asking op).channel 63).op = op) ∧
    (63 = 8 * 7 + 7 ∧ 63 ≠ 8 * 7 + 6) ∧ up.line.exchange = .none := by
  refine ⟨fun a b g => ⟨rfl, ?_, rfl, by show 1 % 10 ≠ 0; decide, rfl, rfl, rfl⟩, by decide +kernel, by decide +kernel, by decide +kernel,
    by decide +kernel, fun op => ⟨rfl, ?_, rfl, ?_⟩, by decide, by decide⟩
  · exact shaped_of ⟨rfl, by simp [slotOf, up, State.reset, modNth], rfl, rfl, up_shaped.crosspoints, rfl, rfl, rfl, rfl, rfl, rfl, rfl, rfl, rfl⟩
  · cases op <;> exact shaped_of (by decide +kernel)
  · cases op <;> decide +kernel

/-- Input 63 with an operation, a link state and timers at their ends, or one frame before. -/
def timed (op : Operation) (link : Link) (owed : Bool) (before : Nat) : State :=
  up.modChannel 63 fun c => { c with
    op := op, link := link, holdOwed := owed, markerTimer := some (960 - before), holdTimer := some (12000 - before),
    retryTimer := some (48000 - before), sent := some (louder owed) }

theorem test_met_ChannelTimers :
    ((timed .inFlight .ready true 0).powered = true ∧ ((timed .inFlight .ready true 0).channel 63).op = .inFlight ∧
      ((timed .inFlight .ready true 0).channel 63).markerTimer = some 960 ∧ ((timed .inFlight .ready true 0).channel 63).holdOwed = true) ∧
    (((timed .inFlight .ready false 0).channel 63).markerTimer = some 960 ∧ ((timed .inFlight .ready false 0).channel 63).holdOwed = false) ∧
    (((timed .settling .ready false 0).channel 63).op = .settling ∧ ((timed .settling .ready false 0).channel 63).holdTimer = some 12000) ∧
    (((timed .idle .fault false 0).channel 63).link = .fault ∧ ((timed .idle .fault false 0).channel 63).retryTimer = some 48000) ∧
    (((timed .idle .fault false 1).channel 63).markerTimer = some 959 ∧ ((timed .idle .fault false 1).channel 63).holdTimer = some 11999 ∧
      ((timed .idle .fault false 1).channel 63).retryTimer = some 47999) ∧
    (timed .inFlight .ready true 0).Shaped ∧ (timed .inFlight .ready false 0).Shaped ∧ (timed .settling .ready false 0).Shaped ∧
    (timed .idle .fault false 0).Shaped ∧ (timed .idle .fault false 1).Shaped := by
  refine ⟨by decide +kernel, by decide +kernel, by decide +kernel, by decide +kernel, by decide +kernel, ?_, ?_, ?_, ?_, ?_⟩ <;>
    exact shaped_of (by decide +kernel)

/-- A poll of card 8 is under way. -/
def polling (present rest : Bool) (unanswered : Nat) : State :=
  { up with line := { up.line with slotTaken := true, slotNumber := 80, exchange := .poll 7 rest },
            cards := modNth up.cards 7 fun _ => { present := present, unanswered := unanswered } }

theorem test_met_PollEffects :
    (let s : State := { up with line := { up.line with slotNumber := 80 } }
     s.powered = true ∧ s.Shaped ∧ s.line.slotTaken = false ∧ s.line.slotNumber % 10 = 0 ∧ s.line.exchange = .none ∧
      (s.line.slotNumber / 10 + 7) % 8 = 7) ∧ up.line.slotNumber % 10 ≠ 0 ∧
    ((polling false true 3).Shaped ∧ (polling false true 3).line.exchange = .poll 7 true ∧ ((polling false true 3).channel 63).op = .idle) ∧
    ((polling true false 2).Shaped ∧ (polling true false 2).line.exchange = .poll 7 false ∧ ((polling true false 2).card 7).present = true ∧
      2 ≤ ((polling true false 2).card 7).unanswered ∧ (0x80#8 : BitVec 8).getLsbD (63 % 8) = true) ∧
    (∀ e rest, (polling true false 2).line.exchange = .poll e rest → e ≠ 0) ∧
    ¬(((polling true false 1).card 7).present = true ∧ 2 ≤ ((polling true false 1).card 7).unanswered) := by
  refine ⟨⟨rfl, shaped_of (by decide +kernel), by decide⟩, by decide, ⟨shaped_of (by decide +kernel), by decide +kernel⟩,
    ⟨shaped_of (by decide +kernel), by decide +kernel⟩, fun e rest h => ?_, by decide +kernel⟩
  cases h
  decide

/-! ### Levels, ramps and outputs -/

theorem test_met_LevelArithmetic :
    ((-180 : Int) ≤ -180 ∧ (-180 : Int) = 12 * (-15) + 0 ∧ (56 : Int) ≤ 56 ∧ (56 : Int) = 12 * 4 + 8 ∧ (8 : Int) < 12 ∧
      (-1 : Int) = 12 * (-1) + 11 ∧ (11 : Int) < 12) ∧
    ((8388607 : Int) < 8388608 ∧ (-8388609 : Int) < -8388608 ∧ (-8388608 : Int) ≤ 8388607) := by decide

theorem test_met_MeterScale :
    ((180 : Nat) ≤ 180 ∧ threshold 180 ≤ (256 : Nat) ∧ ∀ k, k < 180 → ((256 : Nat) : Int) < threshold k) ∧
    (threshold 0 ≤ (8388608 : Nat)) ∧ ∀ k, k ≤ 180 → ((255 : Nat) : Int) < threshold k := by decide +kernel

/-- Cell 0 of input 63, crosspoint and master of mix 24, output 32 and the duck of mix 24 one frame before their steps. -/
def stepping (cell : Cell) (level : Level) (duck : Int) : State :=
  ((up.modCell 63 0 fun _ _ => cell).modMix 23 fun m =>
    { m with master := level, xps := modNth m.xps 65 fun _ => level, duck := duck, release := 31 }).modOutput 31 fun o =>
    { o with level := level }

/-- A level that rises, one on its way out at −179, and one that is off. -/
def rising : Level := { on := true, target := some 20, current := -180, count := 7 }
def leaving : Level := { on := true, target := none, current := -179, count := 7 }

theorem test_met_RampStepCommands :
    (let s := stepping { Cell.reset with on := true, eref := some 0, target := -36, current := 36, count := 7 } rising 5
     s.powered = true ∧ s.Shaped ∧ (s.cell 63 0).current ≠ (s.cell 63 0).target ∧ (s.cell 63 0).count = 7 ∧
      (s.cell 63 0).undo = none ∧ (s.level (.crosspoint 65 23)).target = some 20 ∧ (s.level (.master 23)).on = true ∧
      (s.level (.output 31)).current ≠ 20 ∧ (s.level (.output 31)).count = 7 ∧ (s.level (.output 31)).undo = none ∧
      (s.mix 23).rampAll.wantedDuck (s.hasTalker .tb1) (s.hasTalker .tb2) < (s.mix 23).duck ∧ (s.mix 23).release = 31 ∧
      (s.mix 23).duckUndo = none) ∧
    (let s := stepping Cell.reset leaving 0
     s.Shaped ∧ (s.level (.output 31)).target = none ∧ (s.level (.output 31)).on = true ∧ -180 < (s.level (.output 31)).current ∧
      (s.level (.output 31)).count = 7 ∧ (s.cell 63 0).current = (s.cell 63 0).target ∧ (s.level (.master 0)).on = false ∧
      (s.mix 23).duck ≤ (s.mix 23).rampAll.wantedDuck (s.hasTalker .tb1) (s.hasTalker .tb2)) := by
  refine ⟨⟨rfl, shaped_of (by decide +kernel), by decide +kernel⟩, shaped_of (by decide +kernel), by decide +kernel⟩

/-- An output in a selection state. -/
def selecting (x : Selection) : Output := { Output.reset with selection := x }

theorem test_met_OutputSelectionEvents :
    up.powered = true ∧ ((selecting .primary).selection = .primary ∨ (selecting .primary).selection = .toPrimary) ∧
    ((selecting .fallback).selection = .toFallback ∨ (selecting .fallback).selection = .fallback) ∧
    (selecting .noneAvailable).selection = .noneAvailable ∧
    ((selecting .toPrimary).selection ≠ .toFallback ∧ (selecting .toPrimary).selection ≠ .fallback) := by decide

/-! ### Frame period and meter -/

theorem test_met_FramePeriodCounts :
    (one.powered = true ∧ one.Shaped) ∧
    (let u := one.takeDue.closeSlots
     u.boundTo .b = none ∧ u.boundTo .a = some .d1 ∧ (u.channel 63).handOver = false) := by
  refine ⟨⟨rfl, one_shaped⟩, by decide +kernel⟩

theorem test_met_FramePeriodAudio :
    one.powered = true ∧ one.Shaped ∧ (List.replicate 64 (8388607 : Sample)).length = 64 ∧ one.takeDue.closeSlots.boundTo .a = some .d1 :=
  ⟨rfl, one_shaped, rfl, by decide +kernel⟩

/-- Slot 1 with nothing due: the card line's slot has been taken. -/
def resting : State := { one with line := { one.line with slotTaken := true } }

theorem test_met_nothing_is_due : resting.powered = true ∧ resting.Shaped ∧ resting.NothingDue := by
  have channels : ∀ i, resting.channel i = Channel.reset := fun i => nth_replicate 64 i _
  have outputs : ∀ o, resting.output o = Output.reset := fun o => nth_replicate 32 o _
  refine ⟨rfl, shaped_of (by decide +kernel), ?_⟩
  exact {
    windows := fun p => by cases p <;> decide
    fades := fun d => by cases d <;> decide
    grace := fun d g _ h => by cases d <;> cases h
    markers := fun i n _ => by rw [channels i]; intro _ h; cases h
    holds := fun i n _ => by rw [channels i]; intro _ h; cases h
    retries := fun i n _ => by rw [channels i]; intro _ h; cases h
    reverts := fun o g _ => by rw [outputs o]; intro h; cases h
    crossfades := fun o _ => by rw [outputs o]; decide
    talks := fun b g h => absurd rfl (by cases b <;> exact h)
    boundary := fun h => by cases h
    digest := rfl
    cardSlot := rfl
    startup := Or.inl rfl
    returned := fun p => by cases p <;> rfl }

/-- A SILENT slot in its fade-out, an output that goes over to the tone, and a returned card whose gain is to be handed over. -/
def underWay : State :=
  ((((hushed.modSlot .d1 fun r => { r with conceal := .fadingOut, step := 62, grace := some { count := 0, limit := 96 } }).modOutput 31 fun o => { o with override := .tone, gate := 1 })
    |>.modChannel 63 fun c => { c with applied := { gain := 60, pad := false, phantom := false }, handOver := true })
    |>.modCell 63 3 fun _ _ => { Cell.reset with on := true, eref := some 0 })

theorem test_met_a_frame_under_way :
    (let v := underWay.settleReturned
     (v.slot .d1).produced = false ∧ (v.slot .d1).conceal = .fadingOut) ∧
    (let u := underWay
     (u.channel 63).handOver = true ∧ (u.inputComp 63).stageGain ≠ (u.channel 63).applied.effective ∧ (u.cell 63 3).on = true ∧
      (u.output 31).toneContent = false ∧ (u.output 31).override = .tone) := by decide +kernel


/-- The last frame of a meter period has been formed. -/
def atBoundary (s : State) : State := { s with boundary := { Boundary.closed with opened := true, digestDue := true } }

theorem test_met_MeterBoundaryEvents :
    (up.powered = true ∧ up.boundary.opened = false ∧ up.boundary.digestDue = false) ∧
    ((atBoundary one).powered = true ∧ (atBoundary one).boundary.opened = true ∧ (atBoundary one).boundary.ended = false ∧
      (atBoundary one).boundary.digestDue = true ∧ ((atBoundary one).slot .d1).state = .active ∧
      ((atBoundary one).slot .d2).state ≠ .active ∧ (atBoundary one).meter.panelOn = false ∧ (atBoundary one).Shaped) ∧
    (let s := atBoundary { up with meter := { up.meter with panelOn := true } }
     s.meter.panelOn = true ∧ (∀ m, m ∈ s.panelQueue → m.isMeter = false) ∧ s.panelReady = true) ∧
    (let s := (full.modSlot .d2 fun r => { r with conceal := .fadingIn, grace := some { count := 1, limit := 2 } }).modDomain 15
       fun x => { x with owner := some (.desk .d1) }
     let t := s.modBus .tb2 fun b => { b with
       talker := some .panel, waiting := [.desk .d1, .desk .d2], timer := some { count := 0, limit := 48000 } }
     t.Shaped ∧ (t.slot .d1).role = some .front ∧ (t.domain 15).owner = some (.desk .d1) ∧ (t.domain 0).owner ≠ some (.desk .d1) ∧
      (t.bus .tb2).waiting[1]? = some (.desk .d2) ∧ (∀ j, j < 1 → (t.bus .tb2).waiting[j]? ≠ some (.desk .d2)) ∧
      .panel ∉ (t.bus .tb2).waiting) := by
  refine ⟨by decide, ⟨rfl, rfl, rfl, rfl, rfl, by decide, rfl, shaped_of (by decide +kernel)⟩, by decide, shaped_of (by decide +kernel),
    rfl, rfl, by decide, rfl, by decide, by decide⟩

theorem test_met_reports_for_the_panel :
    (let s := atBoundary { up with meter := { up.meter with panelOn := true }, panelQueue := [.digest [], .meter [1], .meter [2]] }
     s.meter.panelOn = true ∧ s.boundary.ended = false ∧ s.panelQueue = [.digest []] ++ .meter [1] :: [.meter [2]] ∧
      (∀ x, x ∈ [PanelMsg.digest []] → x.isMeter = false) ∧ (PanelMsg.meter [1]).isMeter = true) ∧
    (let s := atBoundary { up with meter := { up.meter with panelOn := true }, panelQueue := List.replicate 32 (.digest []) }
     (∀ m, m ∈ s.panelQueue → m.isMeter = false) ∧ s.panelReady = false) ∧
    (let s := atBoundary { up with panelQueue := [.meter [1], .digest [2]] }
     s.boundary.digestDue = true ∧ s.panelQueue = [.meter [1]] ++ .digest [2] :: [] ∧
      (∀ x, x ∈ [PanelMsg.meter [1]] → x.isDigest = false) ∧ (PanelMsg.digest [2]).isDigest = true) ∧
    (let s := atBoundary up
     (∀ m, m ∈ s.panelQueue → m.isDigest = false) ∧ s.panelReady = true) := by decide +kernel

/-! ### Requests -/

/-- An answer. -/
def someAnswer : Answer := { tag := 1, kind := 0x10#8, result := .done, data := .none, complete := true }

/-- Slot 1 with `n` answers in its queue and the panel queue with `n` messages. -/
def crowded (n : Nat) : State :=
  { one.modLane .d1 (fun l => { l with answers := List.replicate n someAnswer }) with
    panelQueue := List.replicate n (.answer someAnswer) }

theorem test_met_RequestChecks :
    (Instr.claim (.desk .d2) 1 3).request = some (.desk .d2, 1, .claim 3) ∧ one.powered = true ∧ one.NoneReturned ∧
    (one.slot .d2).state = .vacant ∧
    (State.NoRoom .panel (crowded 32) ∧ State.NoRoom (.desk .d1) (crowded 32) ∧ (crowded 32).NoneReturned) ∧
    (State.HasRoom .panel (crowded 31) ∧ State.HasRoom (.desk .d1) (crowded 31) ∧ (crowded 31).started = true) ∧
    (State.HasRoom .panel State.reset ∧ State.reset.started = false ∧ State.reset.NoneReturned) ∧
    ((Instr.metersOn (.desk .d1) 1).request = some (.desk .d1, 1, .metersOn) ∧ Request.metersOn.panelOnly = true) ∧
    (Instr.store .panel 1 []).request = some (.panel, 1, .badBody 0x48#8) := by
  simp only [State.NoRoom, State.HasRoom, State.NoneReturned, forall_port]; decide +kernel

theorem test_met_ReadsAnswer :
    up.Accepts .panel ∧ one.Accepts (.desk .d1) ∧ ((65 : Nat) < 66 ∧ (23 : Nat) < 24 ∧ (1024 + 24 * 65 + 23 : Nat) = 2607) ∧
    (64 < (65#8 : Byte).toNat) ∧ (1 ≤ (14#8 : Byte).toNat ∧ (14#8 : Byte).toNat ≤ 64 ∧ (2 : Nat) < (14#8 : Byte).toNat ∧
      paramOf ((2830#16 : Word).toNat + 2) = none) ∧
    (192 ≤ (192#16 : Word).toNat ∧ (192#16 : Word).toNat + (64#8 : Byte).toNat ≤ 256) ∧
    ((0#16 : Word).toNat + (64#8 : Byte).toNat ≤ 64) ∧ ((1#8 : Byte).toNat ≤ 1 ∧ paramOf (65535#16 : Word).toNat = none) ∧
    (320 ≤ (703#16 : Word).toNat ∧ (703#16 : Word).toNat < 704) ∧ 1 < (2#8 : Byte).toNat := by
  simp only [State.Accepts, State.HasRoom]; decide +kernel

/-- The hypotheses that the SETs share: the panel and slot 1 may write the domains of a part where nothing is owned. -/
theorem test_met_writes (dom : Nat) (h : dom < 16) :
    (up.Accepts .panel ∧ up.Unstaged .panel ∧ up.Shaped ∧ up.MayWrite .panel dom ∧ up.TalkLawful) ∧
    (one.Accepts (.desk .d1) ∧ one.Unstaged (.desk .d1) ∧ one.Shaped ∧ one.MayWrite (.desk .d1) dom ∧ one.TalkLawful) := by
  have hn : ∀ s : State, s.domains = State.reset.domains → (s.domain dom).owner = none := by
    intro s hs
    simp only [State.domain, hs, State.reset]
    have : ∀ k : Fin 16, (nth (List.replicate 16 Domain.reset) k.val Domain.reset).owner = none := by decide
    exact this ⟨dom, h⟩
  refine ⟨⟨?_, ?_, up_shaped, ⟨rfl, Or.inl (hn up rfl)⟩, talk_of (by decide +kernel)⟩,
    ⟨?_, ?_, one_shaped, ⟨rfl, Or.inl (hn one rfl)⟩, one_talk⟩⟩
  all_goals simp only [State.Accepts, State.HasRoom, State.Unstaged]; decide

theorem test_met_a_silent_slot_writes_its_column :
    hushed.Accepts (.desk .d1) ∧ hushed.Unstaged (.desk .d1) ∧ hushed.Shaped ∧ (hushed.slot .d1).state = .silent ∧
    ((1#16 : Word) = 0 ∨ (1#16 : Word) = 1) := by
  refine ⟨?_, fun h => (nomatch h), shaped_of (by decide +kernel), rfl, by decide⟩
  simp only [State.Accepts, State.HasRoom]; decide
theorem test_met_InputWrites :
    ((1#8 : Byte).toNat ≤ 1 ∧ (61#16 : Word).toInt = 61 ∧ (0xFFFF#16 : Word).toInt = -1) ∧ ((1#16 : Word) = 0 ∨ (1#16 : Word) = 1) ∧
    ((2#16 : Word) ≠ 0 ∧ (2#16 : Word) ≠ 1) := by decide
theorem test_met_MixWrites : 8 + (23 : Fin 24).val / 4 < 16 ∧ (0xFF4B#16 : Word).toInt ≤ -181 ∧ 20 < (21#16 : Word).toInt := by decide
theorem test_met_OutputWrites :
    ((316#16 : Word) = BitVec.ofNat 16 316 ∧ 316 < 32768 ∧ sourceOf 316 ≠ none ∧ pairRefused 316 ((up.output 31).fallback.getD 0) = false ∧
      pairRefused (up.output 31).primary 316 = false) ∧ sourceOf 25 = none ∧ (0xFFFF#16 : Word).toInt < 0 ∧
    (let s := up.modOutput 31 fun o => { o with primary := 201, fallback := some 301 }
     pairRefused 302 ((s.output 31).fallback.getD 0) = true ∧ pairRefused (s.output 31).primary 216 = true ∧ s.Shaped ∧
      s.Accepts .panel ∧ s.Unstaged .panel ∧ s.MayWrite .panel 14) ∧
    ((2#16 : Word) = BitVec.ofInt 16 Override.tone.code ∧ 2 < (3#16 : Word).toInt) := by
  refine ⟨by decide +kernel, by decide, by decide, ⟨by decide +kernel, by decide +kernel, shaped_of (by decide +kernel), ?_⟩, by decide⟩
  simp only [State.Accepts, State.HasRoom, State.Unstaged, State.MayWrite]; decide +kernel
theorem test_met_StageWrites :
    (0 ≤ (3#16 : Word).toInt ∧ (3#16 : Word).toInt ≤ 3 ∧ up.slotState .panel ≠ .vacant ∧ one.slotState (.desk .d1) ≠ .vacant) ∧
    (up.slot .d3).state = .vacant ∧ 3 < (4#16 : Word).toInt ∧ (255#16 : Word).toInt ≤ 255 ∧ 255 < (256#16 : Word).toInt ∧
    (5 ≤ (5#16 : Word).toInt ∧ (200#16 : Word).toInt ≤ 200) ∧ (4#16 : Word).toInt < 5 ∧ 200 < (201#16 : Word).toInt ∧
    (300#16 : Word).toInt ≤ 300 ∧ 300 < (301#16 : Word).toInt := by decide

/-- Slot 1 of console 5 and a domain of another slot. -/
def owned (dom : Nat) (by_ : SlotId) : State := one.modDomain dom fun _ => { Domain.reset with owner := some by_, count := 255 }

/-- A SET by slot 1 of the master of mix 24, which is in domain 13. -/
def masterSet (echo : Byte) : Instr := .writeCrosspoint (.desk .d1) 7 2723 21 echo

theorem test_met_TrespassIsRecorded :
    (masterSet 1).request = some (.desk .d1, 7, .set 2723 21 1) ∧ (owned 13 .panel).Accepts (.desk .d1) ∧ (owned 13 .panel).Shaped ∧
    paramOf 2723 = some (.master 23) ∧ (Param.master 23).domain = some 13 ∧ (Param.master 23).valueOk 21 = true ∧
    (owned 13 .panel).slotState (.desk .d1) = .active ∧ ((owned 13 .panel).domain 13).owner = some .panel ∧
    (let s := hushed.modSlot .d1 fun r => { r with samples := Audio.silent }
     s.Accepts (.desk .d1) ∧ s.Shaped ∧ s.slotState (.desk .d1) = .silent) := by
  refine ⟨rfl, ?_, shaped_of (by decide +kernel), by decide +kernel, by decide, by decide, by decide, by decide, ?_,
    shaped_of (by decide +kernel), by decide⟩ <;>
  · simp only [State.Accepts, State.HasRoom]; decide

/-- Slot 1 with an OPEN batch of `n` entries. -/
def batching (n : Nat) : State :=
  one.setBatch (.desk .d1) { state := .opened, staged := List.replicate n { index := 1024, value := 0, domain := some 8 }, dropped := 0 }

theorem test_met_WritesAreStaged :
    (masterSet 1).request = some (.desk .d1, 7, .set 2723 21 (1#8 : Byte).toNat) ∧ (batching 255).Accepts (.desk .d1) ∧
    (batching 255).Shaped ∧ (1#8 : Byte).toNat ≤ 1 ∧ (batching 255).MayWrite (.desk .d1) 13 ∧
    writeBarred (.desk .d1) (.master 23) = false ∧ (batching 255).slotState (.desk .d1) = .active ∧
    ((batching 255).batch (.desk .d1)).state = .opened ∧ ((batching 255).batch (.desk .d1)).staged.length < 256 ∧
    ((batching 256).Accepts (.desk .d1) ∧ (batching 256).Shaped ∧ (batching 256).MayWrite (.desk .d1) 13 ∧
      ((batching 256).batch (.desk .d1)).state = .opened ∧ 256 ≤ ((batching 256).batch (.desk .d1)).staged.length) := by
  refine ⟨rfl, ?_, shaped_of (by decide +kernel), by decide, ?_, rfl, rfl, rfl, by decide +kernel, ?_, shaped_of (by decide +kernel), ?_,
    rfl, by decide +kernel⟩ <;>
  · simp only [State.Accepts, State.HasRoom, State.MayWrite]; decide +kernel

theorem test_met_windows_are_staged :
    ((Instr.writeColumnMode (.desk .d1) 7 255 1 0).request = some (.desk .d1, 7, .set 255 1 (0#8 : Byte).toNat) ∧
      paramOf 255 = some (.ownMode 63) ∧ writeBarred (.desk .d1) (.ownMode 63) = false ∧ (Param.ownMode 63).domain = none) ∧
    (let s := batching 192
     s.Accepts (.desk .d1) ∧ s.Shaped ∧ s.slotState (.desk .d1) = .active ∧ (s.batch (.desk .d1)).state = .opened ∧
      s.MayWrite (.desk .d1) 13 ∧ (s.batch (.desk .d1)).staged.length + (List.replicate 64 (0#16 : Word)).length ≤ 256) ∧
    (let s := batching 193
     s.MayWrite (.desk .d1) 13 ∧ ¬(s.batch (.desk .d1)).staged.length + (List.replicate 64 (0#16 : Word)).length ≤ 256) ∧
    ((List.replicate 64 (0#16 : Word)).length = ((64#8 : Byte).toNat - (1#8 : Byte).toNat + 1) *
      ((24#8 : Byte).toNat - (24#8 : Byte).toNat + 1)) ∧
    (let items := [⟨191, Param.phantom 63, 1⟩, ⟨192, Param.ownMode 0, 1⟩]
     itemsFrom 191 [1, 1] = some items ∧ (∀ x, x ∈ items → writeBarred (.desk .d1) x.param = false) ∧
      (∀ x, x ∈ items → x.param.valueOk x.value = true)) := by
  refine ⟨⟨rfl, by decide +kernel⟩, ⟨?_, shaped_of (by decide +kernel), rfl, rfl, ?_, by decide +kernel⟩, ⟨?_, by decide +kernel⟩,
    by decide +kernel⟩ <;>
  · simp only [State.Accepts, State.HasRoom, State.MayWrite]; decide +kernel

/-- A run that meets a missing index, one that meets a barred one, and one with a value that is refused. -/
theorem test_met_runs_are_refused :
    (paramOf ((2831#16 : Word).toNat + 1) = none) ∧
    ((∀ k, k < 2 → paramOf ((319#16 : Word).toNat + k) ≠ none) ∧ paramOf ((319#16 : Word).toNat + 1) = some (.ownEref 0) ∧
      writeBarred (.desk .d1) (.ownEref 0) = true) ∧
    ((∀ k, k < 1 → paramOf ((64#16 : Word).toNat + k) ≠ none) ∧ paramOf ((64#16 : Word).toNat + 0) = some (.pad 0) ∧
      writeBarred .panel (.pad 0) = false ∧ (Param.pad 0).valueOk (nth [(2#16 : Word)] 0 0).toInt = false) := by decide +kernel

theorem test_met_WindowWrites :
    (1 ≤ (3#8 : Byte).toNat ∧ (66#8 : Byte).toNat ≤ 66 ∧ (24#8 : Byte).toNat ≤ 24 ∧ (66 - 3 + 1) * (24 - 24 + 1) ≤ 64 ∧
      (List.replicate 64 (21#16 : Word)).length = (66 - 3 + 1) * (24 - 24 + 1)) ∧
    (∀ m, 23 ≤ m → m < 24 → up.MayWrite .panel (8 + m / 4)) ∧
    (8 + (24 - 1) / 4 = 13 ∧ (owned 13 .panel).slotState (.desk .d1) = .active ∧ ((owned 13 .panel).domain 13).owner = some .panel ∧
      (owned 13 .panel).MayWrite (.desk .d1) 12) ∧
    (hushed.Accepts (.desk .d1) ∧ hushed.Unstaged (.desk .d1) ∧ hushed.Shaped ∧ hushed.slotState (.desk .d1) = .silent) ∧
    (0#8 : Byte).toNat < 1 ∧
    (let items := [⟨2920, Param.override 0, 2⟩, ⟨2921, Param.override 1, 1⟩]
     itemsFrom 2920 [2, 1] = some items ∧ (∀ x, x ∈ items → writeBarred .panel x.param = false) ∧
      (∀ x, x ∈ items → x.param.valueOk x.value = true) ∧ (up.writeItems .panel items).2 = none) ∧
    (let items := [⟨2800, Param.primary 0, 201⟩]
     let s := up.modOutput 0 fun o => { o with fallback := some 202 }
     itemsFrom 2800 [201] = some items ∧ (s.writeItems .panel items).2 = some .badValue) ∧
    (let items := [⟨2723, Param.master 23, 1⟩]
     itemsFrom 2723 [1] = some items ∧ (∃ x, x ∈ items ∧ x.param.domain = some 13) ∧
      ∀ x low, x ∈ items → x.param.domain = some low → ¬low < 13) ∧
    64 < (List.replicate 65 (0#16 : Word)).length := by
  refine ⟨by decide +kernel, ?_, ?_, ⟨?_, fun h => (nomatch h), shaped_of (by decide +kernel), rfl⟩, by decide, by decide +kernel,
    by decide +kernel, ⟨by decide +kernel, ⟨_, List.mem_singleton_self _, rfl⟩, ?_⟩, by decide +kernel⟩
  · intro m h1 h2
    exact (test_met_writes _ (by omega)).1.2.2.2.1
  · simp only [State.MayWrite]; decide +kernel
  · simp only [State.Accepts, State.HasRoom]; decide
  · rintro x low hx hl hlt
    cases List.mem_singleton.1 hx
    cases hl
    exact absurd hlt (by decide)

theorem test_met_ClaimRequests :
    (16 ≤ (16#8 : Byte).toNat ∧ (15#8 : Byte).toNat < 16) ∧ up.Accepts .panel ∧ (up.domain 15).owner = none ∧
    ((owned 15 (.desk .d1)).Accepts (.desk .d1) ∧ (owned 15 (.desk .d1)).slotState (.desk .d1) = .active ∧
      ((owned 15 (.desk .d1)).domain 15).owner = some (.desk .d1)) ∧
    ((owned 15 .panel).Accepts (.desk .d1) ∧ ((owned 15 .panel).domain 15).owner = some .panel) ∧
    (hushed.Accepts (.desk .d1) ∧ hushed.slotState (.desk .d1) ≠ .active) := by
  simp only [State.Accepts, State.HasRoom]; decide +kernel

theorem test_met_BatchRequests :
    (one.Accepts (.desk .d1) ∧ one.slotState (.desk .d1) = .active ∧ (one.batch (.desk .d1)).state = .none) ∧
    ((batching 256).Accepts (.desk .d1) ∧ ((batching 256).batch (.desk .d1)).state = .opened) ∧
    (let s := one.setBatch (.desk .d1) { Batch.reset with state := .sealed }
     s.Accepts (.desk .d1) ∧ (s.batch (.desk .d1)).state = .sealed) ∧
    (hushed.Accepts (.desk .d1) ∧ hushed.slotState (.desk .d1) ≠ .active) := by
  simp only [State.Accepts, State.HasRoom]; decide +kernel

/-- A SEALED batch of the panel with one entry, its answer uncompleted in the queue, at the boundary. -/
def sealed : State :=
  { (atBoundary up).setBatch .panel { state := .sealed, staged := [{ index := 2920, value := 2, domain := some 14 }], dropped := 0 } with
    panelQueue := [.answer someAnswer, .answer { someAnswer with complete := false }] }

theorem test_met_BatchTakesEffect :
    (up.powered = true ∧ up.boundary.opened = false) ∧
    (sealed.powered = true ∧ sealed.boundary.opened = true ∧ (sealed.batch .panel).state = .sealed ∧
      sealed.boundary.effects.get .panel = false ∧ (∀ x, x ∈ [someAnswer] → x.complete = true) ∧
      sealed.panelQueue = [someAnswer].map PanelMsg.answer ++ .answer { someAnswer with complete := false } :: [].map PanelMsg.answer) ∧
    paramOf 2920 = some (.override 0) ∧ (owned 14 .panel).MayWrite .panel 14 ∧ ¬(owned 14 .panel).MayWrite (.desk .d1) 14 ∧
    ((owned 14 .panel).writeParam .panel (.override 0) 2).2 = none ∧
    paramOf 1024 = some (.crosspoint 0 0) ∧ (owned 8 .panel).MayWrite .panel 8 ∧ ¬(owned 8 .panel).MayWrite (.desk .d1) 8 ∧
    ((owned 8 .panel).writeParam .panel (.crosspoint 0 0) 0).2 = none := by
  simp only [State.MayWrite]; decide +kernel

/-- `full` with bus TB1 as given. -/
def talking (talker : Option SlotId) (waiting : List SlotId) (count : Nat) : State :=
  full.modBus .tb1 fun b => { b with talker := talker, waiting := waiting, timer := talker.map fun _ => { count := count, limit := 48000 } }

theorem test_met_TalkRequests :
    (∀ t w n, (talking t w n).Accepts (.desk .d1) ∧ (talking t w n).Accepts .panel ∧ (talking t w n).slotState (.desk .d1) = .active ∧
      ((talking t w n).bus .tb1).talker = t ∧ ((talking t w n).bus .tb1).waiting = w ∧ (talking t w n).powered = true) ∧
    (full.talkClassOf (.desk .d2) < full.talkClassOf .panel ∧ full.talkClassOf (.desk .d1) ≤ full.talkClassOf .panel) ∧
    ((talking (some .panel) [.desk .d1] 48000).bus .tb1).timer = some { count := 48000, limit := 48000 } ∧
    (∀ g, ((talking (some .panel) [] 47999).bus .tb1).timer = some g → g.count < g.limit) ∧
    (hushed.Accepts (.desk .d1) ∧ hushed.slotState (.desk .d1) ≠ .active) ∧ ((3#8 : Byte) ≠ 1#8 ∧ (3#8 : Byte) ≠ 2#8) := by
  refine ⟨fun t w n => ⟨⟨rfl, rfl, by show (full.slot .d1).state ≠ .vacant ∧ (full.lane .d1).ready = true; decide⟩,
    ⟨rfl, rfl, by show full.panelReady = true; decide⟩, rfl, rfl, rfl, rfl⟩, by decide +kernel,
    rfl, fun g h => ?_, ?_, by decide⟩
  · cases h; decide
  · simp only [State.Accepts, State.HasRoom]; decide

theorem test_met_RebaseEffect :
    up.Accepts .panel ∧ one.Accepts (.desk .d1) ∧ (1 < (2#8 : Byte).toNat ∧ (0#8 : Byte).toNat < 1 ∧ 64 < (65#8 : Byte).toNat) ∧
    ((1#8 : Byte).toNat ≤ 1 ∧ 1 ≤ (1#8 : Byte).toNat ∧ (64#8 : Byte).toNat ≤ 64) ∧ one.slotState (.desk .d1) = .active ∧ one.Shaped ∧
    one.MayWrite (.desk .d1) 15 ∧ (∃ d, SlotId.desk .d1 = .desk d ∧ (1 : Fin 4) = d.column) ∧
    ((owned 15 .panel).Accepts (.desk .d1) ∧ ((owned 15 .panel).domain 15).owner = some .panel ∧ SlotId.panel ≠ .desk .d1) ∧
    (hushed.Accepts (.desk .d1) ∧ hushed.slotState (.desk .d1) = .silent) := by
  refine ⟨?_, ?_, by decide, by decide, rfl, one_shaped, (test_met_writes 15 (by decide)).2.2.2.2.1, ⟨.d1, rfl, rfl⟩,
    ⟨?_, by decide, by decide⟩, ?_, rfl⟩ <;>
  · simp only [State.Accepts, State.HasRoom]; decide

/-- Every mix group is the panel's. -/
def mixesOwned : State := { one with domains := List.replicate 16 { Domain.reset with owner := some .panel } }

theorem test_met_RecallEffect :
    (one.Accepts (.desk .d1) ∧ one.Shaped ∧ one.MayWrite (.desk .d1) 13) ∧
    (hushed.Accepts (.desk .d1) ∧ hushed.slotState (.desk .d1) ≠ .active) ∧
    (mixesOwned.Accepts (.desk .d1) ∧ mixesOwned.Shaped ∧ mixesOwned.slotState (.desk .d1) = .active ∧
      ∀ dom, 8 ≤ dom → dom ≤ 13 → ¬mixesOwned.MayWrite (.desk .d1) dom) := by
  refine ⟨⟨?_, one_shaped, (test_met_writes 13 (by decide)).2.2.2.2.1⟩, ⟨?_, by decide⟩, ?_, shaped_of (by decide +kernel), rfl, ?_⟩
  · simp only [State.Accepts, State.HasRoom]; decide
  · simp only [State.Accepts, State.HasRoom]; decide
  · simp only [State.Accepts, State.HasRoom]; decide
  · have h : ∀ k : Fin 16, (mixesOwned.domain k).owner = some .panel := by decide
    intro dom _ h2 hm
    have := h ⟨dom, by omega⟩
    rcases hm.2 with h1 | h1 <;> rw [this] at h1 <;> cases h1

theorem test_met_MeterRequests :
    up.Accepts .panel ∧ one.Accepts (.desk .d1) ∧ one.slotState (.desk .d1) = .active ∧ SlotId.desk .d1 ≠ .panel ∧
    (hushed.Accepts (.desk .d1) ∧ hushed.slotState (.desk .d1) ≠ .active) ∧ (List.replicate 8 (1#8 : Byte)).length ≤ 8 := by
  simp only [State.Accepts, State.HasRoom]; decide

theorem test_met_PanelTransactions :
    (up.powered = true ∧ up.panelReserved + up.panelQueue.length ≤ 32 ∧ (∀ m, m ∈ up.panelQueue → m.uncompleted = false)) ∧
    ((crowded 32).panelReserved + (crowded 32).panelQueue.length ≤ 32 ∧ (crowded 32).panelReady = false ∧ (crowded 32).NoneReturned) ∧
    (∃ m rest, (crowded 1).panelQueue = m :: rest ∧ m.uncompleted = false) ∧
    (∀ m rest, up.panelQueue = m :: rest → m.uncompleted = true) ∧
    (messageParse [1, 2, 3] = none ∧ up.NoneReturned ∧ up.panelReady = true) ∧ (List.replicate 1023 (0#8 : Byte)).length ≤ 1023 := by
  refine ⟨⟨rfl, by decide, fun m h => nomatch h⟩, ?_, ⟨_, _, rfl, rfl⟩, fun m rest h => (nomatch h), ?_, by decide +kernel⟩
  all_goals simp only [State.NoneReturned, forall_port]; decide +kernel

/-! ## One step of each family -/

/-- The last answer of the panel queue: its result and data. -/
def panelSaid (s : State) : Option (Result × AnswerData) :=
  match s.panelQueue.getLast? with
  | some (.answer a) => some (a.result, a.data)
  | _ => none

/-- The result of the last answer of slot 1. -/
def slotSaid (s : State) : Option Result := (s.lane .d1).answers.getLast?.map Answer.result

theorem test_full_reset_samples_the_straps :
    (after (.fullReset 5) one).unitNumber = 5 ∧ ((after (.fullReset 5) one).slot .d1).state = .vacant ∧
      (after (.fullReset 5) one).started = false := by decide +kernel
theorem test_power_loss_stops_the_part :
    (after .powerLoss up).powered = false ∧ after .statusRead (after .powerLoss up) = after .powerLoss up := by decide +kernel
theorem test_step_takes_the_front_command :
    (match step { up with pending := [.metersOn .panel 1, .statusRead] } with
      | .next t => decide (t.pending = [.statusRead] ∧ t.meter.panelOn = true)
      | _ => false) = true := by decide +kernel
theorem test_light_lets_a_port_seek :
    ((after (.lightMeasurement .b (.power (-10250))) (due .dark)).port .b).state = .seeking ∧
      ((after (.lightMeasurement .b (.power (-10250))) (due .dark)).port .b).lightCode = 20 := by decide +kernel
theorem test_no_light_is_a_port_loss :
    ((after (.lightMeasurement .b (.power (-36001))) (due .locked)).port .b).state = .dark := by decide +kernel
theorem test_a_locking_frame_admits_a_console :
    let t := after (.validFrame .a next5 false) (almost up)
    (t.port .a).state = .locked ∧ (t.slot .d1).state = .active ∧ (t.slot .d1).bound = [.a] ∧ (t.slot .d1).talkClass = 2 ∧
      (t.slot .d1).lastTaken = some 100 := by decide +kernel
theorem test_a_valid_frame_is_taken :
    ((after (.validFrame .a { next5 with audio := { Audio.silent with talk := 77 } } false) one).slot .d1).samples.talk = 77 := by
  decide +kernel
theorem test_a_failed_frame_counts_in_the_window : ((after (.crcFailedFrame .a) one).port .a).windowCount = 1 := by decide +kernel
theorem test_three_missing_frames_are_borne :
    ((after (.missingFrame .a false) (running 0 2)).port .a).state = .locked ∧
      ((after (.missingFrame .a false) (running 0 3)).port .a).state = .seeking := by decide +kernel
theorem test_the_last_path_lost_silences_the_slot :
    let t := after (.missingFrame .a false) (running 0 3)
    (t.slot .d1).state = .silent ∧ (t.slot .d1).conceal = .fadingOut ∧ (t.slot .d1).grace = some { count := 0, limit := 144000 } := by
  decide +kernel
theorem test_a_switch_to_a_port_that_holds_the_frame_is_hitless :
    let t := after (.missingFrame .a false) (twoPaths (some 99))
    (t.slot .d1).active = some .b ∧ (t.slot .d1).conceal = .none ∧ (t.slot .d1).lastTaken = some 100 ∧ (t.slot .d1).switchovers = 1 := by
  decide +kernel
theorem test_a_switch_to_a_port_that_lacks_the_frame_is_concealed :
    let t := after (.missingFrame .a false) (twoPaths (some 100))
    (t.slot .d1).active = some .b ∧ (t.slot .d1).conceal = .fadingOut ∧ (t.slot .d1).switchovers = 1 := by decide +kernel
theorem test_a_window_of_eight_failed_frames_is_an_error :
    ((after (.errorWindowComplete .a) (one.modPort .a fun r => { r with windowPos := 4800, windowCount := 8 })).port .a).state = .errored ∧
      ((after (.errorWindowComplete .a) (one.modPort .a fun r => { r with windowPos := 4800, windowCount := 7 })).port .a).state =
        .locked := by decide +kernel
theorem test_fades_end_after_step_64 :
    ((after (.fadeOutEnd .d1) (concealing .fadingOut 64)).slot .d1).conceal = .silentGap ∧
      ((after (.fadeInEnd .d1) (concealing .fadingIn 64)).slot .d1).conceal = .none := by decide +kernel
theorem test_a_slot_in_the_gap_fades_in :
    let t := after (.validFrame .a { next5 with audio := { Audio.silent with talk := 5000000 } } false) (concealing .silentGap 0)
    (t.slot .d1).conceal = .fadingIn ∧ (t.slot .d1).step = 1 ∧ (t.slot .d1).samples.talk = 78125 := by decide +kernel
theorem test_grace_expiry_frees_the_slot_for_the_one_that_waits :
    ((after (.graceExpiry .d1) hushed).slot .d1).state = .vacant ∧ ((after (.graceExpiry .d1) queueing).slot .d1).ident = some 9 ∧
      (after (.graceExpiry .d1) queueing).waitList = [] := by decide +kernel

/-- Input 1 open on mix 1, mix 1 on output 1, all at 0 hdB. -/
def sounding : State :=
  let level : Level := { on := true, target := some 0, current := 0, count := 0 }
  (((up.modCard 0 fun _ => { present := true, unanswered := 0 }).modChannel 0 fun c => { c with gate := 64, gateOpen := true }).modMix 0
    fun m => { m with master := level, xps := modNth m.xps 0 fun _ => level }).modOutput 0 fun o =>
    { o with primary := 1, selection := .primary, primaryShare := 240, level := level, gate := 64 }

theorem test_a_sample_passes_through_the_part :
    let t := after (.framePeriod (1000 :: List.replicate 63 0) 0) sounding
    t.stageOut.take 2 = [1000, 0] ∧ t.frameCounter = 1 ∧ nth t.meter.mixPeaks 0 0 = 1000 ∧ (t.sent.get .c).number = 0 := by
  decide +kernel
theorem test_a_trim_moves_in_the_eighth_frame :
    ((after (.framePeriod (List.replicate 64 0) 0) (stepping { Cell.reset with on := true, eref := some 0, target := -16, count := 6 }
      Level.reset 0)).cell 63 0).current = 0 ∧
    ((after (.framePeriod (List.replicate 64 0) 0) (stepping { Cell.reset with on := true, eref := some 0, target := -16, count := 7 }
      Level.reset 0)).cell 63 0).current = -1 := by decide +kernel
theorem test_ramp_steps_are_taken_once :
    let s := stepping { Cell.reset with on := true, eref := some 0, target := -16, count := 7 } rising 5
    let t := after (.trimRampStep 63 0) s
    (t.cell 63 0).current = -1 ∧ after (.trimRampStep 63 0) t = t ∧
      ((after (.framePeriod (List.replicate 64 0) 0) t).cell 63 0).current = -1 := by decide +kernel
theorem test_a_level_step_and_a_duck_step :
    ((after (.levelRampStep (.master 23)) (stepping Cell.reset rising 5)).mix 23).master.current = -179 ∧
      ((after (.levelRampStep (.output 31)) (stepping Cell.reset leaving 5)).output 31).level.on = false ∧
      ((after (.duckReleaseStep 23) (stepping Cell.reset rising 5)).mix 23).duck = 4 := by decide +kernel
theorem test_a_crossfade_ends :
    ((after (.crossfadeEnd 0) (up.modOutput 0 fun o => { o with selection := .toFallback, fallbackShare := 240 })).output 0).selection =
      .fallback := by decide +kernel
/-- The first and third rows of 4.4's table: from 30 to 38 dB the ON cells step to −16, to 50 dB they stop at −36. -/
theorem test_a_marker_steps_the_trims :
    let t := after (.gainChangeMarker 5) (flying false .ready Setting.rest 30)
    (t.cell 5 2).target = -16 ∧ (t.cell 5 2).current = -16 ∧ (t.cell 5 2).limited = false ∧ (t.inputComp 5).stageGain = 38 ∧
      ((after (.gainChangeMarker 5) (flying false .ready Setting.rest 18)).cell 5 2).target = -36 ∧
      ((after (.gainChangeMarker 5) (flying false .ready Setting.rest 18)).cell 5 2).limited = true := by decide +kernel
theorem test_a_setting_slot_sends_the_desired_setting :
    (after .settingSlot (slotOf [] [5] (louder false))).line.exchange = .setting 5 (louder false) ∧
      ((after .settingSlot (slotOf [] [5] (louder true))).channel 5).op = .muting := by decide +kernel
theorem test_a_setting_answer_counts_for_its_channel_alone :
    (after (.settingAnswer 7 7) (asking .inFlight)).line.exchange = .none ∧
      (after (.settingAnswer 7 6) (asking .inFlight)).line.exchange = .setting 63 (louder false) ∧
      ((after .settingNoAnswer (asking .inFlight)).channel 63).link = .fault := by decide +kernel
theorem test_channel_timers_expire :
    ((after (.markerTimeout 63) (timed .inFlight .ready false 0)).channel 63).link = .fault ∧
      ((after (.holdEnd 63) (timed .settling .ready false 0)).channel 63).op = .idle ∧
      ((after (.retryTimerExpiry 63) (timed .idle .fault false 0)).channel 63).retryTimer = some 0 := by decide +kernel
theorem test_polls :
    (after .pollSlot { up with line := { up.line with slotNumber := 80 } }).line.exchange = .poll 7 true ∧
      ((after (.pollAnswer 7 0) (polling false true 3)).card 7).present = true ∧
      ((after (.pollAnswer 7 0x80#8) (polling true false 0)).channel 63).latch = true ∧
      ((after .pollUnanswered (polling true false 2)).card 7).present = false := by decide +kernel
theorem test_a_revert_hold_expires :
    ((after (.revertHoldExpiry 31) (up.modOutput 31 fun o =>
      { o with selection := .fallback, hold := some { count := 96000, limit := 96000 } })).output 31).selection = .toPrimary := by
  decide +kernel
theorem test_a_talk_limit_hands_the_bus_on :
    let t := after (.talkTimeout .tb1) (talking (some .panel) [.desk .d1] 48000)
    (t.bus .tb1).talker = some (.desk .d1) ∧ (t.bus .tb1).waiting = [] ∧ (t.bus .tb1).notices.panel = true ∧
      (t.bus .tb1).timer = some { count := 0, limit := 2880000 } := by decide +kernel
theorem test_a_meter_period_ends_once :
    let t := after .meterPeriodEnd (atBoundary one)
    t.meter.periodCount = 1 ∧ after .meterPeriodEnd t = t ∧ ((t.lane .d1).tx.pendingMeter.map List.length) = some 170 := by
  decide +kernel
theorem test_a_digest_has_204_bytes :
    (((after .digestCadence (atBoundary one)).lane .d1).tx.pendingDigest.map List.length) = some 204 := by decide +kernel
/-- A crosspoint in its ramp to 0 hdB, at -100 and 5 frames into its step, and a batch that names it twice: its current level first,
which would end the ramp. -/
theorem test_a_replaced_crosspoint_keeps_its_count :
    (let s := up.modMix 0 fun mx => mx.modXp 0 fun _ => { on := true, target := some 0, current := -100, count := 5, undo := none }
     let r := s.applyStaged .panel [{ index := 1024, value := -100, domain := some 8 }, { index := 1024, value := 0, domain := some 8 }]
     (nth (nth r.1.mixes 0 Mix.reset).xps 0 Level.reset).count = 5 ∧ r.2 = (2, 0) ∧
     (nth (nth (s.applyStaged .panel [{ index := 1024, value := -100, domain := some 8 }]).1.mixes 0 Mix.reset).xps 0
       Level.reset).count = 0) := by decide +kernel

theorem test_a_batch_takes_effect :
    ((after (.batchEffect .panel) sealed).output 0).override = .tone ∧
      (after (.batchEffect .panel) sealed).panelQueue.drop 1 = [.answer { someAnswer with data := .counts 1 0 }] := by decide +kernel
theorem test_a_blank_memory_loads_the_defaults :
    let t := after (.loadEnd none) State.reset
    t.config.loading = false ∧ t.config.status.getLsbD 10 = true ∧ (t.mix 0).master.target = some 0 ∧ (t.output 23).primary = 24 ∧
      (t.output 24).primary = 0 := by decide +kernel
theorem test_start_up_completes :
    (after .startupComplete { State.reset with
      config := { ConfigUnit.reset with loading := false }, line := { CardLine.reset with polled := true } }).started = true := by
  decide +kernel
theorem test_the_last_record_ends_the_store :
    panelSaid (after (.storeRecordChecked (some job.current.bytes)) storing) = some (.done, .none) ∧
      panelSaid (after (.storeRecordChecked (some (List.replicate 7 0))) storing) = some (.failed, .none) := by decide +kernel
theorem test_unknown_kinds_and_indices :
    panelSaid (after (.unknownKind .panel 1 0x77#8) up) = some (.noSuch, .none) ∧
      panelSaid (after (.writeOtherIndex .panel 1 704 0 0) up) = some (.noSuch, .none) ∧
      panelSaid (after (.writeOtherIndex .panel 1 576 0 0) up) = some (.notPermitted, .none) := by decide +kernel
theorem test_get :
    panelSaid (after (.get .panel 1 2730 2) up) = some (.done, .values [-40, -40]) ∧
      panelSaid (after (.get .panel 1 2607 1) up) = some (.done, .values [-181]) := by decide +kernel
theorem test_a_gain_is_clamped :
    let t := after (.writeDesiredSetting .panel 1 63 61 1) up
    (t.channel 63).desired.gain = 60 ∧ panelSaid t = some (.clamped, .values [60]) := by decide +kernel
theorem test_silent_slot_does_not_write_its_column :
    slotSaid (after (.writeColumnMode (.desk .d1) 1 192 1 0) hushed) = some .notAvailable ∧
      ((after (.writeColumnMode (.desk .d1) 1 192 1 0) hushed).cell 0 1).on = false := by decide +kernel
/-- The gain of a returned card reaches the trim with its first sample, and an override moves the gate. -/
theorem test_frame_under_way :
    (let t := after (.framePeriod (List.replicate 64 0) 0) underWay
     (t.cell 63 3).current = -36 ∧ (t.cell 63 3).limited = true ∧ (t.channel 63).handOver = false ∧ (t.output 31).gate = 0 ∧
      (t.output 31).toneContent = true ∧ (t.output 31).phase = 1 ∧ (t.slot .d1).step = 63) := by decide +kernel
theorem test_modes :
    ((after (.writeColumnMode (.desk .d1) 1 192 1 0) one).cell 0 1).eref = some 0 ∧
      slotSaid (after (.writeColumnMode (.desk .d1) 1 192 1 0) one) = some .done ∧
      panelSaid (after (.writeColumnMode .panel 1 192 1 0) up) = some (.notPermitted, .none) := by decide +kernel
theorem test_levels_enter_at_the_floor :
    (((after (.writeCrosspoint .panel 1 1024 0 0) up).mix 0).xp 0) = { on := true, target := some 0, current := -180, count := 0 } ∧
      ((after (.writeDuckCeiling .panel 1 2753 (-200) 0) up).mix 23).ceiling = -180 := by decide +kernel
theorem test_patch_writes :
    ((after (.writeOutputSource .panel 1 2800 1 0) up).output 0).selection = .toPrimary ∧
      panelSaid (after (.writeOutputSource .panel 1 2800 25 0) up) = some (.badValue, .none) ∧
      ((after (.writeOutputLevel .panel 1 2911 21 0) up).output 31).level.target = some 20 ∧
      ((after (.writeOverride .panel 1 2951 1 0) up).output 31).override = .mute := by decide +kernel
theorem test_stage_settings :
    ((after (.writeTalkClass .panel 1 3001 1 0) one).slot .d1).talkClass = 1 ∧ (after (.writeTalkLimit .panel 1 3010 0 0) up).talkLimit = 0 ∧
      (after (.writeGraceTime .panel 1 3011 80 0) up).graceTime = 4000 ∧
      (after (.writeRevertHoldTime .panel 1 3012 300 0) up).revertTime = 30000 := by decide +kernel
theorem test_windows :
    (((after (.setWindowMatrix .panel 1 66 66 23 24 0 [3, 4]) up).mix 23).xp 65).target = some 4 ∧
      ((after (.setWindowRun .panel 1 2950 0 [1, 2]) up).output 31).override = .tone ∧
      panelSaid (after (.setWindowRun .panel 1 2830 0 [1, 1, 1]) up) = some (.noSuch, .none) := by decide +kernel
theorem test_claims :
    ((after (.claim (.desk .d1) 1 15) one).domain 15).owner = some (.desk .d1) ∧
      slotSaid (after (.claim (.desk .d1) 1 15) (owned 15 .panel)) = some .claimedByOther ∧
      ((after (.release (.desk .d1) 1 15) (owned 15 (.desk .d1))).domain 15) = Domain.reset ∧
      ((after (.forceRelease .panel 1 15) (owned 15 (.desk .d1))).domain 15).owner = none ∧
      ((after (.clearTrespass (.desk .d1) 1 15) (owned 15 (.desk .d1))).domain 15).count = 0 := by decide +kernel
theorem test_a_refused_write_is_a_trespass :
    let t := after (masterSet 0) (owned 13 .panel)
    slotSaid t = some .notOwner ∧ (t.domain 13).trespasser = some (.desk .d1) ∧ (t.domain 13).count = 255 ∧
      (t.mix 23).master = Level.reset := by decide +kernel
theorem test_batches :
    ((after (.batchOpen .panel 1) up).batch .panel).state = .opened ∧
      ((after (.batchApply (.desk .d1) 1) (batching 1)).batch (.desk .d1)).state = .sealed ∧
      ((after (.batchDrop (.desk .d1) 1) (batching 1)).batch (.desk .d1)).staged = [] ∧
      slotSaid (after (masterSet 0) (batching 256)) = some .full := by decide +kernel
theorem test_a_higher_class_preempts :
    let t := after (.talkPress .panel 1 1) (talking (some (.desk .d1)) [.desk .d2] 5)
    (t.bus .tb1).talker = some .panel ∧ (t.bus .tb1).waiting = [.desk .d1, .desk .d2] ∧
      ((after (.talkRelease .panel 1 1) t).bus .tb1).talker = some (.desk .d1) := by decide +kernel
theorem test_rebase :
    let s := flying false .ready Setting.rest 30
    ((after (.rebase .panel 1 6 6 1) s).cell 5 0).eref = some 0 ∧ ((after (.rebase .panel 1 6 6 1) s).cell 5 1).eref = some 30 := by
  decide +kernel
theorem test_recall_and_clear_overs :
    ((after (.recallSafe .panel 1) up).mix 23).master.target = some 0 ∧
      (after (.clearOvers .panel 1) { up with overs := PerSlot.all { mixes := 1, outs := 1 } }).overs.panel = OverSet.empty := by
  decide +kernel
theorem test_path_prefer :
    ((after (.pathPrefer .panel 1 1) two).slot .d1).active = some .b ∧ panelSaid (after (.pathPrefer .panel 1 4) two) = some (.badValue, .none) := by
  decide +kernel
theorem test_describe_store_restart :
    panelSaid (after (.describe .panel 1) up) = some (.done, .description 0 0 []) ∧
      (after (.store .panel 1 [2]) up).panelReserved = 1 ∧ (after (.restart .panel 1) one).started = false ∧
      panelSaid (after (.restart .panel 1) one) = some (.done, .none) := by decide +kernel
theorem test_panel_meters :
    (after (.metersOn .panel 1) up).meter.panelOn = true ∧
      (after (.metersOff .panel 1) { up with meter := { up.meter with panelOn := true } }).meter.panelOn = false ∧
      slotSaid (after (.metersOn (.desk .d1) 1) one) = some .notPermitted := by decide +kernel
theorem test_panel_transactions :
    (after .statusRead up).panelReturn = [0xC0#8] ∧
      (after .messageRead (crowded 1)).panelReturn = messageContent 0x80#8 1#8 [0x10, 0] ∧
      ((after (.requestWrite (messageContent 0x20#8 7#8 [3#8])) up).domain 3).owner = some .panel ∧
      (after (.unknownTransaction 9) up).panelReturn = [] := by decide +kernel

end Sys2Proof.Tests
end

/-!
The level arithmetic, saturation and the meter scale (R66, R67, R70, R83, R84).
The thresholds fall because the levels of one octave share their shift, so that lowering a level by one step lowers the product of
R67 by at least 3,883 times the sample, which for full scale is more than the divisor 2^s.
-/
namespace Sys2Proof.Machine

/-! ### A level applied to a sample -/

/-- The multipliers of a whole octave, its upper end, twice M[0], with them. -/
def octaveMultipliers : List Int := stepMultipliers ++ [131072]

theorem nth_octaveMultipliers_of_lt {r : Nat} (hr : r < 12) : nth octaveMultipliers r 0 = nth stepMultipliers r 0 := by
  decide +revert

theorem octaveMultipliers_gap {r : Nat} (hr : r < 12) :
    nth octaveMultipliers r 0 + 3883 ≤ nth octaveMultipliers (r + 1) 0 := by
  decide +revert

/-- R67 with the octave `k` and the step `r` of the level given. -/
theorem applyLevel_octave_step (k : Int) {r : Nat} (hr : r < 12) (x : Sample) :
    applyLevel (12 * k + r) x = (x * nth stepMultipliers r 0 + 2 ^ ((16 - k).toNat - 1)) / 2 ^ (16 - k).toNat := by
  have hk : (12 * k + (r : Int)) / 12 = k := by omega
  have hmod : ((12 * k + (r : Int)) % 12).toNat = r := by omega
  simp only [applyLevel, hk, hmod]

/-- R67 for a level of whole octaves. -/
theorem applyLevel_octave {g k : Int} {s : Nat} (hg : g = 12 * k) (hs : 16 - k = s + 1) (x : Int) :
    applyLevel g x = (x * 65536 + 2 ^ s) / 2 ^ (s + 1) := by
  have hshift : (16 - k).toNat = s + 1 := by omega
  have h := applyLevel_octave_step k (r := 0) (by decide) x
  rwa [hshift, Nat.cast_zero, add_zero, ← hg] at h

/-- R67 with the shift of the octave below also for the octave's upper end: both the product and the divisor are doubled. -/
theorem applyLevel_octave_closed {k : Int} (hk : k ≤ 14) {r : Nat} (hr : r ≤ 12) (x : Sample) :
    applyLevel (12 * k + r) x = (x * nth octaveMultipliers r 0 + 2 ^ ((16 - k).toNat - 1)) / 2 ^ (16 - k).toNat := by
  rcases Nat.lt_or_eq_of_le hr with hlt | rfl
  · rw [nth_octaveMultipliers_of_lt hlt, applyLevel_octave_step k hlt]
  · obtain ⟨s, hs⟩ : ∃ s, (16 - k).toNat = s + 2 := ⟨(16 - k).toNat - 2, by omega⟩
    have hdouble : x * nth octaveMultipliers 12 0 + 2 ^ (s + 1) = 2 * (x * 65536 + 2 ^ s) := by
      change x * 131072 + 2 ^ (s + 1) = _
      ring
    calc applyLevel (12 * k + (12 : Nat)) x
      _ = (x * 65536 + 2 ^ s) / 2 ^ (s + 1) := applyLevel_octave (k := k + 1) (by omega) (by omega) x
      _ = (2 * (x * 65536 + 2 ^ s)) / (2 * 2 ^ (s + 1)) := (Int.mul_ediv_mul_of_pos _ _ (by decide)).symm
      _ = _ := by rw [hs, show s + 2 - 1 = s + 1 from rfl, hdouble, Int.pow_succ' 2 (s + 1)]

/-- The quotient of R67 is the nearest integer, a half going up. -/
theorem applyLevel_nearest (k : Int) {r : Nat} (hr : r < 12) (x : Sample) :
    2 ^ (16 - k).toNat * applyLevel (12 * k + r) x ≤ x * nth stepMultipliers r 0 + 2 ^ ((16 - k).toNat - 1) ∧
      x * nth stepMultipliers r 0 + 2 ^ ((16 - k).toNat - 1) < 2 ^ (16 - k).toNat * (applyLevel (12 * k + r) x + 1) := by
  have hpos : (0 : Int) < 2 ^ (16 - k).toNat := by positivity
  rw [applyLevel_octave_step k hr]
  exact ⟨Int.mul_ediv_self_le hpos.ne', by rw [mul_add_one]; exact Int.lt_mul_ediv_self_add hpos⟩

theorem applyLevel_zero (x : Int) : applyLevel 0 x = x :=
  (applyLevel_octave (k := 0) (s := 15) (by decide) (by decide) x).trans (show (x * 65536 + 32768) / 65536 = x by omega)

theorem applyLevel_octave_up (x : Int) : applyLevel 12 x = 2 * x :=
  (applyLevel_octave (k := 1) (s := 14) (by decide) (by decide) x).trans (show (x * 65536 + 16384) / 32768 = 2 * x by omega)

theorem applyLevel_octave_down (x : Int) : applyLevel (-12) x = (x + 1) / 2 :=
  (applyLevel_octave (k := -1) (s := 16) (by decide) (by decide) x).trans (show (x * 65536 + 65536) / 131072 = (x + 1) / 2 by omega)

theorem applyLevel_sample_zero {g : Int} (hg : g ≤ 56) : applyLevel g 0 = 0 := by
  have hs : (16 - g / 12).toNat - 1 < (16 - g / 12).toNat := by omega
  simp only [applyLevel, zero_mul, zero_add]
  exact Int.ediv_eq_zero_of_lt (by positivity) (pow_lt_pow_right₀ (by decide) hs)

/-- A sample of at least 2^s / 3,883 comes out higher under the next higher level. -/
theorem applyLevel_lt_succ {k : Int} (hk : k ≤ 14) {r : Nat} (hr : r < 12) {x : Int} (hx : 2 ^ (16 - k).toNat ≤ x * 3883) :
    applyLevel (12 * k + r) x < applyLevel (12 * k + (r + 1 : Nat)) x := by
  have hpos : (0 : Int) < 2 ^ (16 - k).toNat := by positivity
  have hgap : x * nth octaveMultipliers r 0 + x * 3883 ≤ x * nth octaveMultipliers (r + 1) 0 := by
    rw [← mul_add]
    exact mul_le_mul_of_nonneg_left (octaveMultipliers_gap hr) (by omega)
  rw [applyLevel_octave_closed hk hr.le, applyLevel_octave_closed hk (r := r + 1) hr, ← Int.add_one_le_iff,
    ← Int.add_mul_ediv_right _ 1 hpos.ne']
  exact Int.ediv_le_ediv hpos (by omega)

/-! ### Saturation -/

theorem saturate_of_gt {x : Sample} (h : 8388607 < x) : saturate x = 8388607 := if_pos h

theorem saturate_of_lt {x : Sample} (h : x < -8388608) : saturate x = -8388608 := by
  have hle : ¬ x > fullScale := Int.not_lt.mpr (h.le.trans (by decide))
  exact (if_neg hle).trans (if_pos h)

theorem saturate_of_inRange {x : Sample} (hlo : -8388608 ≤ x) (hhi : x ≤ 8388607) : saturate x = x :=
  (if_neg (Int.not_lt.mpr hhi)).trans (if_neg (Int.not_lt.mpr hlo))

theorem clips_eq_true_iff (x : Sample) : clips x = true ↔ saturate x ≠ x := decide_eq_true_iff

theorem clips_eq_false_iff (x : Sample) : clips x = false ↔ saturate x = x := by simp [clips]

/-- Settles O37: R67 by the quotient's bounds, R70 by the two limits. -/
theorem levelArithmetic : Obligations.LevelArithmetic := by
  refine ⟨⟨fun g x k r _ _ hg hr0 hr12 => ?_, applyLevel_zero, applyLevel_octave_up, applyLevel_octave_down,
    fun g _ hg => applyLevel_sample_zero hg, applyLevel_octave_down 3, applyLevel_octave_down (-3)⟩, fun x => ⟨fun h => ?_, fun h => ?_,
    fun hlo hhi => ?_⟩⟩
  · obtain ⟨n, rfl⟩ := Int.eq_ofNat_of_zero_le hr0
    subst hg
    exact applyLevel_nearest k (by omega) x
  · have hs := saturate_of_gt h
    exact ⟨hs, (clips_eq_true_iff x).mpr (hs ▸ h.ne)⟩
  · have hs := saturate_of_lt h
    exact ⟨hs, (clips_eq_true_iff x).mpr (hs ▸ h.ne')⟩
  · have hs := saturate_of_inRange hlo hhi
    exact ⟨hs, (clips_eq_false_iff x).mpr hs⟩

/-! ### The thresholds -/

/-- For the shifts of the scale, 2^12 to 2^31, full scale is large enough for every step to count. -/
theorem two_pow_le_fullScale_mul {s : Nat} (hs : s ≤ 31) : (2 : Int) ^ s ≤ fullScale * 3883 :=
  (pow_le_pow_right₀ (by decide) hs).trans (by decide)

theorem threshold_succ_lt {n : Nat} (hn : n < 180) : threshold (n + 1) < threshold n := by
  obtain ⟨k, r, hr, hlow⟩ : ∃ (k : Int) (r : Nat), r < 12 ∧ -((n + 1 : Nat) : Int) = 12 * k + r :=
    ⟨-((n + 1 : Nat) : Int) / 12, (-((n + 1 : Nat) : Int) % 12).toNat, by omega, by omega⟩
  have hhigh : -(n : Int) = 12 * k + (r + 1 : Nat) := by omega
  unfold threshold
  rw [hlow, hhigh]
  exact applyLevel_lt_succ (by omega) hr (two_pow_le_fullScale_mul (by omega))

theorem threshold_lt {m n : Nat} (hmn : m < n) (hn : n ≤ 180) : threshold n < threshold m := by
  induction n, hmn using Nat.le_induction with
  | base => exact threshold_succ_lt hn
  | succ n _ ih => exact (threshold_succ_lt hn).trans (ih (by omega))

theorem threshold_le {m n : Nat} (hmn : m ≤ n) (hn : n ≤ 180) : threshold n ≤ threshold m := by
  rcases Nat.lt_or_eq_of_le hmn with hlt | rfl
  · exact (threshold_lt hlt hn).le
  · exact le_rfl

theorem threshold_zero : threshold 0 = 8388607 := applyLevel_zero _

/-- Whole octaves below full scale the threshold is a power of two: full scale is 2^23 − 1, and the 1 is lost in the rounding. -/
theorem threshold_octave {j : Nat} (hj1 : 1 ≤ j) (hj15 : j ≤ 15) : threshold (12 * j) = 2 ^ (23 - j) := by
  obtain ⟨i, rfl⟩ : ∃ i, j = i + 1 := ⟨j - 1, by omega⟩
  have hsplit : (2 : Int) ^ (23 - (i + 1)) * 2 ^ (i + 16 + 1) = 2 ^ 39 := by rw [← pow_add]; congr 1; omega
  have hhalf : (2 : Int) ^ 16 ≤ 2 ^ (i + 16) := pow_le_pow_right₀ (by decide) (by omega)
  have hdouble : (2 : Int) ^ (i + 16 + 1) = 2 * 2 ^ (i + 16) := Int.pow_succ' 2 (i + 16)
  have hproduct : fullScale * 65536 = 2 ^ 39 - 2 ^ 16 := by decide
  rw [threshold, applyLevel_octave (k := -((i + 1 : Nat) : Int)) (s := i + 16) (by omega) (by omega), hproduct]
  exact (Int.ediv_eq_iff_of_pos (by positivity)).mpr ⟨by omega, by omega⟩

/-! ### The level code of a peak -/

theorem levelCodeFrom_eq_of_reached {p m : Nat} (hm : threshold m ≤ p) :
    ∀ {k n : Nat}, n ≤ m → m < n + k → (∀ i, n ≤ i → i < m → (p : Int) < threshold i) → levelCodeFrom p n k = m
  | 0, n, hnm, hmk, _ => by omega
  | k + 1, n, hnm, hmk, hbelow => by
    rcases Nat.lt_or_eq_of_le hnm with hlt | rfl
    · rw [levelCodeFrom, if_neg (Int.not_le.mpr (hbelow n le_rfl hlt))]
      exact levelCodeFrom_eq_of_reached hm hlt (by omega) fun i hi => hbelow i (by omega)
    · rw [levelCodeFrom, if_pos hm]

theorem levelCodeFrom_eq_of_none_reached {p : Nat} :
    ∀ {k n : Nat}, (∀ i, n ≤ i → i < n + k → (p : Int) < threshold i) → levelCodeFrom p n k = 180
  | 0, _, _ => rfl
  | k + 1, n, hnone => by
    rw [levelCodeFrom, if_neg (Int.not_le.mpr (hnone n le_rfl (by omega)))]
    exact levelCodeFrom_eq_of_none_reached fun i hi hik => hnone i (by omega) (by omega)

/-- The smallest level whose threshold the peak reaches (R84). -/
theorem levelCode_eq_of_least {p n : Nat} (hn : n ≤ 180) (hreach : threshold n ≤ p) (hleast : ∀ k, k < n → (p : Int) < threshold k) :
    levelCode p = n :=
  levelCodeFrom_eq_of_reached hreach n.zero_le (by omega) fun i _ => hleast i

theorem levelCode_eq_of_none {p : Nat} (hnone : ∀ k, k ≤ 180 → (p : Int) < threshold k) : levelCode p = 180 :=
  levelCodeFrom_eq_of_none_reached fun i _ hi => hnone i (by omega)

theorem levelCode_eq_zero {p : Nat} (hreach : 8388607 ≤ p) : levelCode p = 0 :=
  levelCode_eq_of_least (by decide) (by rw [threshold_zero]; omega) fun k hk => absurd hk k.not_lt_zero

/-- As the thresholds fall, the one above decides whether a level is the smallest. -/
theorem levelCode_eq_succ {p n : Nat} (hn : n < 180) (hreach : threshold (n + 1) ≤ p) (habove : (p : Int) < threshold n) :
    levelCode p = n + 1 :=
  levelCode_eq_of_least hn hreach fun k hk => habove.trans_le (threshold_le (by omega) hn.le)

theorem levelCode_eq_last {p : Nat} (hbelow : (p : Int) < threshold 180) : levelCode p = 180 :=
  levelCode_eq_of_none fun _ hk => hbelow.trans_le (threshold_le hk le_rfl)

/-- Settles O38: the thresholds fall step by step, and the code is the first one reached. -/
theorem meterScale : Obligations.MeterScale := by
  have octave : threshold 12 = 4194304 := threshold_octave (j := 1) le_rfl (by decide)
  have last : threshold 180 = 256 := threshold_octave (j := 15) (by decide) le_rfl
  have aboveOctave : threshold 12 < threshold 11 := threshold_succ_lt (by decide)
  have aboveLast : threshold 180 < threshold 179 := threshold_succ_lt (by decide)
  have belowOctave : threshold (12 + 1) < threshold 12 := threshold_succ_lt (by decide)
  exact ⟨fun _ _ => rfl, fun _ => threshold_succ_lt, threshold_zero, fun _ => threshold_octave, fun _ _ => levelCode_eq_of_least,
    fun _ => levelCode_eq_of_none, levelCode_eq_zero le_rfl, levelCode_eq_zero (by decide),
    levelCode_eq_succ (by decide) octave.le (by omega), levelCode_eq_succ (by decide) (by omega) (by omega),
    levelCode_eq_succ (by decide) last.le (by omega), levelCode_eq_last (by omega)⟩

end Sys2Proof.Machine

/-!
RECALL-SAFE (R102): which groups the request reaches, and what each mix of the table holds afterwards.
-/
namespace Sys2Proof.Machine

/-! ### The rights test and the taking of a request -/

theorem State.rightsTest_isNone_iff (sl : SlotId) (dom : Nat) (s : State) :
    (s.rightsTest sl dom).isNone = true ↔ s.MayWrite sl dom := by
  unfold State.rightsTest State.MayWrite
  by_cases hactive : s.slotState sl = .active
  · rw [if_neg (not_not_intro hactive)]
    cases howner : (s.domain dom).owner with
    | none => simp [hactive]
    | some o =>
      by_cases hown : o = sl
      · simp [hactive, hown]
      · simp [hown, apply_ite Option.isNone]
  · rw [if_pos hactive]
    simp [hactive]

theorem State.mayWriteMix_iff (sl : SlotId) (m : Nat) (s : State) : s.mayWriteMix sl m = true ↔ s.MayWrite sl (8 + m / 4) :=
  s.rightsTest_isNone_iff sl (mixDomain m)

/-- A request with power and room goes on to the checks of R171. -/
theorem State.takeRequest_of_hasRoom {sl : SlotId} {s : State} (hroom : s.HasRoom sl) (tag : Byte) (r : Request) :
    s.takeRequest sl tag r = s.answerRequest sl tag r := by
  cases sl with
  | panel => exact if_pos hroom
  | desk d =>
    obtain ⟨hthere, hready⟩ := hroom
    exact (if_neg hthere).trans (if_pos hready)

theorem exec_recallSafe_of_accepts {sl : SlotId} {s : State} (h : s.Accepts sl) (tag : Byte) :
    exec (.recallSafe sl tag) s = .next ((s.doRecall sl).place sl tag 0x3B#8) := by
  obtain ⟨hpower, hstarted, hroom⟩ := h
  calc exec (.recallSafe sl tag) s
    _ = live (State.takeRequest sl tag .recallSafe) s := exec_live _ s rfl
    _ = .next (s.takeRequest sl tag .recallSafe) := if_pos hpower
    _ = .next (s.answerRequest sl tag .recallSafe) := by rw [State.takeRequest_of_hasRoom hroom]
    _ = .next ((s.doRecall sl).place sl tag 0x3B#8) := by
      simp [State.answerRequest, hstarted, Request.panelOnly, Request.kind, kindRecallSafe, State.perform]

/-! ### The mixes after the recall -/

/-- The state with the safe copy recalled into every group the requester may write. -/
def State.recallGroups (sl : SlotId) (s : State) : State :=
  { s with mixes := mapFrom (fun k m => if s.mayWriteMix sl k then m.recall (nth s.safe k SafeMix.default) else m) 0 s.mixes }

theorem State.mix_recallGroups (sl : SlotId) {s : State} {m : Nat} (hm : m < s.mixes.length) :
    (s.recallGroups sl).mix m = if s.mayWriteMix sl m then (s.mix m).recall (nth s.safe m SafeMix.default) else s.mix m := by
  have hread := nth_mapFrom (fun k m => if s.mayWriteMix sl k then m.recall (nth s.safe k SafeMix.default) else m)
    0 m s.mixes Mix.reset Mix.reset hm
  rwa [zero_add] at hread

theorem State.mix_recallGroups_of_mayWrite {sl : SlotId} {s : State} {m : Nat} (hm : m < s.mixes.length)
    (hmay : s.MayWrite sl (8 + m / 4)) : (s.recallGroups sl).mix m = (s.mix m).recall (nth s.safe m SafeMix.default) :=
  (s.mix_recallGroups sl hm).trans (if_pos ((s.mayWriteMix_iff sl m).mpr hmay))

theorem State.mix_recallGroups_of_not_mayWrite {sl : SlotId} {s : State} {m : Nat} (hm : m < s.mixes.length)
    (hmay : ¬s.MayWrite sl (8 + m / 4)) : (s.recallGroups sl).mix m = s.mix m :=
  (s.mix_recallGroups sl hm).trans (if_neg (mt (s.mayWriteMix_iff sl m).mp hmay))

theorem Mix.xp_recall (safe : SafeMix) {m : Mix} {j : Nat} (hj : j < m.xps.length) :
    (m.recall safe).xp j = (m.xp j).write (nth safe.xps j none) := by
  have hread := nth_mapFrom (fun j (l : Level) => l.write (nth safe.xps j none)) 0 j m.xps Level.reset Level.reset hj
  rwa [zero_add] at hread

theorem State.Shaped.length_xps_mix {s : State} (h : s.Shaped) (m : Nat) : (s.mix m).xps.length = 66 :=
  forall_nth (fun x : Mix => x.xps.length = 66) s.mixes m Mix.reset h.crosspoints rfl

/-! ### The three outcomes -/

/-- The domains of the six mix groups (R152) are the ones the request tests. -/
theorem State.any_mixGroup_iff (sl : SlotId) (s : State) :
    ([8, 9, 10, 11, 12, 13].any fun d => (s.rightsTest sl d).isNone) = true ↔ ∃ dom, 8 ≤ dom ∧ dom ≤ 13 ∧ s.MayWrite sl dom := by
  have hgroups (d : Nat) : d ∈ [8, 9, 10, 11, 12, 13] ↔ 8 ≤ d ∧ d ≤ 13 := by
    simp only [List.mem_cons, List.not_mem_nil, or_false]
    omega
  simp only [List.any_eq_true, hgroups, State.rightsTest_isNone_iff, and_assoc]

theorem State.doRecall_of_not_active {sl : SlotId} {s : State} (h : s.slotState sl ≠ .active) :
    s.doRecall sl = Reply.refuse s .notAvailable := if_pos h

theorem State.doRecall_of_group {sl : SlotId} {s : State} (h : ∃ dom, 8 ≤ dom ∧ dom ≤ 13 ∧ s.MayWrite sl dom) :
    s.doRecall sl = { state := s.recallGroups sl, result := .done, data := .none } := by
  have hactive : s.slotState sl = .active := by
    obtain ⟨_, _, _, hactive, _⟩ := h
    exact hactive
  exact (if_neg (not_not_intro hactive)).trans (if_pos ((s.any_mixGroup_iff sl).mpr h))

theorem State.doRecall_of_no_group {sl : SlotId} {s : State} (hactive : s.slotState sl = .active)
    (h : ¬∃ dom, 8 ≤ dom ∧ dom ≤ 13 ∧ s.MayWrite sl dom) : s.doRecall sl = Reply.refuse s .notOwner :=
  (if_neg (not_not_intro hactive)).trans (if_neg (mt (s.any_mixGroup_iff sl).mp h))

/-- Settles O58: each of the three outcomes is its reply placed, and the mixes are read one by one after the recall. -/
theorem recallEffect : Obligations.RecallEffect := by
  intro sl tag s haccepts hshaped
  rw [exec_recallSafe_of_accepts haccepts]
  refine ⟨fun hidle => ?_, fun hgroup => ?_, fun hactive hnone => ?_⟩
  · rw [State.doRecall_of_not_active hidle]
    rfl
  · refine ⟨s.recallGroups sl, ?_, rfl, fun m hm => ?_⟩
    · rw [State.doRecall_of_group hgroup]
      rfl
    · have hlen : m < s.mixes.length := hshaped.mixes ▸ hm
      refine ⟨fun hmay => ?_, State.mix_recallGroups_of_not_mayWrite hlen⟩
      rw [State.mix_recallGroups_of_mayWrite hlen hmay]
      exact ⟨rfl, rfl, fun j hj => Mix.xp_recall _ (hshaped.length_xps_mix m ▸ hj)⟩
  · have hno : ¬∃ dom, 8 ≤ dom ∧ dom ≤ 13 ∧ s.MayWrite sl dom := fun ⟨dom, hlo, hhi, hmay⟩ => hnone dom hlo hhi hmay
    rw [State.doRecall_of_no_group hactive hno]
    rfl

end Sys2Proof.Machine

/-!
The claim requests (R156 to R159): what each comes to against the record of the domain it names, and its answer.
-/
namespace Sys2Proof.Machine

/-! ### A request answered by the rule of its kind -/

/-- The kinds whose answer is not placed by `Reply.place` (R165, R195, R197). -/
def Request.placesOwnAnswer : Request → Bool
  | .batchApply => true
  | .store _ => true
  | .restart => true
  | _ => false

theorem State.answerRequest_of_started {sl : SlotId} {s : State} {r : Request} (hstarted : s.started = true)
    (hpanel : r.panelOnly = true → sl = .panel) (hplace : r.placesOwnAnswer = false) (tag : Byte) :
    s.answerRequest sl tag r = (s.perform sl r).place sl tag r.kind := by
  have hready : ¬s.started = false := by simp [hstarted]
  have hallowed : ¬(r.panelOnly && decide (sl ≠ .panel)) = true := by simpa using hpanel
  unfold State.answerRequest
  rw [if_neg hready, if_neg hallowed]
  cases r
  case batchApply => cases hplace
  case store => cases hplace
  case restart => cases hplace
  all_goals rfl

/-- An accepted request whose rule gives a state and a result is answered with that result and no data. -/
theorem live_takeRequest_of_perform {sl : SlotId} {s t : State} {r : Request} {x : Result} (h : s.Accepts sl)
    (hpanel : r.panelOnly = true → sl = .panel) (hplace : r.placesOwnAnswer = false)
    (hperform : s.perform sl r = Reply.plain (t, x)) (tag : Byte) :
    live (State.takeRequest sl tag r) s = .next (t.answer sl tag r.kind x .none) := by
  obtain ⟨hpower, hstarted, hroom⟩ := h
  calc live (State.takeRequest sl tag r) s
    _ = .next (s.takeRequest sl tag r) := if_pos hpower
    _ = .next (s.answerRequest sl tag r) := by rw [State.takeRequest_of_hasRoom hroom]
    _ = .next ((s.perform sl r).place sl tag r.kind) := by rw [State.answerRequest_of_started hstarted hpanel hplace]
    _ = .next (t.answer sl tag r.kind x .none) := by rw [hperform]; rfl

section
variable {sl : SlotId} {s t : State} {d : Byte} {x : Result} (h : s.Accepts sl) (tag : Byte)
include h

theorem exec_claim_of_accepts (hclaim : s.claim sl d.toNat = (t, x)) :
    exec (.claim sl tag d) s = .next (t.answer sl tag 0x20#8 x .none) :=
  live_takeRequest_of_perform (r := .claim d.toNat) h nofun rfl (congrArg Reply.plain hclaim) tag

theorem exec_release_of_accepts (hrelease : s.release sl d.toNat = (t, x)) :
    exec (.release sl tag d) s = .next (t.answer sl tag 0x21#8 x .none) :=
  live_takeRequest_of_perform (r := .release d.toNat) h nofun rfl (congrArg Reply.plain hrelease) tag

theorem exec_forceRelease_of_accepts (hpanel : sl = .panel) (hrelease : s.forceRelease d.toNat = (t, x)) :
    exec (.forceRelease sl tag d) s = .next (t.answer sl tag 0x22#8 x .none) :=
  live_takeRequest_of_perform (r := .forceRelease d.toNat) h (fun _ => hpanel) rfl (congrArg Reply.plain hrelease) tag

theorem exec_clearTrespass_of_accepts (hclear : s.clearTrespass sl d.toNat = (t, x)) :
    exec (.clearTrespass sl tag d) s = .next (t.answer sl tag 0x23#8 x .none) :=
  live_takeRequest_of_perform (r := .clearTrespass d.toNat) h nofun rfl (congrArg Reply.plain hclear) tag

end

/-! ### The rows of each rule -/

section
variable {sl : SlotId} {s : State} {dom : Nat}

theorem State.claim_of_no_domain (hdom : 16 ≤ dom) : s.claim sl dom = (s, .badValue) := if_pos hdom

theorem State.claim_of_not_active (hdom : dom < 16) (hidle : s.slotState sl ≠ .active) : s.claim sl dom = (s, .notAvailable) :=
  (if_neg hdom.not_ge).trans (if_pos hidle)

theorem State.claim_of_owned {o : SlotId} (hdom : dom < 16) (hactive : s.slotState sl = .active)
    (howner : (s.domain dom).owner = some o) : s.claim sl dom = (s, if o = sl then .granted else .claimedByOther) := by
  unfold State.claim
  rw [if_neg hdom.not_ge, if_neg (not_not_intro hactive), howner]
  exact (apply_ite (Prod.mk s) ..).symm

theorem State.claim_of_unowned (hdom : dom < 16) (hactive : s.slotState sl = .active) (howner : (s.domain dom).owner = none) :
    s.claim sl dom = (s.modDomain dom fun _ => { Domain.reset with owner := some sl }, .granted) := by
  unfold State.claim
  rw [if_neg hdom.not_ge, if_neg (not_not_intro hactive), howner]

theorem State.release_of_no_domain (hdom : 16 ≤ dom) : s.release sl dom = (s, .badValue) := if_pos hdom

theorem State.release_of_owner (hdom : dom < 16) (howner : (s.domain dom).owner = some sl) :
    s.release sl dom = (s.freeDomain dom, .done) := (if_neg hdom.not_ge).trans (if_pos howner)

theorem State.release_of_not_owner (hdom : dom < 16) (howner : (s.domain dom).owner ≠ some sl) :
    s.release sl dom = (s, .notOwner) := (if_neg hdom.not_ge).trans (if_neg howner)

theorem State.clearTrespass_of_no_domain (hdom : 16 ≤ dom) : s.clearTrespass sl dom = (s, .badValue) := if_pos hdom

theorem State.clearTrespass_of_owner (hdom : dom < 16) (howner : (s.domain dom).owner = some sl) :
    s.clearTrespass sl dom = (s.modDomain dom fun d => { d with trespass := false, count := 0 }, .done) :=
  (if_neg hdom.not_ge).trans (if_pos howner)

theorem State.clearTrespass_of_not_owner (hdom : dom < 16) (howner : (s.domain dom).owner ≠ some sl) :
    s.clearTrespass sl dom = (s, .notOwner) := (if_neg hdom.not_ge).trans (if_neg howner)

theorem State.forceRelease_of_no_domain (hdom : 16 ≤ dom) : s.forceRelease dom = (s, .badValue) := if_pos hdom

theorem State.forceRelease_of_domain (hdom : dom < 16) :
    s.forceRelease dom = ({ s.freeDomain dom with
      batches := { s.batches with desks := s.batches.desks.map fun _ b => b.dropDomain dom } }, .done) := if_neg hdom.not_ge

end

/-- What leaves the staging list and is counted as dropped is what is staged for the domain (R158). -/
theorem Batch.dropDomain_eq (dom : Nat) (b : Batch) :
    b.dropDomain dom = { b with
      staged := b.staged.filter fun e => decide (e.domain ≠ some dom),
      dropped := satAdd 65535 b.dropped (b.staged.filter fun e => decide (e.domain = some dom)).length } := by
  have hsplit := List.length_eq_length_filter_add (l := b.staged) fun e => decide (e.domain = some dom)
  simp only [← decide_not] at hsplit
  have hdropped : b.staged.length - (b.staged.filter fun e => decide (e.domain ≠ some dom)).length =
      (b.staged.filter fun e => decide (e.domain = some dom)).length := Nat.sub_eq_of_eq_add hsplit
  rw [← hdropped]
  rfl

/-- Settles O53: each clause is one row of the request's rule, answered. -/
theorem claimRequests : Obligations.ClaimRequests := by
  refine ⟨fun sl tag d s h => ⟨fun hdom => ?_, fun hdom hidle => ?_, fun hdom hactive howner => ?_,
    fun hdom hactive howner => ?_, fun o hdom hactive howner hother => ?_⟩,
    fun sl tag d s h => ⟨fun hdom => ⟨?_, ?_, fun hpanel => ?_⟩, fun hdom howner => ⟨?_, ?_⟩,
      fun hdom howner => ⟨?_, ?_⟩, fun hdom hpanel => ?_⟩⟩
  · exact exec_claim_of_accepts h tag (State.claim_of_no_domain hdom)
  · exact exec_claim_of_accepts h tag (State.claim_of_not_active hdom hidle)
  · rw [exec_claim_of_accepts h tag (State.claim_of_owned hdom hactive howner), if_pos rfl]
  · exact exec_claim_of_accepts h tag (State.claim_of_unowned hdom hactive howner)
  · rw [exec_claim_of_accepts h tag (State.claim_of_owned hdom hactive howner), if_neg hother]
  · exact exec_release_of_accepts h tag (State.release_of_no_domain hdom)
  · exact exec_clearTrespass_of_accepts h tag (State.clearTrespass_of_no_domain hdom)
  · exact exec_forceRelease_of_accepts h tag hpanel (State.forceRelease_of_no_domain hdom)
  · exact exec_release_of_accepts h tag (State.release_of_owner hdom howner)
  · exact exec_clearTrespass_of_accepts h tag (State.clearTrespass_of_owner hdom howner)
  · exact exec_release_of_accepts h tag (State.release_of_not_owner hdom howner)
  · exact exec_clearTrespass_of_accepts h tag (State.clearTrespass_of_not_owner hdom howner)
  · rw [exec_forceRelease_of_accepts h tag hpanel (State.forceRelease_of_domain hdom), funext fun _ => funext (Batch.dropDomain_eq _)]
    rfl

end Sys2Proof.Machine

/-!
The laws of single records and of the queues (R44, R48, R71, R86, R123, R162, R172, R186). `KeepsRecords` says of two states that
the second breaks none of them that the first obeys; each operation is gone through once, and every law of a record follows.
-/
namespace Sys2Proof.Machine

/-- The record laws of `s` hold in `t` too, and no queue holds more than it did, or than `n`. A request's own rule never lengthens a
queue, so it is gone through with any `n`; its answer, the reports and the digests fill a queue up to its 32 places. -/
structure KeepsRecords (n : Nat) (s t : State) : Prop where
  shape : s.Shaped → t.Shaped
  trims : s.CompLawful → t.CompLawful
  outputs : s.OutputsLawful → t.OutputsLawful
  batches : s.BatchesLawful → t.BatchesLawful
  panel : t.panelPlaces ≤ max s.panelPlaces n
  answers : ∀ d, (t.lane d).answers.length ≤ max (s.lane d).answers.length n

/-- The fields that the record laws and the places of the queues are read from. -/
def State.records (s : State) :=
  (s.cards, s.channels, s.comp, s.mixes, s.outputs, s.domains, s.meter, s.batches, s.panelQueue, s.panelReserved, s.lanes)

namespace KeepsRecords

variable {n : Nat} {s₀ s t : State}

theorem refl (n : Nat) (s : State) : KeepsRecords n s s :=
  { shape := id, trims := id, outputs := id, batches := id, panel := le_max_left .., answers := fun _ => le_max_left .. }

theorem trans (h : KeepsRecords n s₀ s) (h' : KeepsRecords n s t) : KeepsRecords n s₀ t :=
  { shape := h'.shape ∘ h.shape, trims := h'.trims ∘ h.trims, outputs := h'.outputs ∘ h.outputs,
    batches := h'.batches ∘ h.batches,
    panel := h'.panel.trans (max_le h.panel (le_max_right ..)),
    answers := fun d => (h'.answers d).trans (max_le (h.answers d) (le_max_right ..)) }

/-! ### Changes of one field -/

/-- A change of fields that no record law reads. -/
theorem congr (h : KeepsRecords n s₀ s) (hsame : t.records = s.records) : KeepsRecords n s₀ t := by
  simp only [State.records, Prod.mk.injEq] at hsame
  obtain ⟨hcards, hchannels, hcomp, hmixes, houtputs, hdomains, hmeter, hbatches, hqueue, hreserved, hlanes⟩ := hsame
  refine h.trans ⟨fun hs => ?_, fun hs => ?_, fun hs => ?_, fun hs sl => ?_, ?_, fun d => ?_⟩
  · exact
      { cards := hcards ▸ hs.cards, channels := hchannels ▸ hs.channels, comp := hcomp ▸ hs.comp, mixes := hmixes ▸ hs.mixes,
        crosspoints := hmixes ▸ hs.crosspoints, outputs := houtputs ▸ hs.outputs, domains := hdomains ▸ hs.domains,
        viewPeaks := hmeter ▸ hs.viewPeaks, viewClips := hmeter ▸ hs.viewClips, mixPeaks := hmeter ▸ hs.mixPeaks,
        outPeaks := hmeter ▸ hs.outPeaks, returnPeaks := hmeter ▸ hs.returnPeaks }
  · unfold State.CompLawful
    rw [hcomp]
    exact hs
  · unfold State.OutputsLawful
    rw [houtputs]
    exact hs
  · unfold State.batch
    rw [hbatches]
    exact hs sl
  · unfold State.panelPlaces
    rw [hqueue, hreserved]
    exact le_max_left ..
  · unfold State.lane
    rw [hlanes]
    exact le_max_left ..

/-- A change of the panel's queue that takes no more places. -/
theorem setPanelQueue (h : KeepsRecords n s₀ s) (q : List PanelMsg) (hq : q.length + s.panelReserved ≤ s.panelPlaces) :
    KeepsRecords n s₀ { s with panelQueue := q } :=
  h.trans { refl n s with shape := fun hs => { hs with }, panel := le_max_of_le_left hq }

theorem modPort (h : KeepsRecords n s₀ s) (p : LinkPort) (f : Port → Port) : KeepsRecords n s₀ (s.modPort p f) := h.congr rfl

theorem modSlot (h : KeepsRecords n s₀ s) (d : Desk) (f : Slot → Slot) : KeepsRecords n s₀ (s.modSlot d f) := h.congr rfl

theorem modBus (h : KeepsRecords n s₀ s) (b : Bus) (f : BusRec → BusRec) : KeepsRecords n s₀ (s.modBus b f) := h.congr rfl

theorem modLane (h : KeepsRecords n s₀ s) (d : Desk) (f : Lane → Lane) (hf : ∀ l, (f l).answers.length ≤ l.answers.length) :
    KeepsRecords n s₀ (s.modLane d f) :=
  h.trans
    { refl n s with
      shape := fun hs => { hs with }, trims := id, outputs := id, batches := id,
      panel := le_max_left ..,
      answers := fun e => by
        rw [State.lane_modLane]
        split
        next hd => subst hd; exact (hf _).trans (le_max_left ..)
        · exact le_max_left .. }

/-- A change of a lane that leaves its answers. -/
theorem modLane_answers (h : KeepsRecords n s₀ s) (d : Desk) (f : Lane → Lane) (hf : ∀ l, (f l).answers = l.answers) :
    KeepsRecords n s₀ (s.modLane d f) :=
  h.modLane d f fun l => (congrArg List.length (hf l)).le

theorem modChannel (h : KeepsRecords n s₀ s) (i : Nat) (f : Channel → Channel) : KeepsRecords n s₀ (s.modChannel i f) :=
  h.trans { refl n s with shape := fun hs => { hs with channels := (length_modNth ..).trans hs.channels } }

theorem modCard (h : KeepsRecords n s₀ s) (c : Nat) (f : Card → Card) : KeepsRecords n s₀ (s.modCard c f) :=
  h.trans { refl n s with shape := fun hs => { hs with cards := (length_modNth ..).trans hs.cards } }

theorem modDomain (h : KeepsRecords n s₀ s) (k : Nat) (f : Domain → Domain) : KeepsRecords n s₀ (s.modDomain k f) :=
  h.trans { refl n s with shape := fun hs => { hs with domains := (length_modNth ..).trans hs.domains } }

theorem modComp (h : KeepsRecords n s₀ s) (i : Nat) (f : InputComp → InputComp)
    (hf : ∀ ic : InputComp, (∀ c, (ic.cells.get c).Lawful) → ∀ c, ((f ic).cells.get c).Lawful) :
    KeepsRecords n s₀ (s.modComp i f) :=
  h.trans { refl n s with
    shape := fun hs => { hs with comp := (length_modNth ..).trans hs.comp }, trims := fun hs => hs.modComp i f hf }

theorem modCell (h : KeepsRecords n s₀ s) (i : Nat) (c : Fin 4) (f : Int → Cell → Cell)
    (hf : ∀ e c, Cell.Lawful c → (f e c).Lawful) : KeepsRecords n s₀ (s.modCell i c f) :=
  h.modComp i _ fun _ hic => lawful_setCell hic _ _ (hf _ _ (hic c))

theorem modMix (h : KeepsRecords n s₀ s) (k : Nat) (f : Mix → Mix) (hf : ∀ m, (f m).xps.length = m.xps.length) :
    KeepsRecords n s₀ (s.modMix k f) :=
  h.trans { refl n s with
    shape := fun hs => { hs with
      mixes := (length_modNth ..).trans hs.mixes,
      crosspoints := forall_modNth _ f (fun m hm => (hf m).trans hm) _ k hs.crosspoints } }

theorem modOutput (h : KeepsRecords n s₀ s) (o : Nat) (f : Output → Output) (hf : ∀ o, Output.Lawful o → (f o).Lawful) :
    KeepsRecords n s₀ (s.modOutput o f) :=
  h.trans { refl n s with
    shape := fun hs => { hs with outputs := (length_modNth ..).trans hs.outputs }, outputs := fun hs => hs.modOutput o f hf }

theorem mapOutputs (h : KeepsRecords n s₀ s) (f : Output → Output) (hf : ∀ o, Output.Lawful o → (f o).Lawful) :
    KeepsRecords n s₀ { s with outputs := s.outputs.map f } :=
  h.trans { refl n s with
    shape := fun hs => { hs with outputs := (List.length_map ..).trans hs.outputs },
    outputs := fun hs => List.forall_mem_map.mpr fun o ho => hf o (hs o ho) }

theorem setBatch (h : KeepsRecords n s₀ s) (sl : SlotId) (b : Batch) (hb : s.BatchesLawful → b.Lawful) :
    KeepsRecords n s₀ (s.setBatch sl b) :=
  h.trans { refl n s with shape := fun hs => { hs with }, batches := fun hs => hs.setBatch sl b (hb hs) }

theorem foldOver {α : Type} (h : KeepsRecords n s₀ s) (f : α → State → State)
    (hf : ∀ x {s}, KeepsRecords n s₀ s → KeepsRecords n s₀ (f x s)) (l : List α) : KeepsRecords n s₀ (State.foldOver f l s) :=
  State.foldOver_keeps (KeepsRecords n s₀) f (fun x _ hs => hf x hs) l s h

end KeepsRecords
end Sys2Proof.Machine

namespace Sys2Proof.Machine
namespace KeepsRecords

variable {n : Nat} {s₀ s t : State}

/-! ### Outputs, compensation and levels -/

theorem sourceLost (h : KeepsRecords n s₀ s) (code : Nat) : KeepsRecords n s₀ (s.sourceLost code) :=
  h.mapOutputs _ fun o ho => by
    have ho1 : (if o.primary = code then o.primaryLost (s.fallbackAvailable o) else o).Lawful := by
      split
      · exact ho.primaryLost _
      · exact ho
    dsimp only
    split
    · exact ho1.fallbackLost
    · exact ho1

theorem sourceRegained (h : KeepsRecords n s₀ s) (code : Nat) : KeepsRecords n s₀ (s.sourceRegained code) :=
  h.mapOutputs _ fun o ho => by
    have ho1 : (if o.primary = code then o.primaryRegained s.revertTime else o).Lawful := by
      split
      · exact ho.primaryRegained _
      · exact ho
    dsimp only
    split
    · exact ho1.fallbackRegained
    · exact ho1

theorem returnsLost (h : KeepsRecords n s₀ s) (d : Desk) : KeepsRecords n s₀ (s.returnsLost d) :=
  h.foldOver _ (fun _ _ hs => hs.sourceLost _) _

theorem returnsRegained (h : KeepsRecords n s₀ s) (d : Desk) : KeepsRecords n s₀ (s.returnsRegained d) :=
  h.foldOver _ (fun _ _ hs => hs.sourceRegained _) _

theorem writePrimary (h : KeepsRecords n s₀ s) (o code : Nat) : KeepsRecords n s₀ (s.writePrimary o code) := by
  unfold State.writePrimary
  split
  · exact h
  · exact h.modOutput _ _ fun o ho => Output.Lawful.selectAfresh (ho.congr (r := { o with primary := code }) rfl rfl rfl rfl) _ _

theorem writeFallback (h : KeepsRecords n s₀ s) (o code : Nat) : KeepsRecords n s₀ (s.writeFallback o code) := by
  unfold State.writeFallback
  extract_lets f
  split
  · exact h
  · exact .modOutput h _ _ fun o ho => Output.Lawful.selectAfresh (ho.congr (r := { o with fallback := f }) rfl rfl rfl rfl) _ _

theorem setPatch (h : KeepsRecords n s₀ s) (o primary : Nat) (fallback : Option Nat) (level : Option Int) (ov : Override) :
    KeepsRecords n s₀ (s.setPatch o primary fallback level ov) :=
  h.modOutput _ _ fun o ho =>
    { shares := by dsimp only; split <;> [omega; (split <;> omega)], gate := ho.gate, phase := ho.phase }

theorem rebaseInputs (h : KeepsRecords n s₀ s) (col : Fin 4) (first last : Nat) :
    KeepsRecords n s₀ (s.rebaseInputs col first last) :=
  h.trans { refl n s with
    shape := fun hs => { hs with comp := (length_mapFrom ..).trans hs.comp }, trims := fun hs => hs.rebaseInputs col first last }

theorem resetColumn (h : KeepsRecords n s₀ s) (col : Fin 4) : KeepsRecords n s₀ (s.resetColumn col) :=
  h.trans { refl n s with
    shape := fun hs => { hs with comp := (List.length_map ..).trans hs.comp }, trims := fun hs => hs.resetColumn col }

theorem modLevel (h : KeepsRecords n s₀ s) (r : LevelRef) (f : Level → Level) : KeepsRecords n s₀ (s.modLevel r f) := by
  cases r with
  | crosspoint j m => exact h.modMix _ _ fun m => length_modNth ..
  | master m => exact h.modMix _ _ fun _ => rfl
  | output o => exact h.modOutput _ _ fun _ ho => ho.congr rfl rfl rfl rfl

theorem duckReleaseStep (h : KeepsRecords n s₀ s) (k : Fin 24) : KeepsRecords n s₀ (s.duckReleaseStep k) :=
  h.modMix _ _ fun m => by
    unfold Mix.releaseEarly Mix.moveDuck Mix.aimDuck
    repeat' split
    all_goals rfl

/-! ### Answers, claims and batches -/

theorem completeApply (h : KeepsRecords n s₀ s) (sl : SlotId) (r : Result) (applied dropped : Nat) :
    KeepsRecords n s₀ (s.completeApply sl r applied dropped) := by
  cases sl with
  | panel => exact h.setPanelQueue _ (by simp [State.panelPlaces])
  | desk d => exact .modLane h d (fun l => { l with answers := completeIn r applied dropped l.answers }) fun l => (completeIn_length ..).le

theorem offerPanel (h : KeepsRecords n s₀ s) (hn : 32 ≤ n) (isKind : PanelMsg → Bool) (m : PanelMsg) :
    KeepsRecords n s₀ (s.offerPanel isKind m) := by
  unfold State.offerPanel
  split
  next q hq =>
    have hlen := replaceIn_length _ _ _ _ hq
    exact h.setPanelQueue _ (by simp [State.panelPlaces, hlen])
  · split
    next hr =>
      have hr : s.panelQueue.length + s.panelReserved < 32 := of_decide_eq_true hr
      refine h.trans { refl n s with shape := fun hs => { hs with }, panel := le_max_of_le_right ?_ }
      simp only [State.panelPlaces, List.length_append, List.length_singleton]
      omega
    · exact h

theorem checkDomains (sl : SlotId) : ∀ (ds : List Nat) {s : State}, KeepsRecords n s₀ s → KeepsRecords n s₀ (s.checkDomains sl ds).1
  | [], _, h => h
  | d :: ds, s, h => by
    refine checkDomains sl ds ?_
    split
    · split
      · exact h.modDomain _ _
      · exact h
    · exact h

theorem claim (h : KeepsRecords n s₀ s) (sl : SlotId) (dom : Nat) : KeepsRecords n s₀ (s.claim sl dom).1 := by
  unfold State.claim
  split
  · exact h
  split
  · exact h
  split
  · split <;> exact h
  · exact h.modDomain _ _

theorem release (h : KeepsRecords n s₀ s) (sl : SlotId) (dom : Nat) : KeepsRecords n s₀ (s.release sl dom).1 := by
  unfold State.release
  split
  · exact h
  split
  · exact h.modDomain _ _
  · exact h

theorem forceRelease (h : KeepsRecords n s₀ s) (dom : Nat) : KeepsRecords n s₀ (s.forceRelease dom).1 := by
  unfold State.forceRelease
  split
  · exact h
  · refine (h.modDomain dom fun _ => Domain.reset).trans { refl n _ with shape := fun hs => { hs with }, batches := fun hs sl => ?_ }
    cases sl with
    | panel => exact hs .panel
    | desk d =>
      have hd := (hs (.desk d)).dropDomain dom
      cases d <;> exact hd

theorem clearTrespass (h : KeepsRecords n s₀ s) (sl : SlotId) (dom : Nat) : KeepsRecords n s₀ (s.clearTrespass sl dom).1 := by
  unfold State.clearTrespass
  split
  · exact h
  split
  · exact h.modDomain _ _
  · exact h

theorem freeDomainsOf (h : KeepsRecords n s₀ s) (sl : SlotId) : KeepsRecords n s₀ (s.freeDomainsOf sl) :=
  h.trans { refl n s with shape := fun hs => { hs with domains := (List.length_map ..).trans hs.domains } }

theorem batchOpen (h : KeepsRecords n s₀ s) (sl : SlotId) : KeepsRecords n s₀ (s.batchOpen sl).1 := by
  unfold State.batchOpen
  split
  · exact h
  split
  · exact h.setBatch _ _ fun _ => ⟨by decide, nofun⟩
  · exact h
  · exact h

theorem batchDrop (h : KeepsRecords n s₀ s) (sl : SlotId) : KeepsRecords n s₀ (s.batchDrop sl).1 := by
  unfold State.batchDrop
  split
  · exact h
  · exact h.setBatch _ _ fun _ => Batch.reset_lawful
  · exact h

theorem stage (h : KeepsRecords n s₀ s) (sl : SlotId) (es : List Staged) (ho : s.staging sl = true)
    (hr : s.stagingRoom sl es.length = true) : KeepsRecords n s₀ (s.stage sl es) :=
  h.trans { refl n s with shape := fun hs => { hs with }, batches := fun hs => hs.stage sl es ho hr }

theorem discardBatch (h : KeepsRecords n s₀ s) (sl : SlotId) : KeepsRecords n s₀ (s.discardBatch sl) := by
  unfold State.discardBatch
  split
  · exact h
  · exact h.setBatch _ _ fun _ => Batch.reset_lawful
  · exact (h.completeApply ..).setBatch _ _ fun _ => Batch.reset_lawful

/-! ### Talkback, digests and meters -/

theorem talkPress (h : KeepsRecords n s₀ s) (sl : SlotId) (b : Nat) : KeepsRecords n s₀ (s.talkPress sl b).1 := by
  unfold State.talkPress
  split
  · exact h
  split
  · exact h
  · dsimp only
    exact h.modBus _ _

theorem talkRelease (h : KeepsRecords n s₀ s) (sl : SlotId) (b : Nat) : KeepsRecords n s₀ (s.talkRelease sl b).1 := by
  unfold State.talkRelease
  split
  · exact h
  · dsimp only
    exact h.modBus _ _

theorem clearNotices (h : KeepsRecords n s₀ s) (sl : SlotId) : KeepsRecords n s₀ (s.clearNotices sl) := by
  unfold State.clearNotices
  cases sl with
  | panel => exact h.congr rfl
  | desk d =>
    dsimp only
    exact .modLane_answers (.congr h (by rfl)) _ _ fun _ => by rfl

theorem buildDigest_desk (h : KeepsRecords n s₀ s) (d : Desk) : KeepsRecords n s₀ (s.buildDigest (.desk d)) :=
  .modLane_answers (h.clearNotices (.desk d)) d (fun l => { l with tx := { l.tx with pendingDigest := some _ } }) fun _ => rfl

theorem buildDigest (h : KeepsRecords n s₀ s) (hn : 32 ≤ n) (sl : SlotId) : KeepsRecords n s₀ (s.buildDigest sl) := by
  cases sl with
  | panel => exact (h.clearNotices _).offerPanel hn _ _
  | desk d => exact h.buildDigest_desk d

theorem digestCadence (h : KeepsRecords n s₀ s) (hn : 32 ≤ n) : KeepsRecords n s₀ s.digestCadence := by
  unfold State.digestCadence
  split
  · refine .foldOver (.congr h (by rfl)) _ (fun sl _ hs => ?_) _
    split
    · exact hs.buildDigest hn sl
    · exact hs
  · exact h

theorem handReports (h : KeepsRecords n s₀ s) (hn : 32 ≤ n) (count : Word) (src : State) :
    KeepsRecords n s₀ (State.handReports count src s) := by
  have hdesks : KeepsRecords n s₀ (State.foldOver (fun d s =>
      if (src.slot d).state = .active then
        s.modLane d fun l => { l with tx := { l.tx with pendingMeter := some (src.meterBody count (.desk d)) } }
      else s) Desk.all s) := by
    refine h.foldOver _ (fun d _ hs => ?_) _
    split
    · exact .modLane_answers hs _ _ fun _ => by rfl
    · exact hs
  unfold State.handReports
  split
  · exact hdesks.offerPanel hn _ _
  · exact hdesks

theorem clearMeters (h : KeepsRecords n s₀ s) : KeepsRecords n s₀ s.clearMeters :=
  h.trans { refl n s with
    shape := fun hs => { hs with
      mixes := (List.length_map ..).trans hs.mixes, crosspoints := List.forall_mem_map.mpr hs.crosspoints,
      outputs := (List.length_map ..).trans hs.outputs,
      viewPeaks := List.length_replicate .., viewClips := List.length_replicate .., mixPeaks := List.length_replicate ..,
      outPeaks := List.length_replicate .., returnPeaks := fun d => by cases d <;> rfl }
    outputs := fun hs => List.forall_mem_map.mpr fun o ho => (hs o ho).congr rfl rfl rfl rfl }

theorem meterPeriodEnd (h : KeepsRecords n s₀ s) (hn : 32 ≤ n) : KeepsRecords n s₀ s.meterPeriodEnd := by
  unfold State.meterPeriodEnd
  dsimp only
  split
  · have hreports : KeepsRecords n s₀ { s.handReports (s.meter.periodCount + 1) s with
        overs := markOvers s.clipped (s.handReports (s.meter.periodCount + 1) s).overs } := (h.handReports hn _ s).congr rfl
    exact hreports.clearMeters.trans { refl n _ with shape := fun hs => { hs with } }
  · exact h

theorem meterAdmission (h : KeepsRecords n s₀ s) (d : Desk) : KeepsRecords n s₀ (s.meterAdmission d) :=
  h.trans { refl n s with
    shape := fun hs => { hs with
      returnPeaks := fun e => by
        show (((s.meter.returnPeaks.set d (List.replicate 16 0)).get e).length = 16)
        rw [PerDesk.get_set]
        split
        · rfl
        · exact hs.returnPeaks e } }

/-! ### The attachment unit -/

theorem switchover (h : KeepsRecords n s₀ s) (d : Desk) (q : LinkPort) : KeepsRecords n s₀ (s.switchover d q) := by
  unfold State.switchover
  dsimp only
  split
  · exact .modPort (.modSlot h _ _) _ _
  · exact .modSlot (.modLane_answers (.modSlot h _ _) _ _ fun _ => by rfl) _ _

theorem recheck (h : KeepsRecords n s₀ s) (d : Desk) : KeepsRecords n s₀ (s.recheck d) := by
  unfold State.recheck
  dsimp only
  split
  · split
    · split
      · exact h.switchover _ _
      · exact h
    · exact h
  · exact h

theorem leaveBuses (h : KeepsRecords n s₀ s) (sl : SlotId) : KeepsRecords n s₀ (s.leaveBuses sl) := .congr h rfl

theorem becomeSilent (h : KeepsRecords n s₀ s) (d : Desk) : KeepsRecords n s₀ (s.becomeSilent d) := by
  unfold State.becomeSilent
  dsimp only
  exact .returnsLost (.discardBatch (.leaveBuses (.modLane_answers (.modSlot h _ _) _ _ fun _ => by rfl) _) _) _

theorem revive (h : KeepsRecords n s₀ s) (d : Desk) (p : LinkPort) : KeepsRecords n s₀ (s.revive d p) :=
  .buildDigest_desk (.returnsRegained (.modSlot h _ _) _) _

theorem bindStep1 (h : KeepsRecords n s₀ s) (d : Desk) (p : LinkPort) : KeepsRecords n s₀ (s.bindStep1 d p) := by
  have after {t : State} (ht : KeepsRecords n s₀ t) :
      KeepsRecords n s₀ (if (s.slot d).state = .silent then t.revive d p else t.recheck d) := by
    split
    · exact ht.revive _ _
    · exact ht.recheck _
  unfold State.bindStep1
  dsimp only
  split
  · exact after (h.modSlot _ _)
  · split
    · exact after (h.modSlot _ _)
    · exact h

theorem enroll (h : KeepsRecords n s₀ s) (d : Desk) (p : LinkPort) (x : DeskId) (asked : Role) :
    KeepsRecords n s₀ (s.enroll d p x asked) := by
  unfold State.enroll
  dsimp only
  refine .buildDigest_desk (.foldOver ?_ _ (fun q _ hs => hs.bindStep1 d q) _) d
  exact .returnsRegained (.meterAdmission (.modLane_answers (.congr h (by rfl)) _ _ fun _ => by rfl) _) _

theorem lockUnbound (h : KeepsRecords n s₀ s) (p : LinkPort) (x : DeskId) (asked : Role) :
    KeepsRecords n s₀ (s.lockUnbound p x asked) := by
  unfold State.lockUnbound
  split
  · exact h.bindStep1 _ _
  split
  · exact h.enroll _ _ _ _
  split
  · exact h
  · exact h.congr rfl

theorem lockEvent (h : KeepsRecords n s₀ s) (p : LinkPort) (x : DeskId) (asked : Role) :
    KeepsRecords n s₀ (s.lockEvent p x asked) := by
  unfold State.lockEvent
  split
  · split
    · split
      · exact h.revive _ _
      · exact h.recheck _
    · exact (h.modSlot _ _).lockUnbound _ _ _
  · exact h.lockUnbound _ _ _

theorem loseActive (h : KeepsRecords n s₀ s) (d : Desk) (other : Option LinkPort) : KeepsRecords n s₀ (s.loseActive d other) := by
  unfold State.loseActive
  split
  · split
    · exact h.switchover _ _
    · exact h.becomeSilent _
  · exact h.becomeSilent _

theorem lossEvent (h : KeepsRecords n s₀ s) (p : LinkPort) : KeepsRecords n s₀ (s.lossEvent p) := by
  have hlist : KeepsRecords n s₀ { s with waitList := s.waitList.filter (· ≠ p) } := h.congr rfl
  unfold State.lossEvent
  dsimp only
  split
  · exact hlist
  next d _ =>
    have hplace (o : Option LinkPort) : KeepsRecords n s₀ (match o with
        | some q => { s with waitList := s.waitList.filter (· ≠ p) }.modSlot d (Slot.replaceBound p q)
        | none => { s with waitList := s.waitList.filter (· ≠ p) }) := by
      cases o with
      | none => exact hlist
      | some q => exact hlist.modSlot _ _
    split
    · exact (hplace _).loseActive _ _
    · split
      · exact (hplace _).recheck _
      · exact hplace _

theorem qualityEvent (h : KeepsRecords n s₀ s) (p : LinkPort) : KeepsRecords n s₀ (s.qualityEvent p) := by
  unfold State.qualityEvent
  split
  · exact h.recheck _
  · exact h

theorem fadeOutEnd (h : KeepsRecords n s₀ s) (d : Desk) : KeepsRecords n s₀ (s.fadeOutEnd d) := by
  unfold State.fadeOutEnd
  split
  · exact h.modSlot _ _
  · exact h

theorem fadeInEnd (h : KeepsRecords n s₀ s) (d : Desk) : KeepsRecords n s₀ (s.fadeInEnd d) := by
  unfold State.fadeInEnd
  split
  · exact (h.modSlot _ _).recheck _
  · exact h

theorem admitWaiting (h : KeepsRecords n s₀ s) (d : Desk) : KeepsRecords n s₀ (s.admitWaiting d) := by
  unfold State.admitWaiting
  split
  · split
    · exact h.enroll _ _ _ _
    · exact h
  · exact h

theorem graceExpiry (h : KeepsRecords n s₀ s) (d : Desk) : KeepsRecords n s₀ (s.graceExpiry d) := by
  have hvacate : KeepsRecords n s₀ (s.vacate d) :=
    .admitWaiting (.resetColumn (.freeDomainsOf (.modLane (.modSlot h _ _) _ _ fun _ => Nat.zero_le _) _) _) _
  unfold State.graceExpiry
  split
  · split
    · exact hvacate
    · exact h
  · exact h

theorem preferFor (h : KeepsRecords n s₀ s) (d : Desk) (p : LinkPort) : KeepsRecords n s₀ (s.preferFor d p).1 := by
  unfold State.preferFor
  dsimp only
  repeat' split
  all_goals first | exact h | exact h.switchover _ _

theorem pathPrefer (h : KeepsRecords n s₀ s) (sl : SlotId) (code : Nat) : KeepsRecords n s₀ (s.pathPrefer sl code).1 := by
  unfold State.pathPrefer
  split
  · exact h
  split
  · exact h.preferFor _ _
  split
  · exact h.preferFor _ _
  · exact h

end KeepsRecords
end Sys2Proof.Machine

namespace Sys2Proof.Machine
namespace KeepsRecords

variable {n : Nat} {s₀ s t : State}

/-! ### The front end -/

theorem queueIfDiffers (h : KeepsRecords n s₀ s) (i : Fin 64) : KeepsRecords n s₀ (s.queueIfDiffers i) := by
  unfold State.queueIfDiffers
  split
  · exact .congr (h.modChannel i _) rfl
  · exact h

theorem queueIfReady (h : KeepsRecords n s₀ s) (i : Fin 64) : KeepsRecords n s₀ (s.queueIfReady i) := by
  unfold State.queueIfReady
  split
  · exact h.queueIfDiffers i
  · exact h

theorem writeDesired (h : KeepsRecords n s₀ s) (i : Fin 64) (f : Setting → Setting) : KeepsRecords n s₀ (s.writeDesired i f) := by
  unfold State.writeDesired
  split
  · exact h
  · exact (h.modChannel i _).queueIfReady i

theorem writePhantom (h : KeepsRecords n s₀ s) (i : Fin 64) (on : Bool) : KeepsRecords n s₀ (s.writePhantom i on) := by
  unfold State.writePhantom
  split
  · exact (h.modChannel i _).writeDesired i _
  · exact h.writeDesired i _

theorem sendCommand (h : KeepsRecords n s₀ s) (i : Fin 64) : KeepsRecords n s₀ (s.sendCommand i) := .congr (h.modChannel i _) rfl

theorem serveSendList : ∀ (l : List (Fin 64)) {s : State}, KeepsRecords n s₀ s → KeepsRecords n s₀ (s.serveSendList l).1
  | [], _, h => h
  | i :: rest, s, h => by
    unfold State.serveSendList
    dsimp only
    split
    · exact serveSendList rest h
    split
    · exact serveSendList rest (.modChannel (.congr h (by rfl)) i _)
    · exact .sendCommand (.congr h (by rfl)) i

theorem serveQueue : ∀ (l : List (Fin 64)) {s : State}, KeepsRecords n s₀ s → KeepsRecords n s₀ (s.serveQueue l)
  | [], _, h => h
  | i :: rest, s, h => by
    unfold State.serveQueue
    dsimp only
    split
    · exact serveQueue rest (.modChannel (.congr h (by rfl)) i _)
    split
    · exact serveQueue rest (.congr (.modChannel h i _) rfl)
    · exact .sendCommand (.congr h (by rfl)) i

theorem endOperation (h : KeepsRecords n s₀ s) (i : Fin 64) : KeepsRecords n s₀ (s.endOperation i) := by
  unfold State.endOperation
  split
  · exact h.modChannel i _
  · exact (h.modChannel i _).queueIfReady i

theorem marker (h : KeepsRecords n s₀ s) (i : Fin 64) : KeepsRecords n s₀ (s.marker i) := by
  unfold State.marker
  split
  · split
    · exact .endOperation (.modComp (.modChannel h i _) i _ fun _ hic => InputComp.newGain_lawful hic _) i
    · exact h
  · exact h

theorem markerTimeout (h : KeepsRecords n s₀ s) (i : Fin 64) : KeepsRecords n s₀ (s.markerTimeout i) := by
  unfold State.markerTimeout
  split
  · exact (h.modChannel i _).endOperation i
  · exact h

theorem holdEnd (h : KeepsRecords n s₀ s) (i : Fin 64) : KeepsRecords n s₀ (s.holdEnd i) := by
  unfold State.holdEnd
  split
  · exact (h.modChannel i _).queueIfReady i
  · exact h

theorem retryExpiry (h : KeepsRecords n s₀ s) (i : Fin 64) : KeepsRecords n s₀ (s.retryExpiry i) := by
  unfold State.retryExpiry
  split
  · exact (h.modChannel i _).queueIfDiffers i
  · exact h

theorem overcurrent (h : KeepsRecords n s₀ s) (i : Fin 64) : KeepsRecords n s₀ (s.overcurrent i) := .modChannel (.congr h (by rfl)) i _

theorem departChannel (h : KeepsRecords n s₀ s) (i : Fin 64) : KeepsRecords n s₀ (s.departChannel i) :=
  .sourceLost (.modChannel (.congr h (by rfl)) i _) _

theorem returnChannel (h : KeepsRecords n s₀ s) (i : Fin 64) : KeepsRecords n s₀ (s.returnChannel i) :=
  .sourceRegained (.modChannel h i _) _

theorem pollAnswer (h : KeepsRecords n s₀ s) (card : Fin 8) (oc : BitVec 8) : KeepsRecords n s₀ (s.pollAnswer card oc) := by
  unfold State.pollAnswer
  split
  · split
    · split
      · exact .foldOver (.foldOver (.congr (h.modCard _ _) (by rfl)) _ (fun i _ hs => hs.returnChannel i) _) _
          (fun i _ hs => hs.queueIfDiffers i) _
      · refine .foldOver (.congr (h.modCard _ _) (by rfl)) _ (fun k _ hs => ?_) _
        split
        · exact hs.overcurrent _
        · exact hs
    · exact h
  · exact h
  · exact h

theorem pollUnanswered (h : KeepsRecords n s₀ s) : KeepsRecords n s₀ s.pollUnanswered := by
  unfold State.pollUnanswered
  split
  · extract_lets k departs s1
    split
    · exact .foldOver (.congr (h.modCard _ _) (by rfl)) _ (fun i _ hs => hs.departChannel i) _
    · exact .congr (h.modCard _ _) rfl
  · exact h
  · exact h

theorem settingNoAnswer (h : KeepsRecords n s₀ s) : KeepsRecords n s₀ s.settingNoAnswer := by
  unfold State.settingNoAnswer
  split
  · unfold State.failExchange
    split
    · exact .modChannel (.congr h (by rfl)) _ _
    · exact .congr h rfl
  · exact h
  · exact h

theorem settingAnswer (h : KeepsRecords n s₀ s) (card channel : Fin 8) : KeepsRecords n s₀ (s.settingAnswer card channel) := by
  unfold State.settingAnswer
  split
  · split
    · exact .congr h rfl
    · exact h
  · exact h
  · exact h

theorem serveSetting (h : KeepsRecords n s₀ s) : KeepsRecords n s₀ s.serveSetting := by
  unfold State.serveSetting
  dsimp only
  split
  · exact serveSendList _ h
  · exact serveQueue _ (serveSendList _ h)

theorem settingSlot (h : KeepsRecords n s₀ s) : KeepsRecords n s₀ s.settingSlot := by
  unfold State.settingSlot
  split
  · exact .serveSetting (.congr h.settingNoAnswer.pollUnanswered rfl)
  · exact h

theorem pollSlot (h : KeepsRecords n s₀ s) : KeepsRecords n s₀ s.pollSlot := by
  unfold State.pollSlot State.settleExchange
  split
  · exact .congr h.settingNoAnswer.pollUnanswered rfl
  · exact h

/-! ### The configuration unit -/

theorem loadChannels (h : KeepsRecords n s₀ s) (body : List Byte) : KeepsRecords n s₀ (s.loadChannels body) := by
  refine h.foldOver _ (fun i _ hs => ?_) _
  dsimp only
  split
  · exact (hs.modChannel _ _).writeDesired i _
  · exact hs.writeDesired i _

theorem loadSafe (h : KeepsRecords n s₀ s) (body : List Byte) : KeepsRecords n s₀ (s.loadSafe body) :=
  h.trans { refl n s with
    shape := fun hs => { hs with
      mixes := by simp [State.loadSafe], crosspoints := by simp [State.loadSafe, SafeMix.load, storedMix] } }

theorem loadPatch (h : KeepsRecords n s₀ s) (body : List Byte) : KeepsRecords n s₀ (s.loadPatch body) := by
  refine h.foldOver _ (fun o _ hs => ?_) _
  unfold State.loadPatchEntry
  dsimp only
  split
  · exact hs.setPatch ..
  · exact hs.setPatch ..

theorem loadEnd (h : KeepsRecords n s₀ s) (silentFrom : Option Nat) : KeepsRecords n s₀ (s.loadEnd silentFrom) := by
  unfold State.loadEnd
  dsimp only
  split
  · refine .congr (.loadPatch (.loadSafe ?_ _) _) rfl
    split
    · exact .loadChannels (.congr h (by rfl)) _
    · exact .congr h rfl
  · exact h

theorem startupComplete (h : KeepsRecords n s₀ s) : KeepsRecords n s₀ s.startupComplete := by
  unfold State.startupComplete
  split
  · exact .congr h rfl
  · exact h

/-- A store's answer takes the place reserved for it, or at most one of the 32. -/
theorem storeAnswer (h : KeepsRecords n s₀ s) (hn : s.panelReserved = 0 → s.panelQueue.length + 1 ≤ n) (tag : Byte) (r : Result) :
    KeepsRecords n s₀ (s.storeAnswer tag r) := by
  refine h.trans { refl n s with shape := fun hs => { hs with }, panel := ?_ }
  rw [le_max_iff]
  simp only [State.storeAnswer, State.panelPlaces, List.length_append, List.length_singleton]
  omega

/-! ### Requests -/

theorem writeTalkClass (h : KeepsRecords n s₀ s) (x : SlotId) (v : Int) : KeepsRecords n s₀ (s.writeTalkClass x v).1 := by
  unfold State.writeTalkClass
  split
  · exact .congr h rfl
  · split
    · exact h
    · exact .congr h rfl

theorem writeParam (h : KeepsRecords n s₀ s) (sl : SlotId) (p : Param) (v : Int) : KeepsRecords n s₀ (s.writeParam sl p v).1 := by
  have hmode (i : Nat) (c : Fin 4) : KeepsRecords n s₀ (s.modCell i c (Cell.setMode (decide (v = 1)))) :=
    h.modCell i c _ fun e _ hc => hc.setMode _ e
  unfold State.writeParam
  cases p <;> dsimp only
  case gain i => exact h.writeDesired _ _
  case pad i => exact h.writeDesired _ _
  case phantom i => exact h.writePhantom _ _
  case ownMode i =>
    cases sl with
    | panel => exact h
    | desk d => exact hmode i d.column
  case engineMode i => exact hmode i 0
  case crosspoint j m => exact h.modMix m _ fun mx => length_modNth ..
  case master m => exact h.modMix m _ fun _ => rfl
  case ceiling m => exact h.modMix m _ fun _ => rfl
  case primary o =>
    split
    · exact h.writePrimary o _
    · exact h
  case fallback o =>
    split
    · exact h.writeFallback o _
    · exact h
  case outLevel o => exact h.modOutput o _ fun _ ho => ho.congr rfl rfl rfl rfl
  case override o => exact h.modOutput o _ fun _ ho => ho.congr rfl rfl rfl rfl
  case talkClass x => exact h.writeTalkClass x v
  case talkLimit => exact .congr h rfl
  case graceTime => exact .congr h rfl
  case revertTime => exact .congr h rfl
  all_goals exact h

theorem writeItems (sl : SlotId) : ∀ (items : List Item) {s : State}, KeepsRecords n s₀ s → KeepsRecords n s₀ (s.writeItems sl items).1
  | [], _, h => h
  | x :: xs, s, h => by
    have hx := h.writeParam sl x.param x.stored
    unfold State.writeItems
    dsimp only
    split
    · exact hx
    · exact writeItems sl xs hx

theorem writeAll (h : KeepsRecords n s₀ s) (sl : SlotId) (items : List Item) (echo : Nat) :
    KeepsRecords n s₀ (s.writeAll sl items echo).state := by
  unfold State.writeAll
  dsimp only
  split
  · exact h
  split
  · exact checkDomains sl _ h
  split
  next ho =>
    split
    next hroom => exact h.stage sl _ ho (by rwa [List.length_map])
    · exact h
  · split
    · exact h
    · exact writeItems sl items h

theorem doSet (h : KeepsRecords n s₀ s) (sl : SlotId) (index : Nat) (value : Int) (echo : Nat) :
    KeepsRecords n s₀ (s.doSet sl index value echo).state := by
  unfold State.doSet
  repeat' split
  all_goals first | exact h | exact h.writeAll ..

theorem doMatrix (h : KeepsRecords n s₀ s) (sl : SlotId) (s1 s2 m1 m2 echo : Nat) (vs : List Int) :
    KeepsRecords n s₀ (s.doMatrix sl s1 s2 m1 m2 echo vs).state := by
  unfold State.doMatrix
  repeat' split
  all_goals first | exact h | exact h.writeAll ..

theorem doRun (h : KeepsRecords n s₀ s) (sl : SlotId) (first echo : Nat) (vs : List Int) :
    KeepsRecords n s₀ (s.doRun sl first echo vs).state := by
  unfold State.doRun
  repeat' split
  all_goals first | exact h | exact h.writeAll ..

theorem doGet (h : KeepsRecords n s₀ s) (sl : SlotId) (first count : Nat) : KeepsRecords n s₀ (s.doGet sl first count).state := by
  unfold State.doGet
  repeat' split
  all_goals exact h

theorem doRebase (h : KeepsRecords n s₀ s) (sl : SlotId) (first last col : Nat) :
    KeepsRecords n s₀ (s.doRebase sl first last col).state := by
  unfold State.doRebase
  dsimp only
  split
  · exact h
  split
  · exact h
  split
  · split
    · exact h
    · exact h.rebaseInputs ..
  · split
    · exact checkDomains sl _ h
    · exact h.rebaseInputs ..

theorem doRecall (h : KeepsRecords n s₀ s) (sl : SlotId) : KeepsRecords n s₀ (s.doRecall sl).state := by
  have hgroups : KeepsRecords n s₀ (s.recallGroups sl) :=
    h.trans { refl n s with
      shape := fun hs => { hs with
        mixes := (length_mapFrom ..).trans hs.mixes,
        crosspoints := forall_mapFrom _ _ _ (fun k m hm => by
          split
          · exact (length_mapFrom ..).trans hm
          · exact hm) s.mixes 0 hs.crosspoints } }
  unfold State.doRecall
  split
  · exact h
  split
  · exact hgroups
  · exact h

/-- No request's own rule lengthens a queue, so it keeps every record law whatever room there is. -/
theorem perform (h : KeepsRecords n s₀ s) (sl : SlotId) (r : Request) : KeepsRecords n s₀ (s.perform sl r).state := by
  cases r with
  | get first count => exact h.doGet ..
  | set index value echo => exact h.doSet ..
  | windowMatrix s1 s2 m1 m2 echo vs => exact h.doMatrix ..
  | windowRun first echo vs => exact h.doRun ..
  | claim d => exact h.claim ..
  | release d => exact h.release ..
  | forceRelease d => exact h.forceRelease d
  | clearTrespass d => exact h.clearTrespass ..
  | batchOpen => exact h.batchOpen sl
  | batchDrop => exact h.batchDrop sl
  | talkPress b => exact h.talkPress ..
  | talkRelease b => exact h.talkRelease ..
  | rebase first last col => exact h.doRebase ..
  | clearOvers =>
    show KeepsRecords n s₀ (s.doClearOvers sl).state
    unfold State.doClearOvers
    split
    · exact h
    · exact .congr h rfl
  | pathPrefer p => exact h.pathPrefer ..
  | recallSafe => exact h.doRecall sl
  | metersOn => exact h.trans { refl n s with shape := fun hs => { hs with } }
  | metersOff => exact h.trans { refl n s with shape := fun hs => { hs with } }
  | unknown | badBody | describe | batchApply | store | restart => exact h

/-- An answer joins a queue that has room. -/
theorem pushAnswer (h : KeepsRecords n s₀ s) (sl : SlotId) (a : Answer) (hpanel : sl = .panel → s.panelPlaces < n)
    (hdesk : ∀ d, sl = .desk d → (s.lane d).answers.length < n) : KeepsRecords n s₀ (s.pushAnswer sl a) := by
  cases sl with
  | panel =>
    refine h.trans { refl n s with shape := fun hs => { hs with }, panel := le_max_of_le_right ?_ }
    have hroom := hpanel rfl
    simp only [State.panelPlaces] at hroom
    simp only [State.pushAnswer, State.panelPlaces, List.length_append, List.length_singleton]
    omega
  | desk d =>
    refine h.trans { refl n s with shape := fun hs => { hs with }, panel := le_max_left .., answers := fun e => ?_ }
    have hroom := hdesk d rfl
    show (((s.modLane d fun l => { l with answers := l.answers ++ [a] }).lane e).answers).length ≤ _
    rw [State.lane_modLane]
    split
    next he => subst he; simpa using hroom
    · exact le_max_left ..

end KeepsRecords
end Sys2Proof.Machine

namespace Sys2Proof.Machine

/-- A STORE is refused with the state as it is, or accepted with no answer yet. -/
theorem State.store_cases (tag : Byte) (codes : List Nat) (s : State) :
    (∃ c, s.store tag codes = (s, some c)) ∨
      s.config.store = none ∧ s.store tag codes = (s.acceptStore tag codes, none) := by
  unfold State.store
  split
  · exact .inl ⟨_, rfl⟩
  split
  · exact .inl ⟨_, rfl⟩
  next hfree => exact .inr ⟨by simpa using hfree, rfl⟩

/-- What a request that has found room comes to: refused with the state as it is, answered by its own rule, or one of the three
that place their own answers (R165, R171, R195, R197). -/
theorem State.answerRequest_cases {P : State → Prop} {sl : SlotId} {tag : Byte} {r : Request} {s : State}
    (hrefused : ∀ c, P (s.answer sl tag r.kind c .none))
    (hperformed : s.started = true → P ((s.perform sl r).place sl tag r.kind))
    (happlied : s.started = true → P (s.batchApply sl tag))
    (hstored : ∀ codes, sl = .panel → s.started = true → s.config.store = none → P (s.acceptStore tag codes))
    (hrestarted : sl = .panel → s.started = true → P (s.restartAnswered tag)) : P (s.answerRequest sl tag r) := by
  unfold State.answerRequest
  dsimp only
  split
  · exact hrefused _
  next hstarted =>
    have hstarted : s.started = true := by simpa using hstarted
    split
    · exact hrefused _
    next hallowed =>
      split
      · exact happlied hstarted
      next codes =>
        rcases State.store_cases tag codes s with ⟨c, hstore⟩ | ⟨hfree, hstore⟩
        · rw [hstore]
          exact hrefused c
        · rw [hstore]
          exact hstored codes (by simpa [Request.panelOnly] using hallowed) hstarted hfree
      · exact hrestarted (by simpa [Request.panelOnly] using hallowed) hstarted
      · exact hperformed hstarted

/-- What taking a request comes to: nothing, the requests-dropped flag of a desk slot, or an answer (R172, R173, R185). -/
theorem State.takeRequest_cases {P : State → Prop} {sl : SlotId} {tag : Byte} {r : Request} {s : State} (hnone : P s)
    (hdropped : ∀ d, P (s.modLane d fun l => { l with dropped := true }))
    (hanswered : s.HasRoom sl → P (s.answerRequest sl tag r)) : P (s.takeRequest sl tag r) := by
  cases sl with
  | panel =>
    unfold State.takeRequest
    dsimp only
    split
    next hready => exact hanswered hready
    · exact hnone
  | desk d =>
    unfold State.takeRequest
    dsimp only
    split
    · exact hnone
    next hthere =>
      split
      next hready => exact hanswered ⟨hthere, hready⟩
      · exact hdropped d

namespace KeepsRecords

variable {m n : Nat} {s₀ s t : State}

theorem mono (h : KeepsRecords m s t) (hmn : m ≤ n) : KeepsRecords n s t :=
  { h with
    panel := h.panel.trans (max_le_max le_rfl hmn), answers := fun d => (h.answers d).trans (max_le_max le_rfl hmn) }

/-! ### Taking a request -/

/-- An answer placed after a rule that lengthened no queue finds the room the request found. -/
theorem answer (h : KeepsRecords 0 s t) {sl : SlotId} (hroom : s.HasRoom sl) (tag kind : Byte) (r : Result) (data : AnswerData) :
    KeepsRecords 32 s (t.answer sl tag kind r data) := by
  refine .pushAnswer (h.mono (by decide)) sl _ (fun hsl => ?_) (fun d hsl => ?_)
  · subst hsl
    have hready : s.panelPlaces < 32 := of_decide_eq_true hroom
    have hkept := h.panel
    omega
  · subst hsl
    have hready : (s.lane d).answers.length < 32 := of_decide_eq_true hroom.2
    have hkept := h.answers d
    omega

theorem batchApply {sl : SlotId} (hroom : s.HasRoom sl) (tag : Byte) : KeepsRecords 32 s (s.batchApply sl tag) := by
  have hnow (r : Result) := (refl 0 s).answer hroom tag kindBatchApply r .none
  unfold State.batchApply
  dsimp only
  split
  · exact hnow _
  · exact hnow _
  next hopen =>
    have hsealed : KeepsRecords 32 s (s.setBatch sl { s.batch sl with state := .sealed }) :=
      (refl 32 s).setBatch sl _ fun hs => ⟨(hs sl).1, nofun⟩
    refine hsealed.pushAnswer sl _ (fun hsl => ?_) (fun d hsl => ?_)
    · subst hsl; exact of_decide_eq_true hroom
    · subst hsl; exact of_decide_eq_true hroom.2

theorem acceptStore (hroom : s.HasRoom .panel) (tag : Byte) (codes : List Nat) : KeepsRecords 32 s (s.acceptStore tag codes) := by
  have hready : s.panelPlaces < 32 := of_decide_eq_true hroom
  unfold State.acceptStore
  dsimp only
  split
  · exact refl 32 s
  · refine { refl 32 s with shape := fun hs => { hs with }, panel := le_max_of_le_right ?_ }
    simp only [State.panelPlaces] at hready ⊢
    omega

theorem restart (s : State) : KeepsRecords n s s.restart where
  shape hs :=
    { cards := hs.cards, channels := hs.channels, comp := (List.length_map ..).trans hs.comp, mixes := List.length_replicate ..,
      crosspoints := fun m hm => by rw [List.eq_of_mem_replicate hm]; exact List.length_replicate ..,
      outputs := List.length_replicate .., domains := List.length_replicate .., viewPeaks := List.length_replicate ..,
      viewClips := List.length_replicate .., mixPeaks := List.length_replicate .., outPeaks := List.length_replicate ..,
      returnPeaks := fun d => by cases d <;> rfl }
  trims hs := List.forall_mem_map.mpr fun ic hic c => by
    have h0 : ic.cells.c0.Lawful := hs ic hic 0
    match c with
    | 0 => exact h0
    | 1 => exact Cell.reset_lawful
    | 2 => exact Cell.reset_lawful
    | 3 => exact Cell.reset_lawful
  outputs _ o ho := by rw [List.eq_of_mem_replicate ho]; exact Output.reset_lawful
  batches _ sl := by
    show (PerSlot.get (PerSlot.all Batch.reset) sl).Lawful
    rw [PerSlot.get_all]
    exact Batch.reset_lawful
  panel := Nat.zero_le _
  answers d := by cases d <;> exact Nat.zero_le _

theorem restartAnswered (s : State) (tag : Byte) : KeepsRecords 32 s (s.restartAnswered tag) :=
  .congr (t := { s.restart with panelQueue := (s.restartAnswered tag).panelQueue })
    (.pushAnswer (restart s) .panel _ (fun _ => (by decide : (0 : Nat) < 32)) nofun) rfl

theorem answerRequest {sl : SlotId} (hroom : s.HasRoom sl) (tag : Byte) (r : Request) :
    KeepsRecords 32 s (s.answerRequest sl tag r) :=
  State.answerRequest_cases (fun _ => (refl 0 s).answer hroom ..) (fun _ => ((refl 0 s).perform sl r).answer hroom ..)
    (fun _ => batchApply hroom tag) (fun codes hsl _ _ => acceptStore (hsl ▸ hroom) tag codes) (fun _ _ => restartAnswered s tag)

theorem takeRequest (h : KeepsRecords n s₀ s) (hn : 32 ≤ n) (sl : SlotId) (tag : Byte) (r : Request) :
    KeepsRecords n s₀ (s.takeRequest sl tag r) :=
  State.takeRequest_cases h (fun _ => .modLane_answers h _ _ fun _ => by rfl) fun hroom => h.trans ((answerRequest hroom tag r).mono hn)

end KeepsRecords
end Sys2Proof.Machine

namespace Sys2Proof.Machine

/-! ### What a frame leaves of a mix and of a lane -/

theorem Mix.length_xps_form (inputs : List Sample) (tb1 tb2 : Sample) (m : Mix) :
    (m.form inputs tb1 tb2).1.xps.length = m.xps.length := rfl

theorem Mix.moveDuck_xps (m : Mix) : m.moveDuck.xps = m.xps := by
  unfold Mix.moveDuck
  repeat' split
  all_goals rfl

theorem Mix.settleDuck_xps (m : Mix) : m.settleDuck.xps = m.xps := by
  unfold Mix.settleDuck
  split <;> rfl

/-- The crosspoints of a mix stay as many in a frame. -/
theorem Mix.length_xps_advance (talk1 talk2 : Bool) (m : Mix) : (m.advance talk1 talk2).xps.length = m.xps.length := by
  unfold Mix.advance
  rw [Mix.moveDuck_xps, ← m.settleDuck_xps]
  exact List.length_map ..

theorem Lane.pick_answers (l : Lane) : l.pick.answers = l.answers := by
  unfold Lane.pick
  dsimp only
  repeat' split
  all_goals rfl

/-- A transmitter takes an answer from the queue when it has been sent, and puts none in. -/
theorem Lane.length_answers_frame_le (active : Bool) (l : Lane) : (l.frame active).1.answers.length ≤ l.answers.length := by
  rw [← l.pick_answers]
  unfold Lane.frame Lane.send
  dsimp only
  split
  · split
    · exact le_rfl
    · split
      · dsimp only
        split
        · exact (List.length_drop ..).le.trans (Nat.sub_le ..)
        · exact le_rfl
      · exact le_rfl
  · exact l.pick_answers ▸ le_rfl

namespace KeepsRecords

variable {n : Nat} {s₀ s t : State}

/-! ### The link ports and the panel port -/

theorem feedReceiver (h : KeepsRecords n s₀ s) (hn : 32 ≤ n) (d : Desk) (lane : Option (List Byte)) :
    KeepsRecords n s₀ (s.feedReceiver d lane) := by
  unfold State.feedReceiver
  dsimp only
  split
  · exact .takeRequest (.modLane_answers h _ _ fun _ => by rfl) hn ..
  · exact .modLane_answers h _ _ fun _ => by rfl

theorem absorb (h : KeepsRecords n s₀ s) (hn : 32 ≤ n) (d : Desk) (dl : Delivery) : KeepsRecords n s₀ (s.absorb d dl) :=
  (h.modSlot _ _).feedReceiver hn _ _

theorem takeDelivery (h : KeepsRecords n s₀ s) (hn : 32 ≤ n) (p : LinkPort) (dl : Delivery) :
    KeepsRecords n s₀ (s.takeDelivery p dl) := by
  unfold State.takeDelivery
  split
  · exact h
  next d _ =>
    have hfades := (h.fadeOutEnd d).fadeInEnd d
    dsimp only
    split
    · split
      · exact hfades.absorb hn _ _
      · exact hfades
    · exact h

theorem takeReturned (h : KeepsRecords n s₀ s) (hn : 32 ≤ n) (d : Desk) : KeepsRecords n s₀ (s.takeReturned d) := by
  unfold State.takeReturned
  split
  · exact h
  split
  · exact h
  split
  · exact (h.modPort _ _).absorb hn _ _
  · exact h

theorem settleReturned (h : KeepsRecords n s₀ s) (hn : 32 ≤ n) : KeepsRecords n s₀ s.settleReturned :=
  h.foldOver _ (fun d _ hs => hs.takeReturned hn d) _

theorem portLoss (h : KeepsRecords n s₀ s) (p : LinkPort) (next : PortState) : KeepsRecords n s₀ (s.portLoss p next) := by
  refine .lossEvent (.modPort ?_ p _) p
  unfold State.fadeEndsOn
  split
  · split
    · exact (h.fadeOutEnd _).fadeInEnd _
    · exact h
  · exact h

theorem errorWindowComplete (h : KeepsRecords n s₀ s) (p : LinkPort) : KeepsRecords n s₀ (s.errorWindowComplete p) := by
  unfold State.errorWindowComplete
  dsimp only
  split
  · split
    · exact h.modPort _ _
    · exact (h.modPort _ _).qualityEvent p
  · exact h

theorem seekFrame (h : KeepsRecords n s₀ s) (hn : 32 ≤ n) (p : LinkPort) (f : StageFrame) : KeepsRecords n s₀ (s.seekFrame p f) := by
  unfold State.seekFrame
  dsimp only
  split
  · exact h.modPort _ _
  · exact .takeDelivery (.settleReturned (.lockEvent (h.modPort _ _) _ _ _) hn) hn _ _

theorem loseAtPeriodEnd (h : KeepsRecords n s₀ s) (p : LinkPort) (windowFirst : Bool) :
    KeepsRecords n s₀ (s.loseAtPeriodEnd p windowFirst) := by
  unfold State.loseAtPeriodEnd
  split
  · exact (h.errorWindowComplete p).portLoss p _
  · exact h.portLoss p _

theorem lockedPeriod (h : KeepsRecords n s₀ s) (hn : 32 ≤ n) (p : LinkPort) (judge : Port → Port) (own : Port → Delivery)
    (lost : Port → Bool) (windowFirst : Bool) : KeepsRecords n s₀ (s.lockedPeriod p judge own lost windowFirst) := by
  have hjudged (r : Port) (o : Option Delivery) : KeepsRecords n s₀ (match o with
      | some dl => ((s.errorWindowComplete p).modPort p fun _ => r).takeDelivery p dl
      | none => (s.errorWindowComplete p).modPort p fun _ => r) := by
    have hr := (h.errorWindowComplete p).modPort p fun _ => r
    cases o with
    | none => exact hr
    | some dl => exact hr.takeDelivery hn p dl
  unfold State.lockedPeriod
  dsimp only
  split
  · exact .loseAtPeriodEnd (hjudged _ _) _ _
  · exact hjudged _ _

theorem openPeriod (h : KeepsRecords n s₀ s) (p : LinkPort) : KeepsRecords n s₀ (s.openPeriod p) := by
  unfold State.openPeriod
  refine .modPort ?_ p _
  split
  · refine .foldOver (.modPort h p _) _ (fun d _ hs => ?_) _
    split
    · exact hs.modSlot _ _
    · exact hs
  · exact h

theorem validFrame (h : KeepsRecords n s₀ s) (hn : 32 ≤ n) (p : LinkPort) (f : StageFrame) (windowFirst : Bool) :
    KeepsRecords n s₀ (s.validFrame p f windowFirst) := by
  unfold State.validFrame
  dsimp only
  repeat' split
  all_goals first | exact h | exact (h.openPeriod p).seekFrame hn p f | exact (h.openPeriod p).lockedPeriod hn p ..

theorem crcFailedFrame (h : KeepsRecords n s₀ s) (hn : 32 ≤ n) (p : LinkPort) : KeepsRecords n s₀ (s.crcFailedFrame p) := by
  unfold State.crcFailedFrame
  dsimp only
  split
  · exact h
  · exact (h.openPeriod p).modPort p _
  · exact (h.openPeriod p).lockedPeriod hn ..
  · exact (h.openPeriod p).lockedPeriod hn ..

theorem missingPeriod (h : KeepsRecords n s₀ s) (hn : 32 ≤ n) (p : LinkPort) (windowFirst : Bool) :
    KeepsRecords n s₀ (s.missingPeriod p windowFirst) := by
  unfold State.missingPeriod
  split
  · exact h.lockedPeriod hn ..
  · exact .loseAtPeriodEnd (.modPort (h.errorWindowComplete p) p _) p windowFirst

theorem missingFrame (h : KeepsRecords n s₀ s) (hn : 32 ≤ n) (p : LinkPort) (windowFirst : Bool) :
    KeepsRecords n s₀ (s.missingFrame p windowFirst) := by
  unfold State.missingFrame
  dsimp only
  split
  · exact h
  · exact (h.openPeriod p).modPort p _
  · exact (h.openPeriod p).missingPeriod hn p windowFirst
  · exact (h.openPeriod p).missingPeriod hn p windowFirst

theorem lightMeasurement (h : KeepsRecords n s₀ s) (p : LinkPort) (reading : LightReading) :
    KeepsRecords n s₀ (s.lightMeasurement p reading) := by
  have hcode := h.modPort p fun r => { r with lightCode := reading.code, lightFrames := 0 }
  unfold State.lightMeasurement
  dsimp only
  repeat' split
  all_goals first | exact h | exact hcode | exact hcode.modPort _ _ | exact hcode.portLoss _ _

theorem requestWrite (h : KeepsRecords n s₀ s) (hn : 32 ≤ n) (message : List Byte) :
    KeepsRecords n s₀ (s.requestWrite message) := by
  refine .congr (t := s.requestWrite message)
    (s := if s.panelReady then s.takeWritten message else s) ?_ rfl
  split
  · unfold State.takeWritten
    split
    · exact h.takeRequest hn ..
    · exact h
  · exact h

theorem messageRead (h : KeepsRecords n s₀ s) : KeepsRecords n s₀ s.messageRead := by
  unfold State.messageRead
  split
  next m rest hq =>
    split
    · exact .congr h rfl
    · exact .congr (h.setPanelQueue rest (by simp only [State.panelPlaces, hq, List.length_cons]; omega)) rfl
  · exact .congr h rfl

/-! ### Storing -/

theorem abandonStore (h : KeepsRecords n s₀ s) : KeepsRecords n s₀ s.abandonStore := by
  unfold State.abandonStore
  split
  · exact h
  · exact .congr h rfl

theorem storeFailed (h : KeepsRecords n s₀ s) (hn : s.panelReserved = 0 → s.panelQueue.length + 1 ≤ n) (job : StoreJob) :
    KeepsRecords n s₀ (s.storeFailed job) := by
  unfold State.storeFailed
  exact .storeAnswer (.congr h (by rfl)) (by exact hn) _ _

theorem storeDone (h : KeepsRecords n s₀ s) (hn : s.panelReserved = 0 → s.panelQueue.length + 1 ≤ n) (job : StoreJob)
    (written : List RecordType) : KeepsRecords n s₀ (s.storeDone job written) := by
  unfold State.storeDone
  dsimp only
  exact .storeAnswer (.congr h (by rfl)) (by exact hn) _ _

theorem storeRecordChecked (h : KeepsRecords n s₀ s)
    (hn : s.config.store.isSome → s.panelReserved = 0 → s.panelQueue.length + 1 ≤ n) (readBack : Option (List Byte)) :
    KeepsRecords n s₀ (s.storeRecordChecked readBack) := by
  unfold State.storeRecordChecked
  split
  · exact h
  next job hjob =>
    have hplace : s.panelReserved = 0 → s.panelQueue.length + 1 ≤ n := hn (by rw [hjob]; rfl)
    dsimp only
    split
    · exact .storeFailed (.congr h (by rfl)) (by exact hplace) job
    split
    · split
      · exact .storeDone (.congr h (by rfl)) (by exact hplace) job _
      · exact .congr h rfl
    · exact .storeFailed (.congr h (by rfl)) (by exact hplace) job

/-! ### The effect of a batch -/

theorem applyStaged (sl : SlotId) :
    ∀ (es : List Staged) {s : State}, KeepsRecords n s₀ s → KeepsRecords n s₀ (s.applyStaged sl es).1
  | [], _, h => h
  | e :: es, s, h => by
    have hwritten : KeepsRecords n s₀ (if s.stagedRefused sl e then (s, some .notOwner) else
        match paramOf e.index with
        | some p => if s.stagedReplaced sl e es then (s, none) else s.writeParam sl p e.value
        | none => (s, some .noSuch) : State × Option Result).1 := by
      split
      · exact h
      split
      · split
        · exact h
        · exact h.writeParam ..
      · exact h
    unfold State.applyStaged
    dsimp only
    split
    · exact applyStaged sl es hwritten
    · exact applyStaged sl es hwritten

theorem batchEffect (h : KeepsRecords n s₀ s) (sl : SlotId) : KeepsRecords n s₀ (s.batchEffect sl) := by
  unfold State.batchEffect
  dsimp only
  split
  · exact .congr (.setBatch (.completeApply (applyStaged sl _ h) ..) _ _ fun _ => Batch.reset_lawful) rfl
  · exact h

/-! ### The frame period -/

theorem takeDue (h : KeepsRecords n s₀ s) (hn : 32 ≤ n) : KeepsRecords n s₀ s.takeDue := by
  have hwindows : KeepsRecords n s₀ s.windowsDue :=
    h.foldOver _ (fun p _ hs => (hs.errorWindowComplete p).settleReturned hn) _
  have hfades : KeepsRecords n s₀ s.windowsDue.fadesDue :=
    hwindows.foldOver _ (fun d _ hs => ((hs.fadeOutEnd d).fadeInEnd d).settleReturned hn) _
  have hgrace : KeepsRecords n s₀ s.windowsDue.fadesDue.graceDue := hfades.foldOver _ (fun d _ hs => hs.graceExpiry d) _
  have hchannels : KeepsRecords n s₀ s.windowsDue.fadesDue.graceDue.channelsDue :=
    hgrace.foldOver _ (fun i _ hs => ((hs.markerTimeout i).holdEnd i).retryExpiry i) _
  have houtputs : KeepsRecords n s₀ s.windowsDue.fadesDue.graceDue.channelsDue.outputsDue :=
    hchannels.mapOutputs _ fun o ho => ho.holdExpiry.crossfadeEnd
  have htalk : KeepsRecords n s₀ s.windowsDue.fadesDue.graceDue.channelsDue.outputsDue.talkDue :=
    houtputs.foldOver _ (fun b _ hs => hs.modBus b _) _
  have hboundary : KeepsRecords n s₀ s.windowsDue.fadesDue.graceDue.channelsDue.outputsDue.talkDue.boundaryDue :=
    .digestCadence (.foldOver (htalk.meterPeriodEnd hn) _ (fun sl _ hs => hs.batchEffect sl) _) hn
  exact hboundary.settingSlot.pollSlot.startupComplete

theorem closeSlots (h : KeepsRecords n s₀ s) (hn : 32 ≤ n) : KeepsRecords n s₀ s.closeSlots := .congr (h.settleReturned hn) rfl

theorem formInputs (h : KeepsRecords n s₀ s) (lanes : List Sample) : KeepsRecords n s₀ (s.formInputs lanes).1 :=
  h.trans { refl n s with
    shape := fun hs => { hs with
      channels := (List.length_map ..).trans hs.channels, comp := (length_mapFrom ..).trans hs.comp }
    trims := fun hs => forall_mapFrom _ _ _ (fun _ _ hic => InputComp.advance_lawful hic _) s.comp 0 hs }

theorem formMixes (h : KeepsRecords n s₀ s) (engine : List Sample) (tb1 tb2 : Sample) :
    KeepsRecords n s₀ (s.formMixes engine tb1 tb2).1 :=
  h.trans { refl n s with
    shape := fun hs => { hs with
      mixes := by simpa [State.formMixes] using hs.mixes
      crosspoints := by
        simp only [State.formMixes, List.map_map]
        refine List.forall_mem_map.mpr fun m hm => ?_
        exact (Mix.length_xps_form ..).trans ((Mix.length_xps_advance ..).trans (hs.crosspoints m hm)) } }

theorem formOutputs (h : KeepsRecords n s₀ s) (x : FrameSamples) : KeepsRecords n s₀ (s.formOutputs x) :=
  h.trans { refl n s with
    shape := fun hs => { hs with outputs := by simpa [State.formOutputs] using hs.outputs }
    outputs := fun hs => by
      simp only [State.formOutputs, State.OutputsLawful, List.map_map]
      exact List.forall_mem_map.mpr fun o ho => (hs o ho).form .. }

theorem sendFrames (h : KeepsRecords n s₀ s) (x : FrameSamples) : KeepsRecords n s₀ (s.sendFrames x) :=
  h.trans { refl n s with
    shape := fun hs => { hs with }, panel := le_max_left ..,
    answers := fun d => by
      refine le_max_of_le_left ?_
      simp only [State.lane, State.sendFrames, PerDesk.get_map]
      exact Lane.length_answers_frame_le .. }

theorem tick (h : KeepsRecords n s₀ s) : KeepsRecords n s₀ s.tick :=
  h.trans { refl n s with
    shape := fun hs => { hs with
      channels := (List.length_map ..).trans hs.channels, outputs := (List.length_map ..).trans hs.outputs }
    outputs := fun hs => List.forall_mem_map.mpr fun o ho => (hs o ho).tick }

/-- The peaks gain the samples of a frame that has one for every view, mix and output. -/
theorem gatherPeaks (h : KeepsRecords n s₀ s) (x : FrameSamples) (hraw : s.Shaped → x.raw.length = 64)
    (hmixes : s.Shaped → x.mixes.length = 24) (houts : s.Shaped → s.stageOut.length = 32) :
    KeepsRecords n s₀ (s.gatherPeaks x) :=
  h.trans { refl n s with
    shape := fun hs => { hs with
      viewPeaks := by simp [State.gatherPeaks, FrameSamples.views, hs.viewPeaks, hraw hs]
      viewClips := by simp [State.gatherPeaks, hs.viewClips, hraw hs]
      mixPeaks := by simp [State.gatherPeaks, hs.mixPeaks, hmixes hs]
      outPeaks := by simp [State.gatherPeaks, hs.outPeaks, houts hs]
      returnPeaks := fun d => by simp [State.gatherPeaks, hs.returnPeaks d] } }

theorem formFrame (h : KeepsRecords n s₀ s) (lanes : List Sample) (stageTalk : Sample) :
    KeepsRecords n s₀ (s.formFrame lanes stageTalk) := by
  unfold State.formFrame
  refine .tick (.sendFrames (.gatherPeaks (.formOutputs (.formMixes (.formInputs h lanes) ..) _) _ (fun hs => ?_) (fun hs => ?_)
    (fun hs => ?_)) _)
  · simpa [State.formInputs, State.formMixes, State.formOutputs] using hs.comp
  · simpa [State.formInputs, State.formMixes, State.formOutputs] using hs.mixes
  · simpa [State.formInputs, State.formMixes, State.formOutputs] using hs.outputs

theorem framePeriod (h : KeepsRecords n s₀ s) (hn : 32 ≤ n) (lanes : List Sample) (stageTalk : Sample) :
    KeepsRecords n s₀ (s.framePeriod lanes stageTalk) := ((h.takeDue hn).closeSlots hn).formFrame lanes stageTalk

end KeepsRecords
end Sys2Proof.Machine

namespace Sys2Proof.Machine

/-! ### The state at reset -/

theorem State.reset_shaped : State.reset.Shaped :=
  { cards := List.length_replicate .., channels := List.length_replicate .., comp := List.length_replicate ..,
    mixes := List.length_replicate ..,
    crosspoints := fun m hm => by rw [List.eq_of_mem_replicate hm]; exact List.length_replicate ..,
    outputs := List.length_replicate .., domains := List.length_replicate .., viewPeaks := List.length_replicate ..,
    viewClips := List.length_replicate .., mixPeaks := List.length_replicate .., outPeaks := List.length_replicate ..,
    returnPeaks := fun d => by cases d <;> rfl }

theorem State.reset_compLawful : State.reset.CompLawful := fun ic hic c => by
  rw [List.eq_of_mem_replicate hic]
  match c with
  | 0 => exact Cell.reset_lawful
  | 1 => exact Cell.reset_lawful
  | 2 => exact Cell.reset_lawful
  | 3 => exact Cell.reset_lawful

theorem State.reset_outputsLawful : State.reset.OutputsLawful := fun o ho => by
  rw [List.eq_of_mem_replicate ho]
  exact Output.reset_lawful

theorem State.reset_batchesLawful : State.reset.BatchesLawful := fun sl => by
  show (PerSlot.get (PerSlot.all Batch.reset) sl).Lawful
  rw [PerSlot.get_all]
  exact Batch.reset_lawful

theorem KeepsRecords.fullReset (n : Nat) (s : State) (straps : BitVec 4) : KeepsRecords n s (s.fullReset straps) where
  shape _ := { State.reset_shaped with }
  trims _ := State.reset_compLawful
  outputs _ := State.reset_outputsLawful
  batches _ := State.reset_batchesLawful
  panel := Nat.zero_le _
  answers d := by cases d <;> exact Nat.zero_le _

/-! ### Every command -/

/-- No command breaks a record law, and none takes a queue past its 32 places, so long as the answer of a store in progress has its
place or the panel queue has one for it. -/
theorem KeepsRecords.effect {n : Nat} (hn : 32 ≤ n) (i : Instr) (s : State)
    (hstore : s.config.store.isSome → s.panelReserved = 0 → s.panelQueue.length + 1 ≤ n) : KeepsRecords n s (i.effect s) := by
  have h : KeepsRecords n s s := .refl n s
  have hset (sl : SlotId) (tag : Byte) (index value : Word) (echo : Byte) :
      KeepsRecords n s (s.takeSet sl tag index value echo) := h.takeRequest hn ..
  cases i with
  | fullReset straps => exact .fullReset n s straps
  | lightMeasurement p reading => exact (h.lightMeasurement p reading).settleReturned hn
  | validFrame p f windowFirst => exact (h.validFrame hn p f windowFirst).settleReturned hn
  | crcFailedFrame p => exact (h.crcFailedFrame hn p).settleReturned hn
  | missingFrame p windowFirst => exact (h.missingFrame hn p windowFirst).settleReturned hn
  | errorWindowComplete p => exact (h.errorWindowComplete p).settleReturned hn
  | fadeOutEnd d => exact h.fadeOutEnd d
  | fadeInEnd d => exact (h.fadeInEnd d).settleReturned hn
  | graceExpiry d => exact h.graceExpiry d
  | framePeriod lanes stageTalk => exact h.framePeriod hn lanes stageTalk
  | trimRampStep input column => exact h.modCell _ _ _ fun _ _ hc => hc.stepEarly
  | levelRampStep level => exact h.modLevel _ _
  | duckReleaseStep mix => exact h.duckReleaseStep mix
  | crossfadeEnd o => exact h.modOutput _ _ fun _ ho => ho.crossfadeEnd
  | gainChangeMarker input => exact h.marker input
  | settingSlot => exact h.settingSlot
  | settingAnswer card channel => exact h.settingAnswer card channel
  | settingNoAnswer => exact h.settingNoAnswer
  | markerTimeout input => exact h.markerTimeout input
  | holdEnd input => exact h.holdEnd input
  | retryTimerExpiry input => exact h.retryExpiry input
  | pollSlot => exact h.pollSlot
  | pollAnswer card overcurrent => exact h.pollAnswer card overcurrent
  | pollUnanswered => exact h.pollUnanswered
  | revertHoldExpiry o => exact h.modOutput _ _ fun _ ho => ho.holdExpiry
  | talkTimeout b => exact h.modBus _ _
  | meterPeriodEnd => exact h.meterPeriodEnd hn
  | batchEffect slot => exact h.batchEffect slot
  | digestCadence => exact h.digestCadence hn
  | loadEnd silentFrom => exact h.loadEnd silentFrom
  | startupComplete => exact h.startupComplete
  | storeRecordChecked readBack => exact h.storeRecordChecked hstore readBack
  | writeDesiredSetting | writeColumnMode | writeCrosspoint | writeDuckCeiling | writeOutputSource | writeOutputLevel
  | writeOverride | writeTalkClass | writeTalkLimit | writeGraceTime | writeRevertHoldTime | writeOtherIndex => exact hset ..
  | unknownKind | get | setWindowMatrix | setWindowRun | claim | release | forceRelease | clearTrespass | batchOpen | batchApply
  | batchDrop | talkPress | talkRelease | rebase | clearOvers | recallSafe | describe | store | restart | metersOn | metersOff =>
    exact h.takeRequest hn ..
  | pathPrefer slot tag port => exact (h.takeRequest hn ..).settleReturned hn
  | statusRead => exact .congr h rfl
  | requestWrite message => exact (h.requestWrite hn message).settleReturned hn
  | messageRead => exact h.messageRead
  | unknownTransaction => exact .congr h rfl
  | powerLoss => exact .congr h.abandonStore rfl

/-- With a bound high enough for any store's answer. -/
theorem KeepsRecords.effect_of_room (i : Instr) (s : State) : KeepsRecords (s.panelQueue.length + 32) s (i.effect s) :=
  .effect (by omega) i s fun _ _ => by omega

/-! ### The memory and the reservation of a store's answer -/

/-- The memory keeps its canonical form from `s` to `t`, and the store's answer its place in the panel queue (R182, R189). -/
structure KeepsStore (s t : State) : Prop where
  memory : s.MemoryCanonical → t.MemoryCanonical
  reserved : (s.panelReserved = if s.config.store.isSome then 1 else 0) → t.panelReserved = if t.config.store.isSome then 1 else 0

theorem KeepsStore.trans {r s t : State} (h : KeepsStore r s) (h' : KeepsStore s t) : KeepsStore r t :=
  { memory := h'.memory ∘ h.memory, reserved := h'.reserved ∘ h.reserved }

/-- Most operations leave the memory, the store and the reservation as they are. -/
theorem KeepsStore.of_same {s t : State} (hmemory : t.memory = s.memory) (hconfig : t.config = s.config)
    (hreserved : t.panelReserved = s.panelReserved) : KeepsStore s t :=
  { memory := fun h => (congrArg Memory.wf hmemory).trans h, reserved := fun h => by rw [hreserved, hconfig, h] }

theorem KeepsStore.refl (s : State) : KeepsStore s s := .of_same rfl rfl rfl

theorem KeepsStore.acceptStore (s : State) (tag : Byte) (codes : List Nat) (hfree : s.config.store = none) :
    KeepsStore s (s.acceptStore tag codes) := by
  unfold State.acceptStore
  dsimp only
  split
  · exact .refl s
  · exact { memory := id, reserved := fun h => by simp [h, hfree] }

theorem KeepsStore.restartAnswered (s : State) (tag : Byte) : KeepsStore s (s.restartAnswered tag) :=
  { memory := s.restart_wf, reserved := fun _ => rfl }

theorem KeepsStore.takeRequest (sl : SlotId) (tag : Byte) (r : Request) (s : State) : KeepsStore s (s.takeRequest sl tag r) :=
  State.takeRequest_cases (.refl s) (fun _ => .of_same rfl rfl rfl) fun _ =>
    State.answerRequest_cases (fun _ => .of_same (by simp) (by simp) (by simp))
      (fun _ => .of_same (by simp [Reply.place]) (by simp [Reply.place]) (by simp [Reply.place]))
      (fun _ => .of_same (by simp) (by simp) (by simp)) (fun codes _ _ hfree => .acceptStore s tag codes hfree)
      (fun _ _ => .restartAnswered s tag)

theorem KeepsStore.loadEnd (silentFrom : Option Nat) (s : State) : KeepsStore s (s.loadEnd silentFrom) := by
  refine { memory := fun h => ?_, reserved := fun h => ?_ }
  · simpa [State.MemoryCanonical] using h
  · have hstore : (s.loadEnd silentFrom).config.store = s.config.store := by
      unfold State.loadEnd
      dsimp only
      split
      · split <;> simp [State.loadStage]
      · rfl
    simpa [hstore] using h

theorem KeepsStore.storeRecordChecked (readBack : Option (List Byte)) (s : State) : KeepsStore s (s.storeRecordChecked readBack) := by
  refine { memory := s.storeRecordChecked_wf readBack, reserved := fun h => ?_ }
  unfold State.storeRecordChecked
  split
  next hnone => simpa [hnone] using h
  next job hjob =>
    have hone : s.panelReserved = 1 := by simpa [hjob] using h
    dsimp only
    have hended (t : State) (ht : t.panelReserved = 1) :
        (t.storeFailed job).panelReserved = if (t.storeFailed job).config.store.isSome then 1 else 0 := by
      simp [State.storeFailed, State.storeAnswer, ht]
    split
    · exact hended _ hone
    split
    · split
      · simp [State.storeDone, State.storeAnswer, hone]
      · simp [hone]
    · exact hended _ hone

theorem KeepsStore.requestWrite (message : List Byte) (s : State) : KeepsStore s (s.requestWrite message) := by
  refine .trans (s := if s.panelReady then s.takeWritten message else s) ?_ (.of_same rfl rfl rfl)
  split
  · unfold State.takeWritten
    split
    · exact .takeRequest ..
    · exact .refl s
  · exact .refl s

theorem KeepsStore.settleReturned {s t : State} (h : KeepsStore s t) : KeepsStore s t.settleReturned :=
  h.trans (.of_same (by simp) (by simp) (by simp))

/-- Every command but FULL_RESET and POWER_LOSS, which abandon a store with its reservation or without. -/
theorem KeepsStore.effect (i : Instr) (s : State) (hi : i.isFullReset = false) (hpower : i ≠ .powerLoss) :
    KeepsStore s (i.effect s) := by
  cases i with
  | fullReset straps => cases hi
  | powerLoss => exact absurd rfl hpower
  | loadEnd silentFrom => exact .loadEnd silentFrom s
  | storeRecordChecked readBack => exact .storeRecordChecked readBack s
  | requestWrite message => exact (KeepsStore.requestWrite message s).settleReturned
  | pathPrefer slot tag port => exact (KeepsStore.takeRequest ..).settleReturned
  | unknownKind | get | writeDesiredSetting | writeColumnMode | writeCrosspoint | writeDuckCeiling | writeOutputSource
  | writeOutputLevel | writeOverride | writeTalkClass | writeTalkLimit | writeGraceTime | writeRevertHoldTime | writeOtherIndex
  | setWindowMatrix | setWindowRun | claim | release | forceRelease | clearTrespass | batchOpen | batchApply | batchDrop | talkPress
  | talkRelease | rebase | clearOvers | recallSafe | describe | store | restart | metersOn | metersOff => exact .takeRequest ..
  | _ => exact .of_same (by simp [Instr.effect]) (by simp [Instr.effect]) (by simp [Instr.effect])

/-- Settles O5: each command keeps the memory's form and every length, and so does a step. -/
theorem memoryAndTablesStayWellFormed : Obligations.MemoryAndTablesStayWellFormed := by
  refine ⟨step_keeps State.MemoryCanonical (fun _ _ => id) fun i s hs => ?_,
    step_keeps State.Shaped (fun _ _ hs => { hs with }) fun i s => (KeepsRecords.effect_of_room i s).shape⟩
  cases hi : i.isFullReset with
  | true =>
    cases i
    case fullReset straps => exact s.abandonStore_wf hs
    all_goals cases hi
  | false =>
    by_cases hpower : i = .powerLoss
    · subst hpower
      exact s.abandonStore_wf hs
    · exact (KeepsStore.effect i s hi hpower).memory hs

/-- Settles O9: each command keeps the three record laws, and so does a step. -/
theorem recordsStayInRange : Obligations.RecordsStayInRange :=
  ⟨step_keeps State.CompLawful (fun _ _ => id) fun i s => (KeepsRecords.effect_of_room i s).trims,
    step_keeps State.OutputsLawful (fun _ _ => id) fun i s => (KeepsRecords.effect_of_room i s).outputs,
    step_keeps State.BatchesLawful (fun _ _ => id) fun i s => (KeepsRecords.effect_of_room i s).batches⟩

/-! ### The queues -/

/-- A law that an unpowered part keeps by doing nothing is kept by every step if FULL_RESET sets it up and no command of a powered
part breaks it. -/
theorem step_keeps_powered (P : State → Prop) (hq : ∀ s l, P s → P { s with pending := l })
    (hreset : ∀ straps s, P (State.fullReset straps s))
    (he : ∀ (i : Instr) s, i.isFullReset = false → s.powered = true → P s → P (i.effect s)) (s t : State) (hs : P s)
    (h : step s = .next t) : P t := by
  unfold step at h
  split at h
  · cases h; exact hs
  · rename_i c rest _
    have hs' := hq s rest hs
    cases hc : c.isFullReset with
    | true =>
      cases c with
      | fullReset straps => cases h; exact hreset straps _
      | _ => cases hc
    | false =>
      rw [exec_live c _ hc] at h
      unfold live at h
      split at h
      next hpower => cases h; exact he c _ hc hpower hs'
      · cases h; exact hs'

theorem State.QueuesLawful.effect (i : Instr) (s : State) (hi : i.isFullReset = false) (hpower : s.powered = true)
    (hs : s.QueuesLawful) : (i.effect s).QueuesLawful := by
  have hreserved := hs.reservation hpower
  have hkept : KeepsRecords 32 s (i.effect s) :=
    .effect le_rfl i s fun hstore hnone => by simp [hstore, hnone] at hreserved
  refine { panel := hkept.panel.trans (max_le hs.panel le_rfl), reservation := fun ht => ?_,
           answers := fun d => (hkept.answers d).trans (max_le (hs.answers d) le_rfl) }
  by_cases hloss : i = .powerLoss
  · subst hloss
    cases ht
  · exact (KeepsStore.effect i s hi hloss).reserved hreserved

/-- Settles O8: each command keeps the queues within their room, and so does a step. -/
theorem queuesStayWithinRoom : Obligations.QueuesStayWithinRoom :=
  step_keeps_powered State.QueuesLawful (fun _ _ hs => { hs with })
    (fun _ _ => { panel := Nat.zero_le _, reservation := fun _ => rfl, answers := fun d => by cases d <;> exact Nat.zero_le _ })
    State.QueuesLawful.effect

end Sys2Proof.Machine

/-!
The machine as a whole (R194 to R197): steps, the queue of waiting commands, the full reset with its values and laws, the loss of
power, RESTART and the end of start-up.
-/
namespace Sys2Proof.Machine

/-- Settles O1: that is how a step is defined. -/
theorem stepTakesFrontCommand : Obligations.StepTakesFrontCommand := fun _ _ _ => rfl

/-! ### Commands of a powered part -/

theorem exec_of_powered {i : Instr} {s : State} (hi : i.isFullReset = false) (hpower : s.powered = true) :
    exec i s = .next (i.effect s) := (exec_live i s hi).trans (if_pos hpower)

/-- A request with power, start-up complete and room goes on to the checks of R171. -/
theorem live_takeRequest_of_accepts {sl : SlotId} {s : State} (h : s.Accepts sl) (tag : Byte) (r : Request) :
    live (State.takeRequest sl tag r) s = .next (s.answerRequest sl tag r) := by
  obtain ⟨hpower, _, hroom⟩ := h
  rw [live_powered _ _ hpower, State.takeRequest_of_hasRoom hroom]

@[simp] theorem State.takeRequest_pending (sl : SlotId) (tag : Byte) (r : Request) (s : State) :
    (s.takeRequest sl tag r).pending = s.pending :=
  State.takeRequest_cases (P := fun t => t.pending = s.pending) rfl (fun _ => rfl) fun _ =>
    State.answerRequest_cases (P := fun t => t.pending = s.pending) (fun _ => by simp) (fun _ => by simp [Reply.place])
      (fun _ => by simp) (fun codes _ _ _ => by simp) (fun _ _ => rfl)

@[simp] theorem State.requestWrite_pending (message : List Byte) (s : State) : (s.requestWrite message).pending = s.pending := by
  show (if s.panelReady then s.takeWritten message else s).pending = s.pending
  unfold State.takeWritten State.takeMessage
  repeat' split
  all_goals simp

/-- None but the sender changes the queue of waiting commands. -/
theorem effect_pending (i : Instr) (s : State) : (i.effect s).pending = s.pending := by
  cases i with
  | fullReset straps => rfl
  | unknownTransaction code => rfl
  | _ => simp [Instr.effect, State.takeSet, State.powerLoss]

/-- Settles O2: every command is its effect or nothing, and no effect touches the queue. -/
theorem everyCommandCompletes : Obligations.EveryCommandCompletes := by
  refine ⟨fun c s => ?_, fun s hnone => ?_, fun c s hpower hreset => ?_⟩
  · rw [exec_eq]
    split
    · exact ⟨_, rfl, effect_pending c s⟩
    · exact ⟨s, rfl, rfl⟩
  · unfold step
    rw [hnone]
  · have hc : c.isFullReset = false := by
      cases c with
      | fullReset straps => exact absurd rfl (hreset straps)
      | _ => rfl
    rw [exec_live c s hc, live_unpowered _ _ hpower]

/-! ### The full reset -/

/-- Settles O3: the records of a part after a full reset, table by table. -/
theorem resetValues : Obligations.ResetValues := by
  refine ⟨fun p => by cases p <;> rfl, fun d => by cases d <;> exact ⟨rfl, rfl⟩, rfl, rfl, rfl, rfl, fun c _ => nth_replicate .., fun i _ => ?_,
    rfl, rfl, rfl, ⟨fun m _ => ⟨nth_replicate .., nth_replicate ..⟩, fun o _ => nth_replicate ..⟩, fun b => by cases b <;> rfl,
    rfl, rfl, rfl, rfl, rfl, rfl, rfl, rfl, rfl, rfl, fun d => by cases d <;> rfl, rfl, fun x => PerSlot.get_all .., fun n _ => nth_replicate ..,
    fun x => PerSlot.get_all .., rfl, rfl, rfl, rfl, rfl⟩
  have hcomp : State.reset.inputComp i = InputComp.reset := nth_replicate ..
  refine ⟨nth_replicate .., by rw [hcomp]; rfl, fun c => ?_⟩
  unfold State.cell
  rw [hcomp]
  match c with
  | 0 | 1 | 2 | 3 => rfl

theorem State.reset_slot (d : Desk) : State.reset.slot d = Slot.reset := PerDesk.get_all ..

theorem State.reset_port (p : LinkPort) : State.reset.port p = Port.reset := PerPort.get_all ..

theorem State.reset_channel (i : Nat) : State.reset.channel i = Channel.reset := nth_replicate ..

theorem State.reset_attachLawful : State.reset.AttachLawful where
  activePath d h := by rw [State.reset_slot] at h; cases h
  onlyActive d _ := by rw [State.reset_slot]; rfl
  silent d h := by rw [State.reset_slot] at h; cases h
  vacant d _ := by rw [State.reset_slot]; rfl
  twoPorts d := by rw [State.reset_slot]; decide
  oneSlot d e p h := by rw [State.reset_slot] at h; cases h
  oneIdentity d e h := by rw [State.reset_slot] at h; exact absurd rfl h
  identity d p h := by rw [State.reset_slot] at h; cases h
  carried p h := by rw [State.reset_port] at h; cases h
  waiting := ⟨List.nodup_nil, fun p h => by cases h⟩
  strangers p d h := by cases h
  noVacancy _ := rfl
  surplus p h := by rw [State.reset_port] at h; cases h
  both p d h := by rw [State.reset_port] at h; cases h

theorem State.reset_gainsAgree : State.reset.GainsAgree where
  inputs := ⟨rfl, rfl⟩
  equal i _ h := by rw [State.reset_channel] at h; exact absurd rfl h
  absent i _ := by rw [State.reset_channel]; exact ⟨nofun, List.not_mem_nil, List.not_mem_nil⟩

theorem State.reset_talkLawful : State.reset.TalkLawful where
  tb1 := BusRec.reset_lawful ..
  tb2 := BusRec.reset_lawful ..
  idleBefore _ := ⟨rfl, rfl⟩
  loadFirst _ := rfl

theorem State.reset_queuesLawful : State.reset.QueuesLawful where
  panel := Nat.zero_le _
  reservation _ := rfl
  answers d := by cases d <;> exact Nat.zero_le _

/-- Settles O4: each law of a part right after a full reset. -/
theorem resetObeysTheLaws : Obligations.ResetObeysTheLaws :=
  { memory := State.reset_memory_wf, shape := State.reset_shaped, talk := State.reset_talkLawful, attach := State.reset_attachLawful,
    queues := State.reset_queuesLawful, trims := State.reset_compLawful, gains := State.reset_gainsAgree,
    outputs := State.reset_outputsLawful, batches := State.reset_batchesLawful }

/-! ### What ends a store -/

theorem State.abandonStore_eq (s : State) :
    ∃ m f, s.StoreLeft m ∧ s.abandonStore = { s with config := { s.config with store := none }, memory := m, free := f } := by
  unfold State.StoreLeft State.abandonStore
  cases hstore : s.config.store with
  | none =>
    have hconfig : s.config = { s.config with store := none } := by rw [← hstore]
    exact ⟨s.memory, s.free, rfl, by rw [← hconfig]⟩
  | some job =>
    exact ⟨_, s.free + 1, ⟨_, Nat.lt_succ_iff.mp (Nat.mod_lt _ (Nat.succ_pos _)), rfl⟩, rfl⟩

/-- Settles O11: both abandon the store in progress, and the rest is as they are defined. -/
theorem fullResetAndPowerLoss : Obligations.FullResetAndPowerLoss := by
  refine ⟨fun straps s => ?_, fun s hpower => ?_⟩
  · obtain ⟨m, f, hleft, hstore⟩ := s.abandonStore_eq
    refine ⟨m, f, hleft, ?_⟩
    show Host.Outcome.next (s.fullReset straps) = _
    simp only [State.fullReset, hstore]
  · obtain ⟨m, f, hleft, hstore⟩ := s.abandonStore_eq
    refine ⟨m, f, hleft, ?_⟩
    rw [exec_of_powered rfl hpower]
    show Host.Outcome.next s.powerLoss = _
    simp only [State.powerLoss, hstore]

/-- Settles O12: the request passes its checks, and what the restart keeps stands. -/
theorem restartEffect : Obligations.RestartEffect := by
  intro tag s haccepts
  obtain ⟨m, f, hleft, hstore⟩ := s.abandonStore_eq
  refine ⟨m, f, hleft, ?_⟩
  have hstarted : s.started = true := haccepts.2.1
  have hanswer : s.answerRequest .panel tag .restart = s.restartAnswered tag := by
    simp [State.answerRequest, hstarted]
  rw [exec_live _ _ rfl]
  refine (live_takeRequest_of_accepts haccepts tag .restart).trans ?_
  rw [hanswer]
  simp only [State.restartAnswered, State.restart, hstore]
  rfl

/-! ### Start-up -/

/-- Settles O13: start-up waits for the load's end and the eighth poll slot. -/
theorem startupCompletes : Obligations.StartupCompletes := by
  intro s hpower
  rw [exec_of_powered rfl hpower]
  exact ⟨fun hboth => congrArg _ (if_pos hboth), fun hnot => congrArg _ (if_neg hnot)⟩

end Sys2Proof.Machine

/-!
The checks that every request passes before the rule of its kind (R170 to R173, R185), and the requests whose rule touches one
record: batches (R162 to R167), meters (R146, R149) and the panel's own kinds (R171).
-/
namespace Sys2Proof.Machine

/-! ### A command that is a request -/

/-- With no frame returned at a hitless switch nothing is left to settle. -/
theorem State.settleReturned_of_none {s : State} (h : s.NoneReturned) : s.settleReturned = s := by
  have hone (d : Desk) : s.takeReturned d = s := by
    unfold State.takeReturned
    split
    · rfl
    next p _ => rw [h p]
  show ((s.takeReturned .d1).takeReturned .d2).takeReturned .d3 = s
  rw [hone, hone, hone]

theorem State.NoneReturned.of_ports {s t : State} (h : s.NoneReturned) (hports : t.ports = s.ports) : t.NoneReturned := by
  intro p
  unfold State.port
  rw [hports]
  exact h p

section
variable {c : Instr} {sl : SlotId} {tag : Byte} {r : Request} {s : State}

/-- A command that is a request is taken as one; PATH_PREFER settles a returned frame as well. -/
theorem exec_of_request (hc : c.request = some (sl, tag, r)) (s : State) :
    exec c s = live (State.takeRequest sl tag r) s ∨ exec c s = live (fun s => (s.takeRequest sl tag r).settleReturned) s := by
  cases c
  case pathPrefer => cases hc; exact .inr rfl
  all_goals
    cases hc
    try exact .inl rfl

/-- Only PATH_PREFER settles anything. -/
theorem exec_of_request_ne (hc : c.request = some (sl, tag, r)) (hprefer : ∀ p, r ≠ .pathPrefer p) (s : State) :
    exec c s = live (State.takeRequest sl tag r) s := by
  cases c
  case pathPrefer => cases hc; exact absurd rfl (hprefer _)
  all_goals
    cases hc
    try rfl

/-- What a request comes to, if it leaves the ports as they are. -/
theorem exec_request_of_eq {t : State} (hc : c.request = some (sl, tag, r)) (hpower : s.powered = true) (hnone : s.NoneReturned)
    (htake : s.takeRequest sl tag r = t) (hports : t.ports = s.ports) : exec c s = .next t := by
  rcases exec_of_request hc s with h | h
  · rw [h, live_powered _ _ hpower, htake]
  · rw [h, live_powered _ _ hpower, htake, State.settleReturned_of_none (hnone.of_ports hports)]

/-- An accepted request is answered by the rule of its kind (10.4). -/
theorem exec_request_of_accepts (hc : c.request = some (sl, tag, r)) (hprefer : ∀ p, r ≠ .pathPrefer p) (h : s.Accepts sl)
    (hpanel : r.panelOnly = true → sl = .panel) (hplace : r.placesOwnAnswer = false) :
    exec c s = .next ((s.perform sl r).place sl tag r.kind) := by
  rw [exec_of_request_ne hc hprefer, live_takeRequest_of_accepts h, State.answerRequest_of_started h.2.1 hpanel hplace]

/-- A panel-only kind from a desk slot (R171, check 5). -/
theorem exec_request_of_panelOnly (hc : c.request = some (sl, tag, r)) (hprefer : ∀ p, r ≠ .pathPrefer p) (h : s.Accepts sl)
    (hpanel : r.panelOnly = true) (hsl : sl ≠ .panel) : exec c s = .next (s.answer sl tag r.kind .notPermitted .none) := by
  rw [exec_of_request_ne hc hprefer, live_takeRequest_of_accepts h]
  simp [State.answerRequest, h.2.1, hpanel, hsl]

end

@[simp] theorem State.answer_ports (sl : SlotId) (tag kind : Byte) (r : Result) (data : AnswerData) (s : State) :
    (s.answer sl tag kind r data).ports = s.ports := by cases sl <;> rfl

/-- Settles O44: the checks of R171 one after another, and where an answer goes. -/
theorem requestChecks : Obligations.RequestChecks := by
  refine ⟨fun c sl tag r s hc hpower hnone => ⟨fun d hsl hvacant => ?_, fun hfull => ?_, fun hroom => ⟨fun hstarted => ?_,
    fun hstarted hpanel hsl => ?_, fun hstarted hbad => ?_⟩⟩, fun tag kind r data s => ⟨rfl, fun _ => rfl⟩⟩
  · subst hsl
    exact exec_request_of_eq hc hpower hnone (if_pos hvacant) rfl
  · refine exec_request_of_eq hc hpower hnone ?_ (by cases sl <;> rfl)
    cases sl with
    | panel =>
      refine if_neg (c := s.panelReady = true) ?_
      rw [show s.panelReady = false from hfull]
      exact Bool.false_ne_true
    | desk d =>
      obtain ⟨hthere, hready⟩ := hfull
      refine (if_neg hthere).trans (if_neg ?_)
      rw [hready]
      exact Bool.false_ne_true
  · refine exec_request_of_eq hc hpower hnone ?_ (State.answer_ports ..)
    rw [State.takeRequest_of_hasRoom hroom]
    simp [State.answerRequest, hstarted]
  · refine exec_request_of_eq hc hpower hnone ?_ (State.answer_ports ..)
    rw [State.takeRequest_of_hasRoom hroom]
    simp [State.answerRequest, hstarted, hpanel, hsl]
  · obtain ⟨k, rfl⟩ := hbad
    refine exec_request_of_eq hc hpower hnone ?_ (State.answer_ports ..)
    rw [State.takeRequest_of_hasRoom hroom, State.answerRequest_of_started hstarted (fun h => Bool.noConfusion h) rfl]
    rfl

/-! ### Batches -/

section
variable {sl : SlotId} {s t : State} {x : Result} (h : s.Accepts sl) (tag : Byte)
include h

theorem exec_batchOpen_of_accepts (hopen : s.batchOpen sl = (t, x)) :
    exec (.batchOpen sl tag) s = .next (t.answer sl tag 0x28#8 x .none) :=
  live_takeRequest_of_perform (r := .batchOpen) h nofun rfl (congrArg Reply.plain hopen) tag

theorem exec_batchDrop_of_accepts (hdrop : s.batchDrop sl = (t, x)) :
    exec (.batchDrop sl tag) s = .next (t.answer sl tag 0x2A#8 x .none) :=
  live_takeRequest_of_perform (r := .batchDrop) h nofun rfl (congrArg Reply.plain hdrop) tag

theorem exec_batchApply_of_accepts : exec (.batchApply sl tag) s = .next (s.batchApply sl tag) := by
  rw [exec_of_request_ne (sl := sl) (tag := tag) (r := .batchApply) rfl nofun, live_takeRequest_of_accepts h]
  simp [State.answerRequest, h.2.1, Request.panelOnly]

end

/-- Settles O54: the rows of BATCH-OPEN, BATCH-APPLY and BATCH-DROP by the state of the slot's batch. -/
theorem batchRequests : Obligations.BatchRequests := by
  refine ⟨fun sl tag s h => ⟨fun hidle => exec_batchOpen_of_accepts h tag (if_pos hidle), fun hactive hbusy => ?_,
    fun hactive hfree => ?_⟩, fun sl tag s h => ?_,
    fun sl tag s h => ⟨fun hb => exec_batchDrop_of_accepts h tag ?_, fun hb => exec_batchDrop_of_accepts h tag ?_,
      fun hb => exec_batchDrop_of_accepts h tag ?_⟩⟩
  · refine exec_batchOpen_of_accepts h tag ((if_neg (not_not_intro hactive)).trans ?_)
    cases hb : (s.batch sl).state with
    | none => exact absurd hb hbusy
    | opened => rfl
    | sealed => rfl
  · refine exec_batchOpen_of_accepts h tag ((if_neg (not_not_intro hactive)).trans ?_)
    rw [hfree]
  · rw [exec_batchApply_of_accepts h]
    unfold State.batchApply
    exact ⟨fun hb => by rw [hb]; rfl, fun hb => by rw [hb]; rfl, fun hb => by rw [hb]; rfl⟩
  · simp only [State.batchDrop, hb]
  · simp only [State.batchDrop, hb]; rfl
  · simp only [State.batchDrop, hb]

/-! ### Meters, and the panel's own kinds -/

/-- Settles O59: the rules of the three meter requests, and check 5 for a desk slot. -/
theorem meterRequests : Obligations.MeterRequests := by
  intro sl tag s h
  have hclear : exec (.clearOvers sl tag) s = .next ((s.doClearOvers sl).place sl tag 0x39#8) :=
    exec_request_of_accepts (r := .clearOvers) rfl nofun h nofun rfl
  refine ⟨fun hactive => ?_, fun hidle => ?_, fun hpanel => ⟨?_, ?_⟩, fun hdesk => ⟨?_, ?_, fun d => ?_, fun codes hlo hhi => ?_, ?_⟩⟩
  · rw [hclear, show s.doClearOvers sl = _ from if_neg (not_not_intro hactive)]
    rfl
  · rw [hclear, show s.doClearOvers sl = _ from if_pos hidle]
    rfl
  · exact exec_request_of_accepts (r := .metersOn) rfl nofun h (fun _ => hpanel) rfl
  · exact exec_request_of_accepts (r := .metersOff) rfl nofun h (fun _ => hpanel) rfl
  · exact exec_request_of_panelOnly (r := .metersOn) rfl nofun h rfl hdesk
  · exact exec_request_of_panelOnly (r := .metersOff) rfl nofun h rfl hdesk
  · exact exec_request_of_panelOnly (r := .forceRelease d.toNat) rfl nofun h rfl hdesk
  · refine exec_request_of_panelOnly (r := .store (codes.map BitVec.toNat)) ?_ nofun h rfl hdesk
    simp [Instr.request, hlo, hhi]
  · exact exec_request_of_panelOnly (r := .restart) rfl nofun h rfl hdesk

end Sys2Proof.Machine

/-!
The talk requests and the talk timeout (R107, R108, R111 to R116).
-/
namespace Sys2Proof.Machine

/-! ### The places of R107 -/

theorem placePreempted_split (cls : SlotId → Nat) (x : SlotId) : ∀ l : List SlotId,
    ∃ higher lower, l = higher ++ lower ∧ (∀ y, y ∈ higher → cls x < cls y) ∧
      (∀ y, lower.head? = some y → cls y ≤ cls x) ∧ placePreempted cls x l = higher ++ x :: lower
  | [] => ⟨[], [], rfl, nofun, nofun, rfl⟩
  | z :: zs => by
    by_cases hz : cls x < cls z
    · obtain ⟨higher, lower, hsplit, hhigher, hlower, hplace⟩ := placePreempted_split cls x zs
      refine ⟨z :: higher, lower, by rw [hsplit, List.cons_append], List.forall_mem_cons.mpr ⟨hz, hhigher⟩, hlower, ?_⟩
      rw [placePreempted, if_pos hz, hplace, List.cons_append]
    · refine ⟨[], z :: zs, rfl, nofun, fun y hy => ?_, by rw [placePreempted, if_neg hz, List.nil_append]⟩
      cases hy
      exact Nat.le_of_not_lt hz

theorem placeQueued_split (cls : SlotId → Nat) (x : SlotId) : ∀ l : List SlotId,
    ∃ before after, l = before ++ after ∧ (∀ y, y ∈ before → cls x ≤ cls y) ∧
      (∀ y, after.head? = some y → cls y < cls x) ∧ placeQueued cls x l = before ++ x :: after
  | [] => ⟨[], [], rfl, nofun, nofun, rfl⟩
  | z :: zs => by
    by_cases hz : cls x ≤ cls z
    · obtain ⟨before, after, hsplit, hbefore, hafter, hplace⟩ := placeQueued_split cls x zs
      refine ⟨z :: before, after, by rw [hsplit, List.cons_append], List.forall_mem_cons.mpr ⟨hz, hbefore⟩, hafter, ?_⟩
      rw [placeQueued, if_pos hz, hplace, List.cons_append]
    · refine ⟨[], z :: zs, rfl, nofun, fun y hy => ?_, by rw [placeQueued, if_neg hz, List.nil_append]⟩
      cases hy
      exact Nat.lt_of_not_le hz

/-! ### The request and the bus it names -/

/-- The code of a bus in a request (6.3). -/
def busCode : Bus → Byte
  | .tb1 => 1#8
  | .tb2 => 2#8

theorem busOf_busCode (b : Bus) : busOf (busCode b).toNat = some b := by cases b <;> rfl

theorem busOf_of_ne {n : Byte} (h1 : n ≠ 1#8) (h2 : n ≠ 2#8) : busOf n.toNat = none := by
  have h1' : n.toNat ≠ 1 := fun h => h1 (BitVec.eq_of_toNat_eq h)
  have h2' : n.toNat ≠ 2 := fun h => h2 (BitVec.eq_of_toNat_eq h)
  exact (if_neg h1').trans (if_neg h2')

theorem State.modBus_congr {s : State} {b : Bus} {f g : BusRec → BusRec} (h : f (s.bus b) = g (s.bus b)) :
    s.modBus b f = s.modBus b g := by
  show { s with buses := s.buses.set b (f (s.bus b)) } = { s with buses := s.buses.set b (g (s.bus b)) }
  rw [h]

theorem State.modBus_id {s : State} {b : Bus} {f : BusRec → BusRec} (h : f (s.bus b) = s.bus b) : s.modBus b f = s := by
  refine (State.modBus_congr (g := id) h).trans ?_
  cases b <;> rfl

theorem State.talkPress_busCode {sl : SlotId} {s : State} (hactive : s.slotState sl = .active) (b : Bus) :
    s.talkPress sl (busCode b).toNat =
      (s.modBus b fun r => (r.press s.talkClassOf s.grantLimit sl).1, ((s.bus b).press s.talkClassOf s.grantLimit sl).2) := by
  unfold State.talkPress
  rw [busOf_busCode]
  exact if_neg (not_not_intro hactive)

theorem State.talkRelease_busCode (sl : SlotId) (s : State) (b : Bus) :
    s.talkRelease sl (busCode b).toNat =
      (s.modBus b fun r => (r.release s.grantLimit sl).1, ((s.bus b).release s.grantLimit sl).2) := by
  unfold State.talkRelease
  rw [busOf_busCode]
  rfl

/-! ### The rows of R112 and R114 -/

section
variable {cls : SlotId → Nat} {limit : Nat} {sl : SlotId} {b : BusRec}

theorem BusRec.press_of_talker (h : b.talker = some sl) : b.press cls limit sl = (b, .granted) := if_pos h

theorem BusRec.press_of_waiting (h : b.talker ≠ some sl) (hw : sl ∈ b.waiting) : b.press cls limit sl = (b, .queued) :=
  (if_neg h).trans (if_pos hw)

theorem BusRec.press_of_free (h : b.talker = none) (hw : sl ∉ b.waiting) :
    b.press cls limit sl = (b.grant limit sl, .granted) := by
  unfold BusRec.press
  rw [h, if_neg nofun, if_neg hw]

theorem BusRec.press_of_lower {x : SlotId} (h : b.talker = some x) (hx : x ≠ sl) (hw : sl ∉ b.waiting) (hcls : cls x < cls sl) :
    b.press cls limit sl = ({ b with waiting := placePreempted cls x b.waiting }.grant limit sl, .granted) := by
  have hne : b.talker ≠ some sl := by rw [h]; simpa using hx
  unfold BusRec.press
  rw [if_neg hne, if_neg hw, h]
  exact if_pos hcls

theorem BusRec.press_of_not_lower {x : SlotId} (h : b.talker = some x) (hx : x ≠ sl) (hw : sl ∉ b.waiting)
    (hcls : cls sl ≤ cls x) : b.press cls limit sl = ({ b with waiting := placeQueued cls sl b.waiting }, .queued) := by
  have hne : b.talker ≠ some sl := by rw [h]; simpa using hx
  unfold BusRec.press
  rw [if_neg hne, if_neg hw, h]
  exact if_neg (Nat.not_lt.mpr hcls)

theorem BusRec.release_of_talker (h : b.talker = some sl) : b.release limit sl = (b.handOn limit, .done) := if_pos h

theorem BusRec.release_of_waiting (h : b.talker ≠ some sl) (hw : sl ∈ b.waiting) :
    b.release limit sl = ({ b with waiting := b.waiting.filter (· ≠ sl) }, .done) := (if_neg h).trans (if_pos hw)

theorem BusRec.release_of_neither (h : b.talker ≠ some sl) (hw : sl ∉ b.waiting) : b.release limit sl = (b, .tooLate) :=
  (if_neg h).trans (if_neg hw)

theorem BusRec.timeout_of_expired {x : SlotId} (h : b.talker = some x) (hb : b.expired = true) :
    b.timeout limit = { b.handOn limit with notices := b.notices.set x true } := by
  unfold BusRec.timeout
  rw [h]
  exact if_pos hb

theorem BusRec.timeout_of_not_expired (hb : b.expired = false) : b.timeout limit = b := by
  unfold BusRec.timeout
  split
  · rw [hb]
    rfl
  · rfl

theorem BusRec.expired_of_timer {g : Timer} (h : b.timer = some g) :
    b.expired = (decide (g.limit ≠ 0) && decide (g.limit ≤ g.count)) := by
  unfold BusRec.expired
  rw [h]

end

/-! ### The commands -/

section
variable {sl : SlotId} {s t : State} {n : Byte} {x : Result} (h : s.Accepts sl) (tag : Byte)
include h

theorem exec_talkPress_of_accepts (hpress : s.talkPress sl n.toNat = (t, x)) :
    exec (.talkPress sl tag n) s = .next (t.answer sl tag 0x30#8 x .none) :=
  live_takeRequest_of_perform (r := .talkPress n.toNat) h nofun rfl (congrArg Reply.plain hpress) tag

theorem exec_talkRelease_of_accepts (hrelease : s.talkRelease sl n.toNat = (t, x)) :
    exec (.talkRelease sl tag n) s = .next (t.answer sl tag 0x31#8 x .none) :=
  live_takeRequest_of_perform (r := .talkRelease n.toNat) h nofun rfl (congrArg Reply.plain hrelease) tag

end

/-- A press of an ACTIVE slot that leaves the record `r` and is answered `x`. -/
theorem exec_talkPress_of_press {sl : SlotId} {s : State} {b : Bus} {r : BusRec} {x : Result} (h : s.Accepts sl) (tag : Byte)
    (hactive : s.slotState sl = .active) (hpress : (s.bus b).press s.talkClassOf s.grantLimit sl = (r, x)) :
    exec (.talkPress sl tag (busCode b)) s = .next ((s.modBus b fun _ => r).answer sl tag 0x30#8 x .none) := by
  refine exec_talkPress_of_accepts h tag ?_
  rw [State.talkPress_busCode hactive, hpress, State.modBus_congr (g := fun _ => r) (by rw [hpress])]

/-- A release that leaves the record `f r` of a bus record `r` and is answered `x`. -/
theorem exec_talkRelease_of_release {sl : SlotId} {s : State} {b : Bus} {f : BusRec → BusRec} {x : Result} (h : s.Accepts sl)
    (tag : Byte) (hrelease : (s.bus b).release s.grantLimit sl = (f (s.bus b), x)) :
    exec (.talkRelease sl tag (busCode b)) s = .next ((s.modBus b f).answer sl tag 0x31#8 x .none) := by
  refine exec_talkRelease_of_accepts h tag ?_
  rw [State.talkRelease_busCode, hrelease, State.modBus_congr (g := f) (by rw [hrelease])]

theorem exec_talkPress_rows {sl : SlotId} {s : State} (h : s.Accepts sl) (tag : Byte) (b : Bus)
    (hactive : s.slotState sl = .active) :
    let granted := fun (waiting : List SlotId) => s.modBus b fun r => { r with
      talker := some sl, waiting := waiting, timer := some { count := 0, limit := s.talkLimit * 48000 } }
    ((s.bus b).talker = some sl → exec (.talkPress sl tag (busCode b)) s = .next (s.answer sl tag 0x30#8 .granted .none)) ∧
    ((s.bus b).talker ≠ some sl → sl ∈ (s.bus b).waiting →
      exec (.talkPress sl tag (busCode b)) s = .next (s.answer sl tag 0x30#8 .queued .none)) ∧
    ((s.bus b).talker = none → sl ∉ (s.bus b).waiting →
      exec (.talkPress sl tag (busCode b)) s = .next ((granted (s.bus b).waiting).answer sl tag 0x30#8 .granted .none)) ∧
    (∀ x, (s.bus b).talker = some x → x ≠ sl → sl ∉ (s.bus b).waiting → s.talkClassOf x < s.talkClassOf sl →
      ∃ higher lower, (s.bus b).waiting = higher ++ lower ∧ (∀ y, y ∈ higher → s.talkClassOf x < s.talkClassOf y) ∧
        (∀ y, lower.head? = some y → s.talkClassOf y ≤ s.talkClassOf x) ∧
        exec (.talkPress sl tag (busCode b)) s = .next ((granted (higher ++ x :: lower)).answer sl tag 0x30#8 .granted .none)) ∧
    (∀ x, (s.bus b).talker = some x → x ≠ sl → sl ∉ (s.bus b).waiting → s.talkClassOf sl ≤ s.talkClassOf x →
      ∃ before after, (s.bus b).waiting = before ++ after ∧ (∀ y, y ∈ before → s.talkClassOf sl ≤ s.talkClassOf y) ∧
        (∀ y, after.head? = some y → s.talkClassOf y < s.talkClassOf sl) ∧
        exec (.talkPress sl tag (busCode b)) s =
          .next ((s.modBus b fun r => { r with waiting := before ++ sl :: after }).answer sl tag 0x30#8 .queued .none)) := by
  refine ⟨fun htalker => ?_, fun hne hwaits => ?_, fun hfree hw => ?_, fun x hx hne hw hcls => ?_, fun x hx hne hw hcls => ?_⟩
  · rw [exec_talkPress_of_press h tag hactive (BusRec.press_of_talker htalker), State.modBus_id rfl]
  · rw [exec_talkPress_of_press h tag hactive (BusRec.press_of_waiting hne hwaits), State.modBus_id rfl]
  · exact exec_talkPress_of_press h tag hactive (BusRec.press_of_free hfree hw)
  · obtain ⟨higher, lower, hsplit, hhigher, hlower, hplace⟩ := placePreempted_split s.talkClassOf x (s.bus b).waiting
    refine ⟨higher, lower, hsplit, hhigher, hlower, ?_⟩
    rw [exec_talkPress_of_press h tag hactive (BusRec.press_of_lower hx hne hw hcls), hplace]
    rfl
  · obtain ⟨before, after, hsplit, hbefore, hafter, hplace⟩ := placeQueued_split s.talkClassOf sl (s.bus b).waiting
    refine ⟨before, after, hsplit, hbefore, hafter, ?_⟩
    rw [exec_talkPress_of_press h tag hactive (BusRec.press_of_not_lower hx hne hw hcls), hplace]
    rfl

/-- Settles O56: the rows of R112, R114 and R116 for the bus named, and the answers to any other bus and to a slot not ACTIVE. -/
theorem talkRequests : Obligations.TalkRequests := by
  refine ⟨fun sl tag b s h => ?_, fun b s => ?_⟩
  · intro code granted
    have hcode : code = busCode b := by cases b <;> rfl
    rw [hcode]
    refine ⟨exec_talkPress_rows h tag b, fun hidle => exec_talkPress_of_accepts h tag ?_, fun n h1 h2 =>
      exec_talkPress_of_accepts h tag ?_⟩
    · unfold State.talkPress
      rw [busOf_busCode]
      exact if_pos hidle
    · unfold State.talkPress
      rw [busOf_of_ne h1 h2]
  · intro handed
    have hhanded : handed = BusRec.handOn s.grantLimit := by
      funext ⟨talker, waiting, timer, notices⟩
      cases waiting <;> rfl
    rw [hhanded]
    refine ⟨fun sl tag h => ?_, fun hpower => ⟨fun x g hx hg hlimit hcount => ?_, fun hrunning => ?_⟩⟩
    · intro code
      have hcode : code = busCode b := by cases b <;> rfl
      rw [hcode]
      refine ⟨fun htalker => exec_talkRelease_of_release h tag (BusRec.release_of_talker htalker),
        fun hne hwaits => exec_talkRelease_of_release h tag (BusRec.release_of_waiting hne hwaits), fun hne hw => ?_,
        fun n h1 h2 => exec_talkRelease_of_accepts h tag ?_⟩
      · rw [exec_talkRelease_of_release (f := id) h tag (BusRec.release_of_neither hne hw), State.modBus_id rfl]
      · unfold State.talkRelease
        rw [busOf_of_ne h1 h2]
    · have hexpired : (s.bus b).expired = true := by simp [BusRec.expired_of_timer hg, hlimit, hcount]
      rw [exec_of_powered rfl hpower]
      refine congrArg _ (State.modBus_congr ?_)
      rw [BusRec.timeout_of_expired hx hexpired]
    · have hnot : (s.bus b).expired = false := by
        cases hg : (s.bus b).timer with
        | none => simp [BusRec.expired, hg]
        | some g =>
          rw [BusRec.expired_of_timer hg]
          rcases hrunning g hg with h0 | hlt
          · simp [h0]
          · simp [Nat.not_le.mpr hlt]
      rw [exec_of_powered rfl hpower]
      exact congrArg _ (State.modBus_id (BusRec.timeout_of_not_expired hnot))

end Sys2Proof.Machine

/-!
The rights test and the trespass record (R153 to R155), and REBASE (R78, R79).
-/
namespace Sys2Proof.Machine

/-! ### The rights test -/

section
variable {sl o : SlotId} {dom : Nat} {s : State}

theorem State.rightsTest_of_mayWrite (h : s.MayWrite sl dom) : s.rightsTest sl dom = none :=
  Option.isNone_iff_eq_none.mp ((s.rightsTest_isNone_iff sl dom).mpr h)

theorem State.rightsTest_of_not_active (h : s.slotState sl ≠ .active) : s.rightsTest sl dom = some .notAvailable := if_pos h

/-- The code with which the rights test refuses a domain of another slot (R153). -/
def State.ownerRefusal (o : SlotId) (s : State) : Result := if s.slotState o = .active then .notOwner else .ownerSilent

theorem State.ownerRefusal_isTrespass (o : SlotId) (s : State) : (s.ownerRefusal o).isTrespass = true := by
  unfold State.ownerRefusal
  split <;> rfl

theorem State.rightsTest_of_owner (h : s.slotState sl = .active) (howner : (s.domain dom).owner = some o) (hne : o ≠ sl) :
    s.rightsTest sl dom = some (s.ownerRefusal o) := by
  unfold State.rightsTest State.ownerRefusal
  rw [if_neg (not_not_intro h), howner]
  dsimp only
  rw [if_neg hne]
  split <;> rfl

theorem State.checkDomains_of_mayWrite : ∀ {ds : List Nat}, (∀ d, d ∈ ds → s.MayWrite sl d) → s.checkDomains sl ds = (s, none)
  | [], _ => rfl
  | d :: ds, h => by
    obtain ⟨hd, hds⟩ := List.forall_mem_cons.mp h
    unfold State.checkDomains
    rw [State.rightsTest_of_mayWrite hd]
    dsimp only
    rw [State.checkDomains_of_mayWrite hds]

/-- One domain of another slot: its trespass record and the refusal (R153, R155). -/
theorem State.checkDomains_of_owner (h : s.slotState sl = .active) (howner : (s.domain dom).owner = some o) (hne : o ≠ sl) :
    s.checkDomains sl [dom] = (s.modDomain dom (Domain.recordTrespass sl), some (s.ownerRefusal o)) := by
  unfold State.checkDomains
  rw [State.rightsTest_of_owner h howner hne]
  simp only [State.ownerRefusal_isTrespass, if_true]
  rfl

end

/-! ### REBASE -/

section
variable {s : State} {first last i : Nat} {col : Fin 4}

theorem State.inputComp_rebaseInputs (hi : i < s.comp.length) :
    (s.rebaseInputs col first last).inputComp i =
      if first ≤ i + 1 ∧ i + 1 ≤ last then (s.inputComp i).rebase col else s.inputComp i := by
  have hread := nth_mapFrom (fun k (ic : InputComp) => if first ≤ k ∧ k ≤ last then ic.rebase col else ic) 1 i s.comp
    InputComp.reset InputComp.reset hi
  rwa [Nat.add_comm 1 i] at hread

theorem Cell.rebase_eq (e : Int) (c : Cell) :
    c.rebase e = if c.on = true then
      { c.settled with
        eref := some e, target := 0, limited := false, count := if c.settled.current = 0 then 0 else c.settled.count }
      else c := rfl

theorem InputComp.get_rebase (ic : InputComp) (col c : Fin 4) :
    (ic.rebase col).cells.get c = if c = col then (ic.cells.get col).rebase ic.stageGain else ic.cells.get c :=
  PerColumn.get_set ..

theorem State.cell_rebaseInputs_ne {c : Fin 4} (hi : i < s.comp.length) (hc : c ≠ col) :
    (s.rebaseInputs col first last).cell i c = s.cell i c := by
  unfold State.cell
  rw [State.inputComp_rebaseInputs hi]
  split
  · rw [InputComp.get_rebase, if_neg hc]
  · rfl

theorem State.cell_rebaseInputs_same (hi : i < s.comp.length) :
    (s.rebaseInputs col first last).cell i col =
      if first ≤ i + 1 ∧ i + 1 ≤ last then (s.cell i col).rebase (s.inputComp i).stageGain else s.cell i col := by
  unfold State.cell
  rw [State.inputComp_rebaseInputs hi]
  split
  · rw [InputComp.get_rebase, if_pos rfl]
  · rfl

end

section
variable {sl : SlotId} {first last col : Nat} {s : State}

theorem State.doRebase_of_bad (h : 1 < col ∨ first < 1 ∨ 64 < last ∨ last < first) :
    s.doRebase sl first last col = Reply.refuse s .badValue := if_pos h

variable (hform : ¬(1 < col ∨ first < 1 ∨ 64 < last ∨ last < first))
include hform

theorem State.doRebase_of_not_active (h : s.slotState sl ≠ .active) :
    s.doRebase sl first last col = Reply.refuse s .notAvailable := (if_neg hform).trans (if_pos h)

theorem State.doRebase_own_panel (h : sl = .panel) (hcol : col = 0) :
    s.doRebase sl first last col = Reply.refuse s .notPermitted := by
  subst h
  unfold State.doRebase
  have hactive : s.slotState .panel = .active := rfl
  rw [if_neg hform, if_neg (not_not_intro hactive), if_pos hcol]

theorem State.doRebase_own_desk {d : Desk} (h : s.slotState sl = .active) (hsl : sl = .desk d) (hcol : col = 0) :
    s.doRebase sl first last col = { state := s.rebaseInputs d.column first last, result := .done, data := .none } := by
  subst hsl
  unfold State.doRebase
  rw [if_neg hform, if_neg (not_not_intro h), if_pos hcol]

theorem State.doRebase_engine_refused {t : State} {c : Result} (h : s.slotState sl = .active) (hcol : col ≠ 0)
    (hcheck : s.checkDomains sl [15] = (t, some c)) : s.doRebase sl first last col = Reply.refuse t c := by
  unfold State.doRebase
  rw [if_neg hform, if_neg (not_not_intro h), if_neg hcol, hcheck]

theorem State.doRebase_engine_allowed {t : State} (h : s.slotState sl = .active) (hcol : col ≠ 0)
    (hcheck : s.checkDomains sl [15] = (t, none)) :
    s.doRebase sl first last col = { state := s.rebaseInputs 0 first last, result := .done, data := .none } := by
  unfold State.doRebase
  rw [if_neg hform, if_neg (not_not_intro h), if_neg hcol, hcheck]

end

/-- Settles O57: each row of REBASE is its reply placed, and the cells are read one by one after it. -/
theorem rebaseEffect : Obligations.RebaseEffect := by
  intro sl tag first last column s h
  have hexec : exec (.rebase sl tag first last column) s =
      .next ((s.doRebase sl first.toNat last.toNat column.toNat).place sl tag 0x38#8) :=
    exec_request_of_accepts (r := .rebase first.toNat last.toNat column.toNat) rfl nofun h nofun rfl
  refine ⟨fun hbad => ?_, fun hcol hlo hle hhi hsilent => ?_, fun hcol hlo hle hhi hactive hshaped => ?_⟩
  · rw [hexec, State.doRebase_of_bad hbad]
    rfl
  · rw [hexec, State.doRebase_of_not_active (by omega) (by rw [hsilent]; decide)]
    rfl
  have hform : ¬(1 < column.toNat ∨ first.toNat < 1 ∨ 64 < last.toNat ∨ last.toNat < first.toNat) := by omega
  refine ⟨fun hown hpanel => ?_, fun o hone howner hne => ?_, fun col hcase => ?_⟩
  · rw [hexec, State.doRebase_own_panel hform hpanel (by rw [hown]; rfl)]
    rfl
  · rw [hexec, State.doRebase_engine_refused hform hactive (by rw [hone]; decide) (State.checkDomains_of_owner hactive howner hne)]
    rfl
  · have hreply : s.doRebase sl first.toNat last.toNat column.toNat =
        { state := s.rebaseInputs col first.toNat last.toNat, result := .done, data := .none } := by
      rcases hcase with ⟨hown, d, hsl, hd⟩ | ⟨hone, hmay, hzero⟩
      · rw [State.doRebase_own_desk hform hactive hsl (by rw [hown]; rfl), hd]
      · rw [State.doRebase_engine_allowed hform hactive (by rw [hone]; decide)
          (State.checkDomains_of_mayWrite (List.forall_mem_singleton.mpr hmay)), hzero]
    refine ⟨s.rebaseInputs col first.toNat last.toNat, ?_, rfl, (length_mapFrom ..).trans hshaped.comp, fun i hi => ?_⟩
    · rw [hexec, hreply]
      rfl
    · have hlen : i < s.comp.length := hshaped.comp ▸ hi
      refine ⟨?_, fun c hc => State.cell_rebaseInputs_ne hlen hc, ?_⟩
      · rw [State.inputComp_rebaseInputs hlen]
        split <;> rfl
      · rw [State.cell_rebaseInputs_same hlen, Cell.rebase_eq]
        simp only [← and_assoc, ite_and]

end Sys2Proof.Machine

/-!
Messages and their bytes (R17, R19 to R21, R174), and the transactions of the panel port (R185, R186).
-/
namespace Sys2Proof.Machine

/-! ### Words and their bytes -/

theorem toNat_wordOf (hi lo : Byte) : (wordOf hi lo).toNat = 256 * hi.toNat + lo.toNat := by
  unfold wordOf
  rw [BitVec.toNat_append, ← Nat.shiftLeft_add_eq_or_of_lt lo.isLt, Nat.shiftLeft_eq, Nat.mul_comm]

theorem toNat_wordOf_be16 {n : Nat} (h : n < 65536) : (wordOf (BitVec.ofNat 8 (n / 256)) (BitVec.ofNat 8 n)).toNat = n := by
  rw [toNat_wordOf, BitVec.toNat_ofNat, BitVec.toNat_ofNat]
  omega

theorem be16_inj {m n : Nat} (hm : m < 65536) (hn : n < 65536) (h : be16 m = be16 n) : m = n := by
  unfold be16 at h
  injection h with hhi hrest
  injection hrest with hlo _
  rw [← toNat_wordOf_be16 hm, ← toNat_wordOf_be16 hn, hhi, hlo]

theorem be16_toNat_wordOf (hi lo : Byte) : be16 (wordOf hi lo).toNat = [hi, lo] := by
  have hhi : (256 * hi.toNat + lo.toNat) / 256 = hi.toNat := by omega
  have hlo : BitVec.ofNat 8 (256 * hi.toNat + lo.toNat) = lo :=
    BitVec.eq_of_toNat_eq (by rw [BitVec.toNat_ofNat]; omega)
  rw [toNat_wordOf, be16, hhi, hlo, BitVec.ofNat_toNat, BitVec.setWidth_eq]

theorem take_two_drop {α : Type} (x : α) : ∀ (l : List α) (k : Nat), k + 2 ≤ l.length →
    (l.drop k).take 2 = [nth l k x, nth l (k + 1) x]
  | a :: b :: _, 0, _ => rfl
  | [], _, h => absurd h (by simp)
  | [_], 0, h => absurd h (by simp)
  | _ :: l, k + 1, h => take_two_drop x l k (Nat.le_of_succ_le_succ h)

/-! ### The content of a message -/

section
variable {kind tag : Byte} {body : List Byte}

/-- The bytes of a message that its check covers (R19). -/
def messageHead (kind tag : Byte) (body : List Byte) : List Byte := kind :: tag :: (be16 body.length ++ body)

theorem messageHead_length : (messageHead kind tag body).length = 4 + body.length := by
  simp [messageHead, be16]
  omega

theorem messageContent_eq : messageContent kind tag body =
    messageHead kind tag body ++ be16 (messageCheck (messageHead kind tag body)).toNat := rfl

theorem messageContent_length : (messageContent kind tag body).length = 6 + body.length := by
  rw [messageContent_eq, List.length_append, messageHead_length]
  show 4 + body.length + 2 = _
  omega

theorem bodyLength_messageContent_append (hlen : body.length ≤ 1023) (fill : List Byte) :
    bodyLength (messageContent kind tag body ++ fill) = body.length :=
  toNat_wordOf_be16 (by omega)

/-- The length bytes stand at places 2 and 3, so four bytes of the content give it. -/
theorem bodyLength_take (c : List Byte) {n : Nat} (hn : 4 ≤ n) : bodyLength (c.take n) = bodyLength c := by
  obtain ⟨k, rfl⟩ := Nat.exists_eq_add_of_le' hn
  have hsame (i : Nat) (hi : i < 4) : nth (c.take (k + 4)) i 0 = nth c i 0 := by
    unfold nth
    rw [List.getD_eq_getElem?_getD, List.getD_eq_getElem?_getD, List.getElem?_take, if_pos (by omega)]
  unfold bodyLength
  rw [hsame 2 (by decide), hsame 3 (by decide)]

theorem messageParse_messageContent_append (hlen : body.length ≤ 1023) (fill : List Byte) :
    messageParse (messageContent kind tag body ++ fill) = some (kind, tag, body) := by
  have hbody := bodyLength_messageContent_append (kind := kind) (tag := tag) hlen fill
  have hsplit : messageContent kind tag body ++ fill =
      messageHead kind tag body ++ (be16 (messageCheck (messageHead kind tag body)).toNat ++ fill) := by
    rw [messageContent_eq, List.append_assoc]
  have htake : (messageContent kind tag body ++ fill).take (4 + body.length) = messageHead kind tag body := by
    rw [hsplit, ← messageHead_length (kind := kind) (tag := tag), List.take_left]
  have hdrop : (messageContent kind tag body ++ fill).drop (4 + body.length) =
      be16 (messageCheck (messageHead kind tag body)).toNat ++ fill := by
    rw [hsplit, ← messageHead_length (kind := kind) (tag := tag), List.drop_left]
  have htotal : (messageContent kind tag body ++ fill).length = 6 + body.length + fill.length := by
    rw [List.length_append, messageContent_length]
  unfold messageParse
  dsimp only
  rw [hbody, htake, hdrop, if_pos ⟨by omega, hlen, by omega, rfl⟩]
  rfl

theorem settleMessage_messageContent_append (hlen : body.length ≤ 1023) (fill : List Byte) :
    settleMessage (some (messageContent kind tag body ++ fill)) = (none, some (kind, tag, body)) := by
  have htotal : (messageContent kind tag body ++ fill).length = 6 + body.length + fill.length := by
    rw [List.length_append, messageContent_length]
  unfold settleMessage
  dsimp only
  rw [bodyLength_messageContent_append hlen, messageParse_messageContent_append hlen, if_neg (by omega), if_neg (by omega),
    if_neg (by omega)]

theorem settleMessage_take (hlen : body.length ≤ 1023) {n : Nat} (hn : n < 6 + body.length) :
    settleMessage (some ((messageContent kind tag body).take n)) = (some ((messageContent kind tag body).take n), none) := by
  have htaken : ((messageContent kind tag body).take n).length = n := by
    rw [List.length_take, messageContent_length]
    omega
  unfold settleMessage
  dsimp only
  rw [htaken]
  by_cases hshort : n < 4
  · rw [if_pos hshort]
  · have hbody := bodyLength_messageContent_append (kind := kind) (tag := tag) hlen []
    rw [List.append_nil] at hbody
    rw [if_neg hshort, bodyLength_take _ (by omega), hbody, if_neg (by omega), if_pos hn]

end

/-! ### The receiver -/

theorem settleMessage_of_too_long {c : List Byte} (hc : 4 ≤ c.length) (hlen : 1023 < bodyLength c) :
    settleMessage (some c) = (none, none) := by
  unfold settleMessage
  dsimp only
  rw [if_neg (by omega), if_pos hlen]

theorem settleMessage_of_bad_check {c : List Byte} (hlen : bodyLength c ≤ 1023) (hall : 6 + bodyLength c ≤ c.length)
    (hcheck : messageCheck (c.take (4 + bodyLength c)) ≠ wordOf (nth c (4 + bodyLength c) 0) (nth c (5 + bodyLength c) 0)) :
    settleMessage (some c) = (none, none) := by
  have hbytes : (c.drop (4 + bodyLength c)).take 2 ≠ be16 (messageCheck (c.take (4 + bodyLength c))).toNat := by
    rw [take_two_drop 0 c _ (by omega), ← be16_toNat_wordOf, show 4 + bodyLength c + 1 = 5 + bodyLength c by omega]
    exact fun h => hcheck (BitVec.eq_of_toNat_eq (be16_inj (BitVec.isLt _) (BitVec.isLt _) h).symm)
  have hparse : messageParse c = none := if_neg fun h => hbytes h.2.2.2
  unfold settleMessage
  dsimp only
  rw [if_neg (by omega), if_neg (by omega), if_neg (by omega), hparse]

theorem assemble_rows (held : Option (List Byte)) (code : Byte) {content : List Byte} (hlen : content.length = 7) :
    assemble held none = none ∧
    (code = 0x01#8 → assemble held (some (code :: content)) = some content) ∧
    (code = 0x02#8 → assemble held (some (code :: content)) = held.map (· ++ content)) ∧
    (code ≠ 0x01#8 → code ≠ 0x02#8 → assemble held (some (code :: content)) = none) := by
  have htake : content.take 7 = content := List.take_of_length_le hlen.le
  have hsome : assemble held (some (code :: content)) = if code = laneFirst then some (content.take 7)
      else if code = laneNext then held.map (· ++ content.take 7) else none := rfl
  rw [hsome, htake]
  refine ⟨rfl, fun h => if_pos h, fun h => ?_, fun h1 h2 => (if_neg h1).trans (if_neg h2)⟩
  subst h
  rfl

/-! ### The transmitter -/

section
variable {l : Lane}

theorem Lane.pick_of_sending {m : Sending} (h : l.tx.sending = some m) : l.pick = l := by
  unfold Lane.pick
  rw [h]

theorem Lane.send_of_sending {m : Sending} (h : l.tx.sending = some m) :
    l.send =
      ({ l with
          tx := { l.tx with
            sending := if m.rest.length ≤ 7 then none else some { cls := m.cls, rest := m.rest.drop 7, first := false },
            next := if m.rest.length ≤ 7 then m.cls.following else l.tx.next },
          answers := if m.rest.length ≤ 7 ∧ m.cls = .answer then l.answers.drop 1 else l.answers },
        laneBytes (if m.first then laneFirst else laneNext) m.rest) := by
  unfold Lane.send
  rw [Lane.pick_of_sending h]
  dsimp only
  rw [h]
  dsimp only
  by_cases hlast : m.rest.length ≤ 7
  · simp only [hlast, if_true, true_and]
  · simp only [hlast, if_false, false_and]

theorem Lane.pick_of_waiting {c : MsgClass} {content : List Byte} (hfree : l.tx.sending = none)
    (hwaits : l.waiting c = some content)
    (hturn : c = l.tx.next ∨ (c = l.tx.next.following ∧ l.waiting l.tx.next = none) ∨
      (c = l.tx.next.following.following ∧ l.waiting l.tx.next = none ∧ l.waiting l.tx.next.following = none)) :
    l.pick = l.start c content := by
  unfold Lane.pick
  rw [hfree]
  dsimp only
  rcases hturn with rfl | ⟨rfl, h1⟩ | ⟨rfl, h1, h2⟩
  · rw [hwaits]
  · rw [h1, hwaits]
  · rw [h1, h2, hwaits]

theorem Lane.pick_of_none_waiting (hfree : l.tx.sending = none) (hnone : ∀ c, l.waiting c = none) : l.pick = l := by
  unfold Lane.pick
  rw [hfree]
  dsimp only
  rw [hnone, hnone, hnone]

theorem Lane.send_of_none_waiting (hfree : l.tx.sending = none) (hnone : ∀ c, l.waiting c = none) :
    l.send = (l, laneBytes laneIdle []) := by
  unfold Lane.send
  rw [Lane.pick_of_none_waiting hfree hnone]
  dsimp only
  rw [hfree]

theorem Lane.send_of_waiting {c : MsgClass} {content : List Byte} (hpick : l.pick = l.start c content) :
    l.send = (l.start c content).send := by
  unfold Lane.send
  rw [hpick, Lane.pick_of_sending (l := l.start c content) rfl]

end

/-- Settles O26: the round trip of a message, the receiver's table and the transmitter's rotation. -/
theorem messagesRoundTrip : Obligations.MessagesRoundTrip := by
  refine ⟨fun kind tag body fill hlen => ⟨messageContent_length, messageParse_messageContent_append hlen fill,
    settleMessage_messageContent_append hlen fill, fun n hn => settleMessage_take hlen hn⟩,
    fun held code content hlen => assemble_rows held code hlen, fun c hc => ?_, rfl, fun l => ?_⟩
  · have hbody : bodyLength c = 256 * (nth c 2 0).toNat + (nth c 3 0).toNat := toNat_wordOf ..
    dsimp only
    rw [← hbody]
    exact ⟨settleMessage_of_too_long hc, settleMessage_of_bad_check⟩
  · refine ⟨rfl, rfl, rfl, rfl, fun m hm => Lane.send_of_sending hm, Lane.send_of_none_waiting,
      fun c content hfree hwaits hturn => ?_⟩
    exact Lane.send_of_waiting (Lane.pick_of_waiting hfree hwaits hturn)

/-! ### The panel port -/

section
variable {s : State}

theorem State.statusByte_bits (hroom : s.panelPlaces ≤ 32) :
    s.statusByte.getLsbD 7 = s.panelReady ∧ s.statusByte.getLsbD 6 = s.started ∧
      (s.statusByte &&& 0x3F#8).toNat = s.panelReadable := by
  have hreadable : s.panelReadable ≤ s.panelQueue.length := (List.takeWhile_sublist _).length_le
  have hlt : s.panelReadable < 64 := by
    have := hreadable
    unfold State.panelPlaces at hroom
    omega
  have hand (n : Nat) : (BitVec.ofNat 8 n &&& 0x3F#8).toNat = n % 64 := by
    rw [BitVec.toNat_and, BitVec.toNat_ofNat, show (0x3F#8).toNat = 2 ^ 6 - 1 from rfl, Nat.and_two_pow_sub_one_eq_mod]
    omega
  unfold State.statusByte
  rw [hand, BitVec.getLsbD_ofNat, BitVec.getLsbD_ofNat, Nat.testBit_eq_decide_div_mod_eq, Nat.testBit_eq_decide_div_mod_eq]
  cases s.panelReady <;> cases s.started <;> simp <;> omega

theorem State.messageRead_of_readable {m : PanelMsg} {rest : List PanelMsg} (hq : s.panelQueue = m :: rest)
    (hm : m.uncompleted = false) : s.messageRead = { s with panelQueue := rest, panelReturn := m.content } := by
  unfold State.messageRead
  rw [hq]
  simp only [hm, Bool.false_eq_true, if_false]

theorem State.messageRead_of_unreadable (h : ∀ m rest, s.panelQueue = m :: rest → m.uncompleted = true) :
    s.messageRead = { s with panelReturn := s.emptyMessage, free := s.free + 1 } := by
  unfold State.messageRead
  split
  next m rest hq => exact if_pos (h m rest hq)
  · rfl

theorem State.requestWrite_of_dropped {message : List Byte} (h : s.panelReady = false ∨ messageParse message = none) :
    s.requestWrite message = { s with panelReturn := [s.statusByte] } := by
  have hsame : (if s.panelReady then s.takeWritten message else s) = s := by
    split
    next hready =>
      rcases h with hnot | hnone
      · rw [hnot] at hready
        cases hready
      · unfold State.takeWritten
        rw [hnone]
    · rfl
  unfold State.requestWrite
  rw [hsame]

theorem State.requestWrite_messageContent {kind tag : Byte} {body : List Byte} (hready : s.panelReady = true)
    (hlen : body.length ≤ 1023) :
    s.requestWrite (messageContent kind tag body) =
      { s.answerRequest .panel tag (requestParse kind body) with panelReturn := [s.statusByte] } := by
  have hparse := messageParse_messageContent_append (kind := kind) (tag := tag) hlen []
  rw [List.append_nil] at hparse
  have htaken : s.takeWritten (messageContent kind tag body) = s.answerRequest .panel tag (requestParse kind body) := by
    unfold State.takeWritten State.takeMessage
    rw [hparse]
    exact State.takeRequest_of_hasRoom (sl := .panel) hready tag _
  unfold State.requestWrite
  rw [if_pos hready, htaken]

theorem State.answerRequest_claim_ports (sl : SlotId) (tag : Byte) (d : Nat) :
    (s.answerRequest sl tag (.claim d)).ports = s.ports := by
  unfold State.answerRequest
  split
  · simp
  · simp [Request.panelOnly, State.perform, Reply.place, Reply.plain]

end

/-- Settles O60: each transaction by its definition, a written message through the round trip of its content. -/
theorem panelTransactions : Obligations.PanelTransactions := by
  intro s hpower
  refine ⟨exec_of_powered rfl hpower, fun hroom => ?_, fun m rest hq hm => ?_, fun hnone => ?_, fun message hreturned hdrop => ?_,
    fun kind tag body hready hlen => ?_, fun tag d hreturned hready => ?_, fun code => exec_of_powered rfl hpower⟩
  · obtain ⟨hready, hstarted, hcount⟩ := s.statusByte_bits ((Nat.add_comm ..).trans_le hroom)
    refine ⟨hready, hstarted, fun hall => ?_⟩
    rw [hcount]
    unfold State.panelReadable
    rw [List.takeWhile_eq_self_iff.mpr fun m hm => by simp [hall m hm]]
  · rw [exec_of_powered rfl hpower]
    exact congrArg _ (State.messageRead_of_readable hq hm)
  · refine ⟨_, (exec_of_powered rfl hpower).trans (congrArg _ (State.messageRead_of_unreadable hnone))⟩
  · rw [exec_of_powered rfl hpower]
    show Host.Outcome.next (s.requestWrite message).settleReturned = _
    rw [State.requestWrite_of_dropped hdrop, State.settleReturned_of_none]
    exact hreturned
  · rw [exec_of_powered rfl hpower]
    show Host.Outcome.next (s.requestWrite _).settleReturned = _
    rw [State.requestWrite_messageContent hready hlen]
  · refine ⟨s.answerRequest .panel tag (.claim d.toNat), ?_, ?_⟩
    · rw [exec_of_powered rfl hpower]
      exact congrArg _ (State.takeRequest_of_hasRoom (sl := .panel) hready tag (.claim d.toNat))
    · rw [exec_of_powered rfl hpower]
      show Host.Outcome.next (s.requestWrite _).settleReturned = _
      rw [State.requestWrite_messageContent hready (by simp), State.settleReturned_of_none]
      · rfl
      · exact hreturned.of_ports (s.answerRequest_claim_ports ..)

end Sys2Proof.Machine

/-!
The parameter map (R175), and the requests that read it (R176, R177, R181).
-/
namespace Sys2Proof.Machine

/-! ### The parameter of an index -/

section
variable {i : Nat}

/-- The rows of the map below the crosspoints hold 64 parameters each. -/
theorem paramOf_inputs (hi : i < 64) :
    paramOf i = some (.gain i) ∧ paramOf (64 + i) = some (.pad i) ∧ paramOf (128 + i) = some (.phantom i) ∧
    paramOf (192 + i) = some (.ownMode i) ∧ paramOf (256 + i) = some (.engineMode i) ∧ paramOf (320 + i) = some (.ownEref i) ∧
    paramOf (384 + i) = some (.engineEref i) ∧ paramOf (448 + i) = some (.ownTrim i) ∧ paramOf (512 + i) = some (.engineTrim i) ∧
    paramOf (576 + i) = some (.appliedGain i) ∧ paramOf (640 + i) = some (.summary i) := by
  refine ⟨if_pos hi, ?_, ?_, ?_, ?_, ?_, ?_, ?_, ?_, ?_, ?_⟩
  all_goals
    unfold paramOf
    repeat rw [if_neg (by omega)]
    rw [if_pos (by omega), Nat.add_sub_cancel_left]

theorem paramOf_crosspoint {j m : Nat} (hj : j < 66) (hm : m < 24) :
    paramOf (1024 + 24 * j + m) = some (.crosspoint j m) := by
  have hrow : (1024 + 24 * j + m - 1024) / 24 = j := by omega
  have hcol : (1024 + 24 * j + m - 1024) % 24 = m := by omega
  unfold paramOf
  repeat rw [if_neg (by omega)]
  rw [if_pos (by omega), hrow, hcol]

theorem paramOf_master (hi : i < 24) : paramOf (2700 + i) = some (.master i) := by
  unfold paramOf
  repeat rw [if_neg (by omega)]
  rw [if_pos (by omega), Nat.add_sub_cancel_left]

theorem paramOf_ceiling (hi : i < 24) : paramOf (2730 + i) = some (.ceiling i) := by
  unfold paramOf
  repeat rw [if_neg (by omega)]
  rw [if_pos (by omega), Nat.add_sub_cancel_left]

theorem paramOf_outputs (hi : i < 32) :
    paramOf (2800 + i) = some (.primary i) ∧ paramOf (2840 + i) = some (.fallback i) ∧
    paramOf (2880 + i) = some (.outLevel i) ∧ paramOf (2920 + i) = some (.override i) := by
  refine ⟨?_, ?_, ?_, ?_⟩
  all_goals
    unfold paramOf
    repeat rw [if_neg (by omega)]
    rw [if_pos (by omega), Nat.add_sub_cancel_left]

theorem paramOf_talkClass (x : SlotId) : paramOf (3000 + x.number) = some (.talkClass x) := by
  cases x with
  | panel => rfl
  | desk d => cases d <;> rfl

/-- The read-only rows of the map (R175). -/
theorem paramOf_readOnly (hlo : 320 ≤ i) (hhi : i < 704) : ∃ p, paramOf i = some p ∧ p.readOnly = true := by
  have hrow : i - i % 64 = 320 ∨ i - i % 64 = 384 ∨ i - i % 64 = 448 ∨ i - i % 64 = 512 ∨ i - i % 64 = 576 ∨ i - i % 64 = 640 := by
    omega
  obtain ⟨_, _, _, _, _, hownEref, hengineEref, hownTrim, hengineTrim, happlied, hsummary⟩ :=
    paramOf_inputs (Nat.mod_lt i (by decide : 0 < 64))
  rcases hrow with h | h | h | h | h | h <;> rw [show i = (i - i % 64) + i % 64 by omega, h]
  · exact ⟨_, hownEref, rfl⟩
  · exact ⟨_, hengineEref, rfl⟩
  · exact ⟨_, hownTrim, rfl⟩
  · exact ⟨_, hengineTrim, rfl⟩
  · exact ⟨_, happlied, rfl⟩
  · exact ⟨_, hsummary, rfl⟩

end

/-! ### The items of consecutive indices -/

section
variable {first : Nat}

theorem itemsFrom_of_missing : ∀ {vs : List Int} {first k : Nat}, k < vs.length → paramOf (first + k) = none →
    itemsFrom first vs = none
  | [], _, _, hk, _ => absurd hk (Nat.not_lt_zero _)
  | v :: vs, first, 0, _, hp => by
    unfold itemsFrom
    rw [show paramOf first = none from hp]
  | v :: vs, first, k + 1, hk, hp => by
    have hrest : itemsFrom (first + 1) vs = none :=
      itemsFrom_of_missing (k := k) (Nat.lt_of_succ_lt_succ hk) (by rwa [Nat.add_right_comm])
    unfold itemsFrom
    rw [hrest]
    cases paramOf first <;> rfl

/-- The items of a run of indices whose parameters are known. -/
theorem itemsFrom_of_forall (p : Nat → Param) : ∀ {vs : List Int} {first : Nat},
    (∀ k, k < vs.length → paramOf (first + k) = some (p (first + k))) →
    itemsFrom first vs = some (mapFrom (fun i v => { index := i, param := p i, value := v }) first vs)
  | [], _, _ => rfl
  | v :: vs, first, h => by
    have hrest := itemsFrom_of_forall p (vs := vs) (first := first + 1) fun k hk => by
      rw [Nat.add_assoc, Nat.add_comm 1 k]
      exact h (k + 1) (Nat.succ_lt_succ hk)
    unfold itemsFrom
    rw [show paramOf first = some (p first) from h 0 (Nat.succ_pos _), hrest]
    rfl

theorem map_mapFrom_replicate {α β γ : Type} (f : Nat → α → β) (g : β → γ) (x : α) : ∀ (n first : Nat),
    (mapFrom f first (List.replicate n x)).map g = (List.range n).map fun k => g (f (first + k) x)
  | 0, _ => rfl
  | n + 1, first => by
    rw [List.replicate_succ, mapFrom, List.map_cons, map_mapFrom_replicate f g x n, List.range_succ_eq_map, List.map_cons,
      List.map_map]
    simp only [Function.comp_def, Nat.succ_eq_add_one, Nat.add_zero, Nat.add_assoc, Nat.add_comm 1]

end

/-! ### GET -/

section
variable {sl : SlotId} {s : State} {first count index : Nat} {p : Param}

theorem State.doGet_of_bad_count (h : count < 1 ∨ 64 < count) : s.doGet sl first count = Reply.refuse s .badValue := if_pos h

theorem State.doGet_of_missing {k : Nat} (hcount : ¬(count < 1 ∨ 64 < count)) (hk : k < count) (hp : paramOf (first + k) = none) :
    s.doGet sl first count = Reply.refuse s .noSuch := by
  unfold State.doGet
  rw [if_neg hcount, itemsFrom_of_missing (by rwa [List.length_replicate]) hp]

theorem State.doGet_of_items {items : List Item} (hcount : ¬(count < 1 ∨ 64 < count))
    (hitems : itemsFrom first (List.replicate count 0) = some items) :
    s.doGet sl first count = if sl = .panel ∧ items.any (fun x => x.param.panelRefused) then Reply.refuse s .notPermitted
      else { state := s, result := .done, data := .values (items.map fun x => s.readParam sl x.param) } := by
  unfold State.doGet
  rw [if_neg hcount, hitems]

theorem State.doGet_one (hp : paramOf index = some p) (hmay : sl = .panel → p.panelRefused = false) :
    s.doGet sl index 1 = { state := s, result := .done, data := .values [s.readParam sl p] } := by
  have hitems : itemsFrom index (List.replicate 1 0) = some [{ index := index, param := p, value := 0 }] := by
    simp [itemsFrom, hp]
  rw [State.doGet_of_items (by decide) hitems, if_neg]
  · rfl
  · rintro ⟨hsl, hany⟩
    simp [hmay hsl] at hany

/-- The gains of consecutive inputs. -/
theorem State.doGet_gains (hlo : 1 ≤ count) (hhi : first + count ≤ 64) :
    s.doGet sl first count =
      { state := s, result := .done, data := .values ((List.range count).map fun k => (s.channel (first + k)).desired.gain) } := by
  have hitems := itemsFrom_of_forall Param.gain (vs := List.replicate count 0) (first := first) fun k hk => by
    rw [List.length_replicate] at hk
    exact (paramOf_inputs (by omega)).1
  rw [State.doGet_of_items (by omega) hitems, if_neg, map_mapFrom_replicate]
  · rfl
  · rintro ⟨-, hany⟩
    have hnone := forall_mapFrom (fun _ => True) (fun x : Item => x.param.panelRefused = false)
      (fun i v => { index := i, param := .gain i, value := v }) (fun _ _ _ => rfl) (List.replicate count 0) first fun _ _ => trivial
    obtain ⟨x, hx, hrefused⟩ := List.any_eq_true.mp hany
    rw [hnone x hx] at hrefused
    cases hrefused

/-- The panel has no own column (R79). -/
theorem State.doGet_ownModes (hlo : 1 ≤ count) (hfirst : 192 ≤ first) (hhi : first + count ≤ 256) :
    s.doGet .panel first count = Reply.refuse s .notPermitted := by
  have hitems := itemsFrom_of_forall (fun i => .ownMode (i - 192)) (vs := List.replicate count 0) (first := first) fun k hk => by
    rw [List.length_replicate] at hk
    obtain ⟨_, _, _, hown, _⟩ := paramOf_inputs (i := first + k - 192) (by omega)
    rwa [show 192 + (first + k - 192) = first + k by omega] at hown
  obtain ⟨n, rfl⟩ : ∃ n, count = n + 1 := ⟨count - 1, by omega⟩
  rw [State.doGet_of_items (by omega) hitems, if_pos]
  exact ⟨rfl, rfl⟩

end

/-! ### SET up to its rights -/

section
variable {sl : SlotId} {s : State} {index echo : Nat} {v : Int} {p : Param}

theorem State.doSet_of_bad_echo (h : 1 < echo) : s.doSet sl index v echo = Reply.refuse s .badValue := if_pos h

variable (hecho : echo ≤ 1)
include hecho

theorem State.doSet_of_missing (hp : paramOf index = none) : s.doSet sl index v echo = Reply.refuse s .noSuch := by
  unfold State.doSet
  rw [if_neg (Nat.not_lt.mpr hecho), hp]

theorem State.doSet_of_barred (hp : paramOf index = some p) (hbarred : writeBarred sl p = true) :
    s.doSet sl index v echo = Reply.refuse s .notPermitted := by
  unfold State.doSet
  rw [if_neg (Nat.not_lt.mpr hecho), hp]
  exact if_pos hbarred

theorem State.doSet_of_bad_value (hp : paramOf index = some p) (hbarred : writeBarred sl p = false) (hv : p.valueOk v = false) :
    s.doSet sl index v echo = Reply.refuse s .badValue := by
  unfold State.doSet
  rw [if_neg (Nat.not_lt.mpr hecho), hp]
  dsimp only
  rw [hbarred, if_neg Bool.false_ne_true, if_pos hv]

theorem State.doSet_of_good (hp : paramOf index = some p) (hbarred : writeBarred sl p = false) (hv : p.valueOk v = true) :
    s.doSet sl index v echo = s.writeAll sl [{ index := index, param := p, value := v }] echo := by
  unfold State.doSet
  rw [if_neg (Nat.not_lt.mpr hecho), hp]
  dsimp only
  rw [hbarred, if_neg Bool.false_ne_true, hv, if_neg Bool.noConfusion]

end

theorem exec_set_of_accepts {c : Instr} {sl : SlotId} {tag : Byte} {index echo : Nat} {v : Int} {s : State}
    (hc : c.request = some (sl, tag, .set index v echo)) (h : s.Accepts sl) :
    exec c s = .next ((s.doSet sl index v echo).place sl tag 0x11#8) :=
  exec_request_of_accepts hc nofun h nofun rfl

/-! ### The answers -/

section
variable {sl : SlotId} {s : State} {index : Nat} {p : Param} (h : s.Accepts sl) (tag : Byte)
include h

theorem exec_get_of_accepts (first : Word) (n : Byte) :
    exec (.get sl tag first n) s = .next ((s.doGet sl first.toNat n.toNat).place sl tag 0x10#8) :=
  exec_request_of_accepts (r := .get first.toNat n.toNat) rfl nofun h nofun rfl

theorem exec_get_one (hindex : index < 65536) (hp : paramOf index = some p) (hmay : sl = .panel → p.panelRefused = false) :
    exec (.get sl tag (BitVec.ofNat 16 index) 1#8) s = .next (s.answer sl tag 0x10#8 .done (.values [s.readParam sl p])) := by
  have hnat : (BitVec.ofNat 16 index).toNat = index := by rw [BitVec.toNat_ofNat, Nat.mod_eq_of_lt hindex]
  rw [exec_get_of_accepts h, hnat, show (1#8).toNat = 1 from rfl, State.doGet_one hp hmay]
  rfl

theorem exec_get_inputs {i : Nat} (hi : i < 64) :
    let reads := fun (index : Nat) (v : Int) =>
      exec (.get sl tag (BitVec.ofNat 16 index) 1#8) s = .next (s.answer sl tag 0x10#8 .done (.values [v]))
    let flag := fun b : Bool => if b = true then (1 : Int) else 0
    reads i (s.channel i).desired.gain ∧ reads (64 + i) (flag (s.channel i).desired.pad) ∧
      reads (128 + i) (flag (s.channel i).desired.phantom) ∧ reads (256 + i) (flag (s.cell i 0).on) ∧
      reads (384 + i) ((s.cell i 0).eref.getD (-32768)) ∧ reads (512 + i) (s.cell i 0).current ∧
      reads (576 + i) (s.channel i).applied.gain ∧
      reads (640 + i) ((s.channel i).link.code + 4 * (s.channel i).op.code + if (s.channel i).latch = true then 32 else 0) ∧
      ∀ d, sl = .desk d → reads (192 + i) (flag (s.cell i d.column).on) ∧
        reads (320 + i) ((s.cell i d.column).eref.getD (-32768)) ∧ reads (448 + i) (s.cell i d.column).current := by
  obtain ⟨hgain, hpad, hphantom, hownMode, hengineMode, hownEref, hengineEref, hownTrim, hengineTrim, happlied, hsummary⟩ :=
    paramOf_inputs hi
  have hsum : ((s.channel i).summary : Int) =
      (s.channel i).link.code + 4 * (s.channel i).op.code + if (s.channel i).latch = true then 32 else 0 := by
    unfold Channel.summary
    push_cast
    rfl
  refine ⟨exec_get_one h tag (by omega) hgain fun _ => rfl, exec_get_one h tag (by omega) hpad fun _ => rfl,
    exec_get_one h tag (by omega) hphantom fun _ => rfl, exec_get_one h tag (by omega) hengineMode fun _ => rfl,
    exec_get_one h tag (by omega) hengineEref fun _ => rfl, exec_get_one h tag (by omega) hengineTrim fun _ => rfl,
    exec_get_one h tag (by omega) happlied fun _ => rfl, ?_, fun d hsl => ?_⟩
  · rw [← hsum]
    exact exec_get_one h tag (by omega) hsummary fun _ => rfl
  · subst hsl
    exact ⟨exec_get_one h tag (by omega) hownMode nofun, exec_get_one h tag (by omega) hownEref nofun,
      exec_get_one h tag (by omega) hownTrim nofun⟩

end

/-- Settles O45: every index by its row of the map, and the refusals by the first check that fails. -/
theorem readsAnswer : Obligations.ReadsAnswer := by
  intro sl tag s h reads flag off
  refine ⟨fun i hi => exec_get_inputs h tag hi, fun j m hj hm => exec_get_one h tag (by omega) (paramOf_crosspoint hj hm) fun _ => rfl,
    fun m hm => ⟨exec_get_one h tag (by omega) (paramOf_master hm) fun _ => rfl,
      exec_get_one h tag (by omega) (paramOf_ceiling hm) fun _ => rfl⟩, fun o ho => ?_, fun x => ?_,
    exec_get_one h tag (p := .talkLimit) (by decide) rfl fun _ => rfl, exec_get_one h tag (p := .graceTime) (by decide) rfl fun _ => rfl,
    exec_get_one h tag (p := .revertTime) (by decide) rfl fun _ => rfl, fun first n hn => ?_, fun first n k hlo hhi hk hp => ?_,
    fun first n hsl hlo hfirst hhi => ?_, fun first n hhi hlo => ?_, ?_, fun kind => ?_, fun index v e he hp => ?_,
    fun index v e he hrange => ?_, fun index v e he => ?_⟩
  · obtain ⟨hprimary, hfallback, hlevel, hoverride⟩ := paramOf_outputs ho
    exact ⟨exec_get_one h tag (by omega) hprimary fun _ => rfl, exec_get_one h tag (by omega) hfallback fun _ => rfl,
      exec_get_one h tag (by omega) hlevel fun _ => rfl, exec_get_one h tag (by omega) hoverride fun _ => rfl⟩
  · refine exec_get_one h tag ?_ (paramOf_talkClass x) fun _ => rfl
    cases x with
    | panel => decide
    | desk d => cases d <;> decide
  · rw [exec_get_of_accepts h, State.doGet_of_bad_count]
    · rfl
    · rcases hn with rfl | hn
      · exact .inl (by decide)
      · exact .inr hn
  · rw [exec_get_of_accepts h, State.doGet_of_missing (by omega) hk hp]
    rfl
  · subst hsl
    rw [exec_get_of_accepts h, State.doGet_ownModes hlo hfirst hhi]
    rfl
  · rw [exec_get_of_accepts h, State.doGet_gains hlo hhi]
    rfl
  · exact exec_request_of_accepts (r := .describe) rfl nofun h nofun rfl
  · exact exec_request_of_accepts (r := .unknown kind) rfl nofun h nofun rfl
  · rw [exec_set_of_accepts (sl := sl) (tag := tag) rfl h, State.doSet_of_missing he hp]
    rfl
  · obtain ⟨p, hp, hreadOnly⟩ := paramOf_readOnly hrange.1 hrange.2
    rw [exec_set_of_accepts (sl := sl) (tag := tag) rfl h, State.doSet_of_barred he hp (by simp [writeBarred, hreadOnly])]
    rfl
  · rw [exec_set_of_accepts (sl := sl) (tag := tag) rfl h, State.doSet_of_bad_echo he]
    rfl

end Sys2Proof.Machine

/-!
SET (R178) from its rights to its effect: the trespass of a refused write (R155), the staged write (R164) and the written one.
-/
namespace Sys2Proof.Machine

/-! ### Domains of the map -/

theorem domainsOf_none : domainsOf [none] = [] := by decide

theorem domainsOf_some {d : Nat} (hd : d < 16) : domainsOf [some d] = [d] := by
  decide +revert

theorem Param.domain_lt {index dom : Nat} {p : Param} (hp : paramOf index = some p) (hdom : p.domain = some dom) : dom < 16 := by
  unfold paramOf at hp
  iterate 18
    obtain ⟨hi, hp⟩ | ⟨-, hp⟩ := ite_eq_iff.mp hp
    · cases hp
      cases hdom <;> (try unfold mixDomain) <;> omega
  obtain ⟨-, hp⟩ | ⟨-, hp⟩ := ite_eq_iff.mp hp
  · obtain ⟨x, -, rfl⟩ := Option.map_eq_some_iff.mp hp
    cases hdom
    decide
  iterate 3
    obtain ⟨-, hp⟩ | ⟨-, hp⟩ := ite_eq_iff.mp hp
    · cases hp
      cases hdom
      decide
  cases hp

/-- A parameter with a domain is neither read-only nor an own-column one. -/
theorem writeBarred_of_domain {p : Param} {dom : Nat} (hdom : p.domain = some dom) (sl : SlotId) : writeBarred sl p = false := by
  cases p <;> first | rfl | cases hdom

/-! ### Writes that have passed form and value -/

section
variable {sl : SlotId} {s t : State} {items : List Item} {echo : Nat} {c : Result}

theorem State.writeAll_of_not_active (h : s.slotState sl ≠ .active) : s.writeAll sl items echo = Reply.refuse s .notAvailable :=
  if_pos h

variable (hactive : s.slotState sl = .active)
include hactive

theorem State.writeAll_of_refused (hcheck : s.checkDomains sl (domainsOf (items.map fun x => x.param.domain)) = (t, some c)) :
    s.writeAll sl items echo = Reply.refuse t c := by
  unfold State.writeAll
  rw [if_neg (not_not_intro hactive)]
  simp only [hcheck]

variable (hcheck : s.checkDomains sl (domainsOf (items.map fun x => x.param.domain)) = (s, none))
include hcheck

theorem State.writeAll_of_staged (hstaging : s.staging sl = true) (hroom : s.stagingRoom sl items.length = true) :
    s.writeAll sl items echo =
      { state := s.stage sl (items.map Item.staged),
        result := if items.any (fun x => x.param.clamps x.value) then .clamped else .queued,
        data := echoData echo (items.map Item.stored) } := by
  unfold State.writeAll
  rw [if_neg (not_not_intro hactive)]
  simp only [hcheck, hstaging, hroom, if_true]

theorem State.writeAll_of_full (hstaging : s.staging sl = true) (hroom : s.stagingRoom sl items.length = false) :
    s.writeAll sl items echo = Reply.refuse s .full := by
  unfold State.writeAll
  rw [if_neg (not_not_intro hactive)]
  simp only [hcheck, hstaging, hroom, if_true, Bool.false_eq_true, if_false]

theorem State.writeAll_of_written (hunstaged : s.Unstaged sl) (hwrite : s.writeItems sl items = (t, none)) :
    s.writeAll sl items echo =
      { state := t, result := if items.any (fun x => x.param.clamps x.value) then .clamped else .done,
        data := echoData echo (items.map fun x => t.readParam sl x.param) } := by
  have hstaging : s.staging sl = false := decide_eq_false hunstaged
  unfold State.writeAll
  rw [if_neg (not_not_intro hactive)]
  simp only [hcheck, hstaging, Bool.false_eq_true, if_false, hwrite]

theorem State.writeAll_of_write_refused (hunstaged : s.Unstaged sl) (hwrite : s.writeItems sl items = (t, some c)) :
    s.writeAll sl items echo = Reply.refuse s c := by
  have hstaging : s.staging sl = false := decide_eq_false hunstaged
  unfold State.writeAll
  rw [if_neg (not_not_intro hactive)]
  simp only [hcheck, hstaging, Bool.false_eq_true, if_false, hwrite]

end

/-! ### A SET of one parameter -/

section
variable {sl : SlotId} {s t : State} {index : Nat} {v : Int} {p : Param} {c : Instr} {tag : Byte}

theorem State.checkDomains_one (hp : paramOf index = some p) (hmay : ∀ dom, p.domain = some dom → s.MayWrite sl dom) :
    s.checkDomains sl (domainsOf ([({ index := index, param := p, value := v } : Item)].map fun x => x.param.domain)) = (s, none) := by
  show s.checkDomains sl (domainsOf [p.domain]) = (s, none)
  cases hdom : p.domain with
  | none => rw [domainsOf_none]; rfl
  | some dom =>
    rw [domainsOf_some (Param.domain_lt hp hdom)]
    exact State.checkDomains_of_mayWrite (List.forall_mem_singleton.mpr (hmay dom hdom))

theorem State.writeItems_one {w : State × Option Result} (hwrite : s.writeParam sl p (p.stored v) = w) :
    s.writeItems sl [{ index := index, param := p, value := v }] = w := by
  obtain ⟨u, r⟩ := w
  unfold State.writeItems
  simp only [Item.stored, hwrite]
  cases r <;> rfl

theorem echoData_one {e : Byte} (x : Int) : echoData e.toNat [x] = echoOf e x := by
  have hiff : e.toNat = 1 ↔ e = 1#8 := ⟨fun h => BitVec.eq_of_toNat_eq h, fun h => by rw [h]; rfl⟩
  simp only [echoData, echoOf, hiff]

theorem exec_set_of_bad_value {echo : Nat} (hc : c.request = some (sl, tag, .set index v echo)) (h : s.Accepts sl) (hecho : echo ≤ 1)
    (hp : paramOf index = some p) (hbarred : writeBarred sl p = false) (hv : p.valueOk v = false) :
    exec c s = .next (s.answer sl tag 0x11#8 .badValue .none) := by
  rw [exec_set_of_accepts hc h, State.doSet_of_bad_value hecho hp hbarred hv]
  rfl

theorem exec_set_of_barred {echo : Nat} (hc : c.request = some (sl, tag, .set index v echo)) (h : s.Accepts sl) (hecho : echo ≤ 1)
    (hp : paramOf index = some p) (hbarred : writeBarred sl p = true) :
    exec c s = .next (s.answer sl tag 0x11#8 .notPermitted .none) := by
  rw [exec_set_of_accepts hc h, State.doSet_of_barred hecho hp hbarred]
  rfl

theorem exec_set_of_not_active {echo : Nat} (hc : c.request = some (sl, tag, .set index v echo)) (h : s.Accepts sl)
    (hecho : echo ≤ 1) (hp : paramOf index = some p) (hbarred : writeBarred sl p = false) (hv : p.valueOk v = true)
    (hidle : s.slotState sl ≠ .active) : exec c s = .next (s.answer sl tag 0x11#8 .notAvailable .none) := by
  rw [exec_set_of_accepts hc h, State.doSet_of_good hecho hp hbarred hv, State.writeAll_of_not_active hidle]
  rfl

variable {e : Byte} (hc : c.request = some (sl, tag, .set index v e.toNat)) (h : s.Accepts sl) (hecho : e.toNat ≤ 1)
  (hp : paramOf index = some p) (hbarred : writeBarred sl p = false) (hv : p.valueOk v = true)
  (hactive : s.slotState sl = .active) (hmay : ∀ dom, p.domain = some dom → s.MayWrite sl dom)
include hc h hecho hp hbarred hv hactive hmay

/-- An accepted SET that writes (R178). -/
theorem exec_set_of_written (hunstaged : s.Unstaged sl) (hwrite : s.writeParam sl p (p.stored v) = (t, none)) :
    exec c s = .next (t.answer sl tag 0x11#8 (if p.clamps v then .clamped else .done) (echoOf e (t.readParam sl p))) := by
  rw [exec_set_of_accepts hc h, State.doSet_of_good hecho hp hbarred hv,
    State.writeAll_of_written hactive (State.checkDomains_one hp hmay) hunstaged (State.writeItems_one hwrite)]
  simp only [Reply.place, List.any_cons, List.any_nil, Bool.or_false, List.map_cons, List.map_nil, echoData_one]

/-- A SET that the owning block refuses on the state of its records (R154). -/
theorem exec_set_of_write_refused {r : Result} (hunstaged : s.Unstaged sl)
    (hwrite : s.writeParam sl p (p.stored v) = (t, some r)) : exec c s = .next (s.answer sl tag 0x11#8 r .none) := by
  rw [exec_set_of_accepts hc h, State.doSet_of_good hecho hp hbarred hv,
    State.writeAll_of_write_refused hactive (State.checkDomains_one hp hmay) hunstaged (State.writeItems_one hwrite)]
  rfl

/-- A SET while the slot has an OPEN batch with room (R164). -/
theorem exec_set_of_staged (hopen : (s.batch sl).state = .opened) (hroom : (s.batch sl).staged.length < 256) :
    exec c s = .next ((s.stage sl [{ index := index, value := p.stored v, domain := p.domain }]).answer sl tag 0x11#8
      (if p.clamps v then .clamped else .queued) (echoOf e (p.stored v))) := by
  rw [exec_set_of_accepts hc h, State.doSet_of_good hecho hp hbarred hv,
    State.writeAll_of_staged hactive (State.checkDomains_one hp hmay) (decide_eq_true hopen) (decide_eq_true hroom)]
  simp only [Reply.place, List.any_cons, List.any_nil, Bool.or_false, List.map_cons, List.map_nil, echoData_one, Item.staged,
    Item.stored]

theorem exec_set_of_full (hopen : (s.batch sl).state = .opened) (hroom : 256 ≤ (s.batch sl).staged.length) :
    exec c s = .next (s.answer sl tag 0x11#8 .full .none) := by
  rw [exec_set_of_accepts hc h, State.doSet_of_good hecho hp hbarred hv,
    State.writeAll_of_full hactive (State.checkDomains_one hp hmay) (decide_eq_true hopen)
      (decide_eq_false (Nat.not_le.mpr (Nat.lt_succ_of_le hroom)))]
  rfl

end

/-- Settles O50: the rights test comes before anything is written, and its refusal marks the domain. -/
theorem trespassIsRecorded : Obligations.TrespassIsRecorded := by
  intro c sl tag index echo dom v p s hc h _ hecho hp hdom hv
  have hbarred := writeBarred_of_domain hdom sl
  refine ⟨fun hsilent => exec_set_of_not_active hc h hecho hp hbarred hv (by rw [hsilent]; decide),
    fun hactive o howner hne => ?_⟩
  have hcheck : s.checkDomains sl (domainsOf ([({ index := index, param := p, value := v } : Item)].map fun x => x.param.domain)) =
      (s.modDomain dom (Domain.recordTrespass sl), some (s.ownerRefusal o)) := by
    show s.checkDomains sl (domainsOf [p.domain]) = _
    rw [hdom, domainsOf_some (Param.domain_lt hp hdom)]
    exact State.checkDomains_of_owner hactive howner hne
  rw [exec_set_of_accepts hc h, State.doSet_of_good hecho hp hbarred hv, State.writeAll_of_refused hactive hcheck]
  rfl

end Sys2Proof.Machine

/-!
SETs of desired settings (R50, R51) and of compensation modes (R77, R79).
-/
namespace Sys2Proof.Machine

/-! ### One entry of a table -/

theorem modNth_modNth {α : Type} (l : List α) (i : Nat) (f g : α → α) : modNth (modNth l i f) i g = modNth l i (g ∘ f) :=
  List.modify_modify_eq ..

/-- A change of an entry depends on what the change makes of that entry alone. -/
theorem modNth_congr {α : Type} {l : List α} {i : Nat} {f g : α → α} (x : α) (h : f (nth l i x) = g (nth l i x)) :
    modNth l i f = modNth l i g := by
  refine List.ext_getElem? fun j => ?_
  unfold modNth
  rw [List.getElem?_modify, List.getElem?_modify]
  split
  next hij =>
    subst hij
    cases hx : l[i]? with
    | none => rfl
    | some y =>
      have hy : nth l i x = y := by simp [nth, List.getD_eq_getElem?_getD, hx]
      rw [hy] at h
      simp [h]
  · rfl

theorem modNth_of_fixed {α : Type} {l : List α} {i : Nat} {f : α → α} (x : α) (h : f (nth l i x) = nth l i x) : modNth l i f = l :=
  (modNth_congr x (g := id) h).trans (List.modify_id ..)

/-! ### The desired setting -/

section
variable {i : Fin 64} {f : Setting → Setting} {s : State}

/-- A write of the desired setting, with the queueing of an IDLE channel that is READY (R50, R51). -/
theorem State.writeDesired_eq (hi : i.val < s.channels.length) :
    s.writeDesired i f =
      if f (s.channel i).desired = (s.channel i).desired then s
      else if (s.channel i).link = .ready ∧ (s.channel i).op = .idle ∧ f (s.channel i).desired ≠ (s.channel i).applied then
        { s with
          channels := modNth s.channels i fun c => { c with desired := f c.desired, op := .queued }, cardQueue := s.cardQueue ++ [i] }
      else { s with channels := modNth s.channels i fun c => { c with desired := f c.desired } } := by
  have hsame := State.channel_modChannel_same s i (fun c => { c with desired := f c.desired }) hi
  unfold State.writeDesired
  by_cases hchange : f (s.channel i).desired = (s.channel i).desired
  · rw [if_pos hchange, if_pos hchange]
  rw [if_neg hchange, if_neg hchange]
  unfold State.queueIfReady State.queueIfDiffers
  rw [hsame]
  by_cases hlink : (s.channel i).link = .ready
  · by_cases hqueue : (s.channel i).op = .idle ∧ f (s.channel i).desired ≠ (s.channel i).applied
    · rw [if_pos hlink, if_pos hqueue, if_pos ⟨hlink, hqueue⟩]
      unfold State.queueChannel State.modChannel
      dsimp only
      rw [modNth_modNth]
      rfl
    · rw [if_pos hlink, if_neg hqueue, if_neg fun h => hqueue h.2]
      rfl
  · rw [if_neg hlink, if_neg fun h => hlink h.1]
    rfl

theorem State.desired_writeDesired (hi : i.val < s.channels.length) :
    ((s.writeDesired i f).channel i).desired = f (s.channel i).desired := by
  rw [State.writeDesired_eq hi]
  split
  next hsame => exact hsame.symm
  split
  · exact congrArg Channel.desired (nth_modNth_same _ _ _ _ hi)
  · exact congrArg Channel.desired (nth_modNth_same _ _ _ _ hi)

end

theorem Fin.ofNat_val (i : Fin 64) : Fin.ofNat 64 i.val = i := Fin.ext (Nat.mod_eq_of_lt i.isLt)

/-! ### The mode of a cell -/

theorem Cell.setMode_eq (on : Bool) (e : Int) (c : Cell) :
    c.setMode on e = if c.on = on then c
      else { c.settled with
        on := on, eref := if on = true then some e else none, target := 0, limited := false,
        count := if c.settled.current = 0 then 0 else c.settled.count } := by
  unfold Cell.setMode
  by_cases hsame : c.on = on
  · rw [if_pos hsame.symm, if_pos hsame]
  · rw [if_neg (Ne.symm hsame), if_neg hsame]
    cases on <;> rfl

theorem Cell.on_setMode (on : Bool) (e : Int) (c : Cell) : (c.setMode on e).on = on := by
  rw [Cell.setMode_eq]
  split
  next hsame => exact hsame
  · rfl

theorem State.cell_modCell_same {s : State} {i : Nat} (hi : i < s.comp.length) (c : Fin 4) (f : Int → Cell → Cell) :
    (s.modCell i c f).cell i c = f (s.inputComp i).stageGain (s.cell i c) := by
  have hread := nth_modNth_same s.comp i
    (fun ic : InputComp => { ic with cells := ic.cells.set c (f ic.stageGain (ic.cells.get c)) }) InputComp.reset hi
  show (nth (modNth _ _ _) i InputComp.reset).cells.get c = _
  rw [hread]
  exact (PerColumn.get_set ..).trans (if_pos rfl)

/-! ### Values of the requests -/

theorem toNat_ofNat_index {index : Nat} (h : index < 65536) : (BitVec.ofNat 16 index).toNat = index := by
  rw [BitVec.toNat_ofNat, Nat.mod_eq_of_lt h]

theorem within_bit_of_ne {v : Word} (h0 : v ≠ 0) (h1 : v ≠ 1) : within 0 1 v.toInt = false := by
  have hne0 : v.toInt ≠ 0 := fun h => h0 (BitVec.eq_of_toInt_eq h)
  have hne1 : v.toInt ≠ 1 := fun h => h1 (BitVec.eq_of_toInt_eq h)
  unfold within
  simp only [Bool.and_eq_false_iff, decide_eq_false_iff_not]
  omega

theorem within_bit {v : Word} (h : v = 0 ∨ v = 1) : within 0 1 v.toInt = true := by
  rcases h with rfl | rfl <;> rfl

theorem decide_toInt_eq_one (v : Word) : decide (v.toInt = 1) = decide (v = 1) := by
  have hiff : v.toInt = 1 ↔ v = 1 := ⟨fun h => BitVec.eq_of_toInt_eq h, fun h => by rw [h]; rfl⟩
  simp only [hiff]

theorem boolValue_bit {v : Word} (h : v = 0 ∨ v = 1) : boolValue (decide (v = 1)) = v.toInt := by
  rcases h with rfl | rfl <;> rfl

/-! ### The commands -/

section
variable {sl : SlotId} {tag e : Byte} {i : Fin 64} {v : Word} {s : State} (h : s.Accepts sl) (hunstaged : s.Unstaged sl)
  (hecho : e.toNat ≤ 1)
include h hunstaged hecho

section
variable (hi : i.val < s.channels.length) (hmay : s.MayWrite sl (i.val / 8))
include hi hmay

theorem exec_set_gain :
    exec (.writeDesiredSetting sl tag (BitVec.ofNat 16 i) v e) s =
      .next ((s.writeDesired i fun x => { x with gain := clampTo 0 60 v.toInt }).answer sl tag 0x11#8
        (if within 0 60 v.toInt then .done else .clamped) (echoOf e (clampTo 0 60 v.toInt))) := by
  have hp : paramOf (BitVec.ofNat 16 i).toNat = some (.gain i) := by
    rw [toNat_ofNat_index (by omega)]
    exact (paramOf_inputs i.isLt).1
  have hwrite : s.writeParam sl (.gain i) (Param.stored (.gain i) v.toInt) =
      (s.writeDesired i fun x => { x with gain := clampTo 0 60 v.toInt }, none) := by
    show (s.writeDesired (Fin.ofNat 64 i.val) _, none) = _
    rw [Fin.ofNat_val]
    rfl
  rw [exec_set_of_written rfl h hecho hp rfl rfl hmay.1 (fun _ hdom => by cases hdom; exact hmay) hunstaged hwrite]
  show Host.Outcome.next (State.answer sl tag 0x11#8 (if (!within 0 60 v.toInt) = true then .clamped else .done)
    (echoOf e ((s.writeDesired i _).channel i).desired.gain) _) = _
  rw [State.desired_writeDesired hi]
  cases within 0 60 v.toInt <;> rfl

variable (hv : v = 0 ∨ v = 1)
include hv

theorem exec_set_pad :
    exec (.writeDesiredSetting sl tag (BitVec.ofNat 16 (64 + i)) v e) s =
      .next ((s.writeDesired i fun x => { x with pad := decide (v = 1) }).answer sl tag 0x11#8 .done (echoOf e v.toInt)) := by
  have hp : paramOf (BitVec.ofNat 16 (64 + i)).toNat = some (.pad i) := by
    rw [toNat_ofNat_index (by omega)]
    exact (paramOf_inputs i.isLt).2.1
  have hwrite : s.writeParam sl (.pad i) (Param.stored (.pad i) v.toInt) =
      (s.writeDesired i fun x => { x with pad := decide (v = 1) }, none) := by
    show (s.writeDesired (Fin.ofNat 64 i.val) _, none) = _
    rw [Fin.ofNat_val, ← decide_toInt_eq_one]
    rfl
  rw [exec_set_of_written rfl h hecho hp rfl (within_bit hv) hmay.1 (fun _ hdom => by cases hdom; exact hmay) hunstaged hwrite]
  show Host.Outcome.next (State.answer sl tag 0x11#8 .done (echoOf e (boolValue ((s.writeDesired i _).channel i).desired.pad)) _) = _
  rw [State.desired_writeDesired hi, boolValue_bit hv]

theorem exec_set_phantom :
    exec (.writeDesiredSetting sl tag (BitVec.ofNat 16 (128 + i)) v e) s =
      .next ((s.writePhantom i (decide (v = 1))).answer sl tag 0x11#8 .done (echoOf e v.toInt)) := by
  have hp : paramOf (BitVec.ofNat 16 (128 + i)).toNat = some (.phantom i) := by
    rw [toNat_ofNat_index (by omega)]
    exact (paramOf_inputs i.isLt).2.2.1
  have hwrite : s.writeParam sl (.phantom i) (Param.stored (.phantom i) v.toInt) = (s.writePhantom i (decide (v = 1)), none) := by
    show (s.writePhantom (Fin.ofNat 64 i.val) _, none) = _
    rw [Fin.ofNat_val, ← decide_toInt_eq_one]
    rfl
  rw [exec_set_of_written rfl h hecho hp rfl (within_bit hv) hmay.1 (fun _ hdom => by cases hdom; exact hmay) hunstaged hwrite]
  have hread : ((s.writePhantom i (decide (v = 1))).channel i).desired.phantom = decide (v = 1) := by
    unfold State.writePhantom
    rw [State.desired_writeDesired]
    split
    · rwa [State.modChannel_channels, length_modNth]
    · exact hi
  show Host.Outcome.next (State.answer sl tag 0x11#8 .done
    (echoOf e (boolValue ((s.writePhantom i (decide (v = 1))).channel i).desired.phantom)) _) = _
  rw [hread, boolValue_bit hv]

end

section
variable (hi : i.val < s.comp.length) (hv : v = 0 ∨ v = 1)
include hi hv

theorem exec_set_engineMode (hmay : s.MayWrite sl 15) :
    exec (.writeColumnMode sl tag (BitVec.ofNat 16 (256 + i)) v e) s =
      .next ((s.modCell i 0 (Cell.setMode (decide (v = 1)))).answer sl tag 0x11#8 .done (echoOf e v.toInt)) := by
  have hp : paramOf (BitVec.ofNat 16 (256 + i)).toNat = some (.engineMode i) := by
    rw [toNat_ofNat_index (by omega)]
    exact (paramOf_inputs i.isLt).2.2.2.2.1
  have hwrite : s.writeParam sl (.engineMode i) (Param.stored (.engineMode i) v.toInt) =
      (s.modCell i 0 (Cell.setMode (decide (v = 1))), none) := by
    rw [← decide_toInt_eq_one]
    rfl
  rw [exec_set_of_written rfl h hecho hp rfl (within_bit hv) hmay.1 (fun _ hdom => by cases hdom; exact hmay) hunstaged hwrite]
  show Host.Outcome.next (State.answer sl tag 0x11#8 .done (echoOf e (boolValue ((s.modCell i 0 _).cell i 0).on)) _) = _
  rw [State.cell_modCell_same hi, Cell.on_setMode, boolValue_bit hv]

theorem exec_set_ownMode {d : Desk} (hsl : sl = .desk d) (hactive : (s.slot d).state = .active) :
    exec (.writeColumnMode sl tag (BitVec.ofNat 16 (192 + i)) v e) s =
      .next ((s.modCell i d.column (Cell.setMode (decide (v = 1)))).answer sl tag 0x11#8 .done (echoOf e v.toInt)) := by
  subst hsl
  have hp : paramOf (BitVec.ofNat 16 (192 + i)).toNat = some (.ownMode i) := by
    rw [toNat_ofNat_index (by omega)]
    exact (paramOf_inputs i.isLt).2.2.2.1
  have hwrite : s.writeParam (.desk d) (.ownMode i) (Param.stored (.ownMode i) v.toInt) =
      (s.modCell i d.column (Cell.setMode (decide (v = 1))), none) := by
    rw [← decide_toInt_eq_one]
    rfl
  rw [exec_set_of_written rfl h hecho hp rfl (within_bit hv) hactive (fun _ hdom => by cases hdom) hunstaged hwrite]
  show Host.Outcome.next (State.answer _ tag 0x11#8 .done (echoOf e (boolValue ((s.modCell i d.column _).cell i d.column).on)) _) = _
  rw [State.cell_modCell_same hi, Cell.on_setMode, boolValue_bit hv]

end

end

/-- Settles O46: the write of each kind by its own rule; the echo reads what was written. -/
theorem inputWrites : Obligations.InputWrites := by
  intro sl tag e i v s h hunstaged hecho hshaped
  have hchannel : i.val < s.channels.length := by rw [hshaped.channels]; exact i.isLt
  have hcomp : i.val < s.comp.length := by rw [hshaped.comp]; exact i.isLt
  obtain ⟨_, hpad, hphantom, hownMode, hengineMode, _⟩ := paramOf_inputs i.isLt
  refine ⟨fun hmay => ?_, fun h0 h1 => ?_, fun hv => ?_, fun hsl => ?_⟩
  · intro wrote unlatched
    have hwrote (f : Setting → Setting) : wrote f s = s.writeDesired i f := (State.writeDesired_eq hchannel).symm
    refine ⟨?_, fun hv => ⟨?_, ?_⟩⟩
    · intro g
      simp only [hwrote]
      rw [exec_set_gain h hunstaged hecho hchannel hmay]
      simp only [within, Bool.and_eq_true, decide_eq_true_eq]
      rfl
    · simp only [hwrote]
      rw [exec_set_pad h hunstaged hecho hchannel hmay hv]
    · have hphantom : wrote (fun x => { x with phantom := decide (v = 1) }) (if v = 1 then unlatched else s) =
          s.writePhantom i (decide (v = 1)) := by
        unfold State.writePhantom
        by_cases hone : v = 1
        · have hlatch : unlatched.channel i = { s.channel i with latch := false } := nth_modNth_same _ _ _ _ hchannel
          have hlen : i.val < unlatched.channels.length := by rwa [show unlatched.channels.length = _ from length_modNth ..]
          rw [if_pos hone, if_pos (decide_eq_true hone), show s.modChannel i _ = unlatched from rfl, State.writeDesired_eq hlen, hlatch]
        · rw [if_neg hone, if_neg (by simpa using hone)]
          simp only [hwrote]
      rw [hphantom, exec_set_phantom h hunstaged hecho hchannel hmay hv]
  · have hbad := within_bit_of_ne h0 h1
    refine ⟨exec_set_of_bad_value rfl h hecho (p := .pad i) ?_ rfl hbad, exec_set_of_bad_value rfl h hecho (p := .phantom i) ?_ rfl hbad,
      exec_set_of_bad_value rfl h hecho (p := .engineMode i) ?_ rfl hbad⟩
    · rw [toNat_ofNat_index (by omega)]; exact hpad
    · rw [toNat_ofNat_index (by omega)]; exact hphantom
    · rw [toNat_ofNat_index (by omega)]; exact hengineMode
  · intro moded
    have hmoded (col : Fin 4) : moded col = s.modCell i col (Cell.setMode (decide (v = 1))) := by
      show s.modCell i col _ = _
      congr 1
      funext gain c
      rw [Cell.setMode_eq]
      simp only [decide_eq_true_eq]
    refine ⟨fun hmay => ?_, fun d hsl => ⟨fun hactive => ?_, fun hsilent => ?_⟩⟩
    · rw [hmoded, exec_set_engineMode h hunstaged hecho hcomp hv hmay]
    · rw [hmoded, exec_set_ownMode h hunstaged hecho hcomp hv hsl hactive]
    · subst hsl
      refine exec_set_of_not_active rfl h hecho (p := .ownMode i) ?_ rfl (within_bit hv) ?_
      · rw [toNat_ofNat_index (by omega)]; exact hownMode
      · show (s.slot d).state ≠ .active
        rw [hsilent]
        decide
  · subst hsl
    refine exec_set_of_barred rfl h hecho (p := .ownMode i) ?_ rfl
    rw [toNat_ofNat_index (by omega)]
    exact hownMode

end Sys2Proof.Machine

/-!
SETs of the mix engine's levels and ceilings (R88, R89) and of the output patch (R124, R132 to R134).
-/
namespace Sys2Proof.Machine

/-! ### Levels as they are stored -/

theorem targetOf_levelStored (v : Int) :
    targetOf (levelStored v) = if v ≤ -181 then none else if 20 < v then some 20 else some v := by
  unfold targetOf levelStored
  split_ifs <;> first | rfl | omega

theorem levelStored_ge (v : Int) : -181 ≤ levelStored v := by
  unfold levelStored
  split_ifs <;> omega

/-- A write of a stored value, −181 being off (R88). -/
theorem Level.write_targetOf {v : Int} (hv : -181 ≤ v) (l : Level) :
    l.write (targetOf v) =
      if v = -181 then
        if l.settled.on = true then
          (if l.settled.current = -180 then { on := false, target := none, current := -180, count := 0 }
            else { l.settled with target := none })
        else l.settled
      else if l.settled.on = true then
        { l.settled with target := some v, count := if v = l.settled.current then 0 else l.settled.count }
      else { on := true, target := some v, current := -180, count := 0 } := by
  by_cases hoff : v = -181
  · rw [if_pos hoff, show targetOf v = none from if_pos hoff.le]
    rfl
  · rw [if_neg hoff, show targetOf v = some v from if_neg (by omega)]
    rfl

/-! ### The mix engine -/

theorem State.mix_xp_modXp {s : State} {m j : Nat} (hm : m < s.mixes.length) (hj : j < (s.mix m).xps.length) (f : Level → Level) :
    ((s.modMix m fun mx => mx.modXp j f).mix m).xp j = f ((s.mix m).xp j) := by
  rw [State.mix_modMix_same _ _ _ hm]
  exact nth_modNth_same _ _ _ _ hj

section
variable {sl : SlotId} {tag e : Byte} {v : Word} {s : State} (h : s.Accepts sl) (hunstaged : s.Unstaged sl)
  (hecho : e.toNat ≤ 1)
include h hunstaged hecho

section
variable {m : Nat} (hm : m < 24) (hshaped : s.Shaped) (hmay : s.MayWrite sl (8 + m / 4))
include hm hshaped hmay

theorem exec_set_crosspoint {j : Nat} (hj : j < 66) :
    exec (.writeCrosspoint sl tag (BitVec.ofNat 16 (1024 + 24 * j + m)) v e) s =
      .next ((s.modMix m fun mx => mx.modXp j (Level.write (targetOf (levelStored v.toInt)))).answer sl tag 0x11#8
        (if 20 < v.toInt then .clamped else .done)
        (echoOf e (targetValue (((s.mix m).xp j).write (targetOf (levelStored v.toInt))).target))) := by
  have hp : paramOf (BitVec.ofNat 16 (1024 + 24 * j + m)).toNat = some (.crosspoint j m) := by
    rw [toNat_ofNat_index (by omega)]
    exact paramOf_crosspoint hj hm
  rw [exec_set_of_written rfl h hecho hp rfl rfl hmay.1 (fun _ hdom => by cases hdom; exact hmay) hunstaged rfl]
  show Host.Outcome.next (State.answer sl tag 0x11#8 (if decide (20 < v.toInt) = true then .clamped else .done)
    (echoOf e (targetValue (((s.modMix m _).mix m).xp j).target)) _) = _
  rw [State.mix_xp_modXp (by rw [hshaped.mixes]; exact hm) (by rw [hshaped.length_xps_mix]; exact hj)]
  simp only [decide_eq_true_eq]
  rfl

theorem exec_set_master :
    exec (.writeCrosspoint sl tag (BitVec.ofNat 16 (2700 + m)) v e) s =
      .next ((s.modMix m fun mx => { mx with master := mx.master.write (targetOf (levelStored v.toInt)) }).answer sl tag 0x11#8
        (if 20 < v.toInt then .clamped else .done)
        (echoOf e (targetValue ((s.mix m).master.write (targetOf (levelStored v.toInt))).target))) := by
  have hp : paramOf (BitVec.ofNat 16 (2700 + m)).toNat = some (.master m) := by
    rw [toNat_ofNat_index (by omega)]
    exact paramOf_master hm
  rw [exec_set_of_written rfl h hecho hp rfl rfl hmay.1 (fun _ hdom => by cases hdom; exact hmay) hunstaged rfl]
  show Host.Outcome.next (State.answer sl tag 0x11#8 (if decide (20 < v.toInt) = true then .clamped else .done)
    (echoOf e (targetValue ((s.modMix m _).mix m).master.target)) _) = _
  rw [State.mix_modMix_same _ _ _ (by rw [hshaped.mixes]; exact hm)]
  simp only [decide_eq_true_eq]
  rfl

theorem exec_set_ceiling :
    exec (.writeDuckCeiling sl tag (BitVec.ofNat 16 (2730 + m)) v e) s =
      .next ((s.modMix m (Mix.writeCeiling (clampTo (-180) 0 v.toInt))).answer sl tag 0x11#8
        (if -180 ≤ v.toInt ∧ v.toInt ≤ 0 then .done else .clamped) (echoOf e (clampTo (-180) 0 v.toInt))) := by
  have hp : paramOf (BitVec.ofNat 16 (2730 + m)).toNat = some (.ceiling m) := by
    rw [toNat_ofNat_index (by omega)]
    exact paramOf_ceiling hm
  rw [exec_set_of_written rfl h hecho hp rfl rfl hmay.1 (fun _ hdom => by cases hdom; exact hmay) hunstaged rfl]
  show Host.Outcome.next (State.answer sl tag 0x11#8 (if (!within (-180) 0 v.toInt) = true then .clamped else .done)
    (echoOf e ((s.modMix m _).mix m).ceiling) _) = _
  rw [State.mix_modMix_same _ _ _ (by rw [hshaped.mixes]; exact hm)]
  have hwithin : within (-180) 0 v.toInt = decide (-180 ≤ v.toInt ∧ v.toInt ≤ 0) := (Bool.decide_and ..).symm
  rw [hwithin]
  by_cases hin : -180 ≤ v.toInt ∧ v.toInt ≤ 0
  · rw [if_pos hin, if_neg (by simp [hin])]
    rfl
  · rw [if_neg hin, if_pos (by simp [decide_eq_false hin])]
    rfl

end

end

theorem targetValue_eq_match (t : Option Int) : targetValue t = match t with | some v => v | none => -181 := by
  cases t <;> rfl

/-- Settles O47: the level of each index is written by R88, the ceiling by R89. -/
theorem mixWrites : Obligations.MixWrites := by
  intro sl tag e v m s h hunstaged hecho hshaped hmay stored result written
  have hwritten : written = Level.write (targetOf (levelStored v.toInt)) := by
    funext l
    exact (Level.write_targetOf (levelStored_ge _) l).symm
  have hvalue (t : Option Int) : (match t with | some x => x | none => -181) = targetValue t := (targetValue_eq_match t).symm
  refine ⟨fun j => ?_, ?_, exec_set_ceiling h hunstaged hecho m.isLt hshaped hmay⟩
  · rw [exec_set_crosspoint h hunstaged hecho m.isLt hshaped hmay j.isLt, hwritten, targetValue_eq_match]
    rfl
  · rw [exec_set_master h hunstaged hecho m.isLt hshaped hmay, hwritten, targetValue_eq_match]
    rfl

/-! ### Source codes -/

theorem toInt_ofNat_of_lt {n : Nat} (h : n < 32768) : (BitVec.ofNat 16 n).toInt = n := by
  rw [BitVec.toInt_eq_toNat_of_lt, BitVec.toNat_ofNat, Nat.mod_eq_of_lt (by omega)]
  rw [BitVec.toNat_ofNat, Nat.mod_eq_of_lt (by omega)]
  omega

theorem sourceKnown_natCast (n : Nat) : sourceKnown (n : Int) = (sourceOf n).isSome := by
  simp [sourceKnown]

theorem sourceKnown_of_neg {v : Int} (h : v < 0) : sourceKnown v = false := by
  simp [sourceKnown, Int.not_le.mpr h]

/-! ### The patch -/

theorem State.modOutput_congr {s : State} {o : Nat} {f g : Output → Output} (h : f (s.output o) = g (s.output o)) :
    s.modOutput o f = s.modOutput o g :=
  congrArg (fun l => { s with outputs := l }) (modNth_congr Output.reset h)

theorem State.modOutput_id {s : State} {o : Nat} {f : Output → Output} (h : f (s.output o) = s.output o) : s.modOutput o f = s :=
  congrArg (fun l => { s with outputs := l }) (modNth_of_fixed Output.reset h)

section
variable {s : State} {o code : Nat}

theorem State.writePrimary_eq : s.writePrimary o code =
    s.modOutput o fun x => if x.primary = code then x
      else Output.selectAfresh (s.available code) (s.fallbackAvailable { s.output o with primary := code })
        { s.output o with primary := code } := by
  unfold State.writePrimary
  by_cases hsame : (s.output o).primary = code
  · rw [if_pos hsame]
    exact (State.modOutput_id (by exact if_pos hsame)).symm
  · rw [if_neg hsame]
    exact State.modOutput_congr (if_neg hsame).symm

theorem State.writeFallback_eq : s.writeFallback o code =
    s.modOutput o fun x => if x.fallback = (if code = 0 then none else some code) then x
      else Output.selectAfresh (s.available (s.output o).primary)
        (s.fallbackAvailable { s.output o with fallback := if code = 0 then none else some code })
        { s.output o with fallback := if code = 0 then none else some code } := by
  unfold State.writeFallback
  dsimp only
  by_cases hsame : (s.output o).fallback = if code = 0 then none else some code
  · rw [if_pos hsame]
    exact (State.modOutput_id (by exact if_pos hsame)).symm
  · rw [if_neg hsame]
    exact State.modOutput_congr (if_neg hsame).symm

theorem State.primary_writePrimary (ho : o < s.outputs.length) : ((s.writePrimary o code).output o).primary = code := by
  rw [State.writePrimary_eq, State.output_modOutput_same _ _ _ ho]
  split
  next hsame => exact hsame
  · rfl

theorem State.fallback_writeFallback (ho : o < s.outputs.length) :
    ((s.writeFallback o code).output o).fallback.getD 0 = code := by
  have hread : ((s.writeFallback o code).output o).fallback = if code = 0 then none else some code := by
    rw [State.writeFallback_eq, State.output_modOutput_same _ _ _ ho]
    by_cases hsame : (s.output o).fallback = if code = 0 then none else some code
    · rw [if_pos hsame]
      exact hsame
    · rw [if_neg hsame]
      rfl
  rw [hread]
  split
  next hzero => exact hzero.symm
  · rfl

end

section
variable {sl : SlotId} {tag e : Byte} {s : State} (h : s.Accepts sl) (hunstaged : s.Unstaged sl) (hecho : e.toNat ≤ 1)
  {o : Nat} (ho : o < 32) (hmay : s.MayWrite sl 14)
include h hunstaged hecho ho hmay

section
variable {code : Nat} (hcode : code < 32768) (hknown : sourceOf code ≠ none)
include hcode hknown

theorem exec_set_primary (hlen : o < s.outputs.length) (hpair : pairRefused code ((s.output o).fallback.getD 0) = false) :
    exec (.writeOutputSource sl tag (BitVec.ofNat 16 (2800 + o)) (BitVec.ofNat 16 code) e) s =
      .next ((s.writePrimary o code).answer sl tag 0x11#8 .done (echoOf e code)) := by
  have hp : paramOf (BitVec.ofNat 16 (2800 + o)).toNat = some (.primary o) := by
    rw [toNat_ofNat_index (by omega)]
    exact (paramOf_outputs ho).1
  have hv : Param.valueOk (.primary o) (BitVec.ofNat 16 code).toInt = true := by
    show sourceKnown _ = true
    rw [toInt_ofNat_of_lt hcode, sourceKnown_natCast]
    exact Option.isSome_iff_ne_none.mpr hknown
  have hwrite : s.writeParam sl (.primary o) (Param.stored (.primary o) (BitVec.ofNat 16 code).toInt) =
      (s.writePrimary o code, none) := by
    show (if (s.output o).pairOk true (BitVec.ofNat 16 code).toInt.toNat then
      (s.writePrimary o (BitVec.ofNat 16 code).toInt.toNat, none) else (s, some Result.badValue)) = _
    rw [toInt_ofNat_of_lt hcode, Int.toNat_natCast]
    exact if_pos (by simp [Output.pairOk, hpair])
  rw [exec_set_of_written rfl h hecho hp rfl hv hmay.1 (fun _ hdom => by cases hdom; exact hmay) hunstaged hwrite]
  show Host.Outcome.next (State.answer sl tag 0x11#8 .done (echoOf e (((s.writePrimary o code).output o).primary : Int)) _) = _
  rw [State.primary_writePrimary hlen]

theorem exec_set_fallback (hlen : o < s.outputs.length) (hpair : pairRefused (s.output o).primary code = false) :
    exec (.writeOutputSource sl tag (BitVec.ofNat 16 (2840 + o)) (BitVec.ofNat 16 code) e) s =
      .next ((s.writeFallback o code).answer sl tag 0x11#8 .done (echoOf e code)) := by
  have hp : paramOf (BitVec.ofNat 16 (2840 + o)).toNat = some (.fallback o) := by
    rw [toNat_ofNat_index (by omega)]
    exact (paramOf_outputs ho).2.1
  have hv : Param.valueOk (.fallback o) (BitVec.ofNat 16 code).toInt = true := by
    show sourceKnown _ = true
    rw [toInt_ofNat_of_lt hcode, sourceKnown_natCast]
    exact Option.isSome_iff_ne_none.mpr hknown
  have hwrite : s.writeParam sl (.fallback o) (Param.stored (.fallback o) (BitVec.ofNat 16 code).toInt) =
      (s.writeFallback o code, none) := by
    show (if (s.output o).pairOk false (BitVec.ofNat 16 code).toInt.toNat then
      (s.writeFallback o (BitVec.ofNat 16 code).toInt.toNat, none) else (s, some Result.badValue)) = _
    rw [toInt_ofNat_of_lt hcode, Int.toNat_natCast]
    exact if_pos (by simp [Output.pairOk, hpair])
  rw [exec_set_of_written rfl h hecho hp rfl hv hmay.1 (fun _ hdom => by cases hdom; exact hmay) hunstaged hwrite]
  show Host.Outcome.next (State.answer sl tag 0x11#8 .done
    (echoOf e ((((s.writeFallback o code).output o).fallback.getD 0 : Nat) : Int)) _) = _
  rw [State.fallback_writeFallback hlen]

/-- Two returns of one desk slot are refused as primary and fallback (R124). -/
theorem exec_set_source_of_pair (isPrimary : Bool)
    (hpair : (if isPrimary then pairRefused code ((s.output o).fallback.getD 0) else pairRefused (s.output o).primary code) = true) :
    exec (.writeOutputSource sl tag (BitVec.ofNat 16 ((if isPrimary then 2800 else 2840) + o)) (BitVec.ofNat 16 code) e) s =
      .next (s.answer sl tag 0x11#8 .badValue .none) := by
  have hok : (s.output o).pairOk isPrimary (BitVec.ofNat 16 code).toInt.toNat = false := by
    rw [toInt_ofNat_of_lt hcode, Int.toNat_natCast]
    simp [Output.pairOk, hpair]
  have hv : sourceKnown (BitVec.ofNat 16 code).toInt = true := by
    rw [toInt_ofNat_of_lt hcode, sourceKnown_natCast]
    exact Option.isSome_iff_ne_none.mpr hknown
  obtain ⟨hprimary, hfallback, _⟩ := paramOf_outputs ho
  cases isPrimary with
  | true =>
    refine exec_set_of_write_refused (p := .primary o) (t := s) rfl h hecho ?_ rfl hv hmay.1 (fun _ hdom => by cases hdom; exact hmay)
      hunstaged ?_
    · rw [toNat_ofNat_index (by simp; omega)]; exact hprimary
    · exact if_neg (Bool.eq_false_iff.mp hok)
  | false =>
    refine exec_set_of_write_refused (p := .fallback o) (t := s) rfl h hecho ?_ rfl hv hmay.1 (fun _ hdom => by cases hdom; exact hmay)
      hunstaged ?_
    · rw [toNat_ofNat_index (by simp; omega)]; exact hfallback
    · exact if_neg (Bool.eq_false_iff.mp hok)

end

section
variable {v : Word}

theorem exec_set_outLevel (hlen : o < s.outputs.length) :
    exec (.writeOutputLevel sl tag (BitVec.ofNat 16 (2880 + o)) v e) s =
      .next ((s.modOutput o fun r => { r with level := r.level.write (targetOf (levelStored v.toInt)) }).answer sl tag 0x11#8
        (if 20 < v.toInt then .clamped else .done)
        (echoOf e (targetValue ((s.output o).level.write (targetOf (levelStored v.toInt))).target))) := by
  have hp : paramOf (BitVec.ofNat 16 (2880 + o)).toNat = some (.outLevel o) := by
    rw [toNat_ofNat_index (by omega)]
    exact (paramOf_outputs ho).2.2.1
  rw [exec_set_of_written rfl h hecho hp rfl rfl hmay.1 (fun _ hdom => by cases hdom; exact hmay) hunstaged rfl]
  show Host.Outcome.next (State.answer sl tag 0x11#8 (if decide (20 < v.toInt) = true then .clamped else .done)
    (echoOf e (targetValue ((s.modOutput o _).output o).level.target)) _) = _
  rw [State.output_modOutput_same _ _ _ hlen]
  simp only [decide_eq_true_eq]
  rfl

theorem exec_set_override (hlen : o < s.outputs.length) (ov : Override) (hv : v = BitVec.ofInt 16 ov.code) :
    exec (.writeOverride sl tag (BitVec.ofNat 16 (2920 + o)) v e) s =
      .next ((s.modOutput o fun r => { r with override := ov }).answer sl tag 0x11#8 .done (echoOf e v.toInt)) := by
  have hp : paramOf (BitVec.ofNat 16 (2920 + o)).toNat = some (.override o) := by
    rw [toNat_ofNat_index (by omega)]
    exact (paramOf_outputs ho).2.2.2
  have hcode : v.toInt = ov.code := by subst hv; cases ov <;> rfl
  have hvalue : Param.valueOk (.override o) v.toInt = true := by rw [hcode]; cases ov <;> rfl
  have hwrite : s.writeParam sl (.override o) (Param.stored (.override o) v.toInt) =
      (s.modOutput o fun r => { r with override := ov }, none) := by
    rw [hcode]
    cases ov <;> rfl
  rw [exec_set_of_written rfl h hecho hp rfl hvalue hmay.1 (fun _ hdom => by cases hdom; exact hmay) hunstaged hwrite]
  show Host.Outcome.next (State.answer sl tag 0x11#8 .done (echoOf e ((s.modOutput o _).output o).override.code) _) = _
  rw [State.output_modOutput_same _ _ _ hlen, hcode]

end

end

/-- Settles O48: a source, a level and an override by their write rules, and the values that are refused. -/
theorem outputWrites : Obligations.OutputWrites := by
  intro sl tag e v o s h hunstaged hecho hshaped hmay
  have hlen : o.val < s.outputs.length := by rw [hshaped.outputs]; exact o.isLt
  obtain ⟨hprimary, hfallback, hlevel, hoverride⟩ := paramOf_outputs o.isLt
  have hbad (hv : sourceKnown v.toInt = false) :
      exec (.writeOutputSource sl tag (BitVec.ofNat 16 (2800 + o.val)) v e) s = .next (s.answer sl tag 0x11#8 .badValue .none) ∧
      exec (.writeOutputSource sl tag (BitVec.ofNat 16 (2840 + o.val)) v e) s = .next (s.answer sl tag 0x11#8 .badValue .none) := by
    refine ⟨exec_set_of_bad_value rfl h hecho (p := .primary o) ?_ rfl hv, exec_set_of_bad_value rfl h hecho (p := .fallback o) ?_ rfl hv⟩
    · rw [toNat_ofNat_index (by omega)]; exact hprimary
    · rw [toNat_ofNat_index (by omega)]; exact hfallback
  refine ⟨fun code hv hcode => ?_, fun hneg => hbad (sourceKnown_of_neg hneg), ?_, fun ov hov => ?_, fun hrange => ?_⟩
  · refine ⟨fun hunknown => hbad ?_, fun hknown hpair => ?_, fun hknown hpair => ?_, fun hknown hpair => ?_, fun hknown hpair => ?_⟩
    · rw [hv, toInt_ofNat_of_lt hcode, sourceKnown_natCast, hunknown]
      rfl
    · subst hv
      rw [exec_set_primary h hunstaged hecho o.isLt hmay hcode hknown hlen hpair, State.writePrimary_eq]
      rfl
    · subst hv
      rw [exec_set_fallback h hunstaged hecho o.isLt hmay hcode hknown hlen hpair, State.writeFallback_eq]
      rfl
    · subst hv
      exact exec_set_source_of_pair h hunstaged hecho o.isLt hmay hcode hknown true hpair
    · subst hv
      exact exec_set_source_of_pair h hunstaged hecho o.isLt hmay hcode hknown false hpair
  · rw [exec_set_outLevel h hunstaged hecho o.isLt hmay hlen, targetOf_levelStored, targetValue_eq_match]
    rfl
  · exact exec_set_override h hunstaged hecho o.isLt hmay hlen ov hov
  · refine exec_set_of_bad_value rfl h hecho (p := .override o) ?_ rfl ?_
    · rw [toNat_ofNat_index (by omega)]; exact hoverride
    · show within 0 2 v.toInt = false
      unfold within
      simp only [Bool.and_eq_false_iff, decide_eq_false_iff_not]
      omega

end Sys2Proof.Machine

/-!
SETs of the stage settings (R43, R118, R120, R131, R180): the classes with the order of the waiting lists (R107), and the three times.
-/
namespace Sys2Proof.Machine

/-! ### Re-ordering keeps the order of the others -/

section
variable {cls : SlotId → Nat} {x a : SlotId}

theorem filter_placePreempted_same : ∀ l : List SlotId, (placePreempted cls x l).filter (· ≠ x) = l.filter (· ≠ x)
  | [] => by simp [placePreempted]
  | z :: zs => by
    unfold placePreempted
    split
    · rw [List.filter_cons, List.filter_cons, filter_placePreempted_same zs]
    · rw [List.filter_cons_of_neg (by simp)]

theorem filter_placePreempted_ne (ha : a ≠ x) : ∀ l : List SlotId, (∀ y, y ∈ l → y ≠ x → cls y ≤ cls a) →
    (placePreempted cls a l).filter (· ≠ x) = a :: l.filter (· ≠ x)
  | [], _ => by simp [placePreempted, ha]
  | z :: zs, h => by
    obtain ⟨hz, hzs⟩ := List.forall_mem_cons.mp h
    unfold placePreempted
    split
    next hlt =>
      have hzx : z = x := by
        by_contra hne
        exact Nat.not_lt.mpr (hz hne) hlt
      rw [List.filter_cons_of_neg (by simp [hzx]), List.filter_cons_of_neg (by simp [hzx]), filter_placePreempted_ne ha zs hzs]
    · rw [List.filter_cons_of_pos (by simp [ha])]

/-- With the others in order already, only the place of one slot can change (R107). -/
theorem filter_reorder : ∀ l : List SlotId, (l.filter (· ≠ x)).Pairwise (fun y z => cls z ≤ cls y) →
    (reorder cls l).filter (· ≠ x) = l.filter (· ≠ x)
  | [], _ => rfl
  | a :: l, h => by
    unfold reorder
    by_cases ha : a = x
    · rw [List.filter_cons_of_neg (by simp [ha])] at h
      rw [ha, filter_placePreempted_same, filter_reorder l h, List.filter_cons_of_neg (by simp)]
    · rw [List.filter_cons_of_pos (by simp [ha]), List.pairwise_cons] at h
      obtain ⟨hfirst, hrest⟩ := h
      rw [filter_placePreempted_ne ha, filter_reorder l hrest, List.filter_cons_of_pos (by simp [ha])]
      exact fun y hy hne => hfirst y (List.mem_filter.mpr ⟨mem_reorder.mp hy, by simp [hne]⟩)

end

/-! ### The waiting list of a bus after a class change -/

/-- A bus record after a change of a slot's class (R107, R120). -/
def BusRec.reclassed (cls : SlotId → Nat) (x : SlotId) (b : BusRec) : BusRec :=
  if x ∈ b.waiting then { b with waiting := reorder cls b.waiting } else b

theorem State.bus_reorderBuses (x : SlotId) (s : State) (b : Bus) :
    (s.reorderBuses x).bus b = (s.bus b).reclassed s.talkClassOf x := by cases b <;> rfl

section
variable {cls cls' : SlotId → Nat} {x : SlotId} {b : BusRec}

theorem BusRec.reclassed_talker : (b.reclassed cls x).talker = b.talker ∧ (b.reclassed cls x).timer = b.timer := by
  unfold BusRec.reclassed
  split <;> exact ⟨rfl, rfl⟩

variable (hordered : b.waiting.Pairwise fun y z => cls z ≤ cls y) (hcls : ∀ y, y ≠ x → cls' y = cls y)
include hordered hcls

theorem BusRec.reclassed_waiting :
    (b.reclassed cls' x).waiting.Perm b.waiting ∧ (b.reclassed cls' x).waiting.Pairwise (fun y z => cls' z ≤ cls' y) ∧
      (b.reclassed cls' x).waiting.filter (· ≠ x) = b.waiting.filter (· ≠ x) := by
  unfold BusRec.reclassed
  split
  · refine ⟨reorder_perm .., reorder_served .., filter_reorder _ ?_⟩
    refine (hordered.filter _).imp_of_mem fun {y z} hy hz hyz => ?_
    rw [hcls y (by simpa using (List.mem_filter.mp hy).2), hcls z (by simpa using (List.mem_filter.mp hz).2)]
    exact hyz
  next hnot =>
    refine ⟨.refl _, hordered.imp_of_mem fun {y z} hy hz hyz => ?_, rfl⟩
    rw [hcls y fun h => hnot (h ▸ hy), hcls z fun h => hnot (h ▸ hz)]
    exact hyz

end

/-- The class of a slot written, the lists not yet re-ordered. -/
def State.setClass (x : SlotId) (n : Nat) (s : State) : State :=
  match x with
  | .panel => { s with panelClass := n }
  | .desk d => s.modSlot d fun r => { r with talkClass := n }

theorem State.writeTalkClass_of_there {x : SlotId} {s : State} (hthere : s.slotState x ≠ .vacant) (v : Int) :
    s.writeTalkClass x v = ((s.setClass x v.toNat).reorderBuses x, none) := by
  cases x with
  | panel => rfl
  | desk d => exact if_neg hthere

theorem State.talkClassOf_setClass (x y : SlotId) (n : Nat) (s : State) :
    (s.setClass x n).talkClassOf y = if y = x then n else s.talkClassOf y := by
  cases x with
  | panel => cases y <;> rfl
  | desk d =>
    cases y with
    | panel => rfl
    | desk e =>
      show ((s.modSlot d _).slot e).talkClass = _
      rw [State.slot_modSlot]
      simp only [SlotId.desk.injEq]
      split <;> rfl

theorem State.talkClassOf_reorderBuses (x y : SlotId) (s : State) : (s.reorderBuses x).talkClassOf y = s.talkClassOf y := by
  cases y <;> rfl

theorem slotIndex_lt (x : SlotId) : 3000 + x.number < 65536 := by
  cases x with
  | panel => decide
  | desk d => cases d <;> decide

/-! ### The commands -/

section
variable {sl : SlotId} {tag e : Byte} {v : Word} {s : State} (h : s.Accepts sl) (hunstaged : s.Unstaged sl)
  (hecho : e.toNat ≤ 1) (hmay : s.MayWrite sl 14)

section
include h hunstaged hecho hmay

theorem exec_set_talkClass {x : SlotId} (hlo : 0 ≤ v.toInt) (hhi : v.toInt ≤ 3) (hthere : s.slotState x ≠ .vacant) :
    exec (.writeTalkClass sl tag (BitVec.ofNat 16 (3000 + x.number)) v e) s =
      .next (((s.setClass x v.toInt.toNat).reorderBuses x).answer sl tag 0x11#8 .done (echoOf e v.toInt)) := by
  have hindex : (BitVec.ofNat 16 (3000 + x.number)).toNat = 3000 + x.number :=
    toNat_ofNat_index (slotIndex_lt x)
  have hvalue : Param.valueOk (.talkClass x) v.toInt = true := by simp [Param.valueOk, within, hlo, hhi]
  rw [exec_set_of_written (p := .talkClass x) rfl h hecho (by rw [hindex]; exact paramOf_talkClass x) rfl hvalue hmay.1
    (fun _ hdom => by cases hdom; exact hmay) hunstaged (State.writeTalkClass_of_there hthere v.toInt)]
  show Host.Outcome.next (State.answer sl tag 0x11#8 .done
    (echoOf e ((((s.setClass x v.toInt.toNat).reorderBuses x).talkClassOf x : Nat) : Int)) _) = _
  rw [State.talkClassOf_reorderBuses, State.talkClassOf_setClass, if_pos rfl, Int.toNat_of_nonneg hlo]

theorem exec_set_talkLimit (hlo : 0 ≤ v.toInt) (hhi : v.toInt ≤ 255) :
    exec (.writeTalkLimit sl tag 3010#16 v e) s =
      .next ({ s with talkLimit := v.toInt.toNat }.answer sl tag 0x11#8 .done (echoOf e v.toInt)) := by
  have hvalue : Param.valueOk .talkLimit v.toInt = true := by simp [Param.valueOk, within, hlo, hhi]
  rw [exec_set_of_written (p := .talkLimit) rfl h hecho rfl rfl hvalue hmay.1 (fun _ hdom => by cases hdom; exact hmay) hunstaged rfl]
  show Host.Outcome.next (State.answer sl tag 0x11#8 .done (echoOf e ((v.toInt.toNat : Nat) : Int)) _) = _
  rw [Int.toNat_of_nonneg hlo]
  rfl

theorem exec_set_graceTime (hlo : 5 ≤ v.toInt) (hhi : v.toInt ≤ 200) :
    exec (.writeGraceTime sl tag 3011#16 v e) s =
      .next ({ s with graceTime := 50 * v.toInt.toNat }.answer sl tag 0x11#8 .done (echoOf e v.toInt)) := by
  have hvalue : Param.valueOk .graceTime v.toInt = true := by simp [Param.valueOk, within, hlo, hhi]
  rw [exec_set_of_written (p := .graceTime) rfl h hecho rfl rfl hvalue hmay.1 (fun _ hdom => by cases hdom; exact hmay) hunstaged rfl]
  show Host.Outcome.next (State.answer sl tag 0x11#8 .done (echoOf e ((v.toInt.toNat * 50 / 50 : Nat) : Int))
    { s with graceTime := v.toInt.toNat * 50 }) = _
  rw [Nat.mul_div_cancel _ (by decide), Int.toNat_of_nonneg (by omega), Nat.mul_comm]

theorem exec_set_revertTime (hlo : 0 ≤ v.toInt) (hhi : v.toInt ≤ 300) :
    exec (.writeRevertHoldTime sl tag 3012#16 v e) s =
      .next ({ s with revertTime := 100 * v.toInt.toNat }.answer sl tag 0x11#8 .done (echoOf e v.toInt)) := by
  have hvalue : Param.valueOk .revertTime v.toInt = true := by simp [Param.valueOk, within, hlo, hhi]
  rw [exec_set_of_written (p := .revertTime) rfl h hecho rfl rfl hvalue hmay.1 (fun _ hdom => by cases hdom; exact hmay) hunstaged rfl]
  show Host.Outcome.next (State.answer sl tag 0x11#8 .done (echoOf e ((v.toInt.toNat * 100 / 100 : Nat) : Int))
    { s with revertTime := v.toInt.toNat * 100 }) = _
  rw [Nat.mul_div_cancel _ (by decide), Int.toNat_of_nonneg (by omega), Nat.mul_comm]

end

end

theorem within_eq_false {lo hi v : Int} (h : v < lo ∨ hi < v) : within lo hi v = false := by
  unfold within
  simp only [Bool.and_eq_false_iff, decide_eq_false_iff_not]
  omega

/-- Settles O49: a class with the lists re-ordered by it, and the three times by their write rules. -/
theorem stageWrites : Obligations.StageWrites := by
  intro sl tag e v s h hunstaged hecho _ hmay
  have hclass (x : SlotId) : paramOf (BitVec.ofNat 16 (3000 + x.number)).toNat = some (.talkClass x) := by
    rw [toNat_ofNat_index (slotIndex_lt x)]
    exact paramOf_talkClass x
  refine ⟨fun x hlo hhi hthere hlawful => ?_, fun d hvacant hlo hhi => ?_, fun x hrange => ?_,
    exec_set_talkLimit h hunstaged hecho hmay, fun hrange => ?_, exec_set_graceTime h hunstaged hecho hmay, fun hrange => ?_,
    exec_set_revertTime h hunstaged hecho hmay, fun hrange => ?_⟩
  · refine ⟨_, exec_set_talkClass h hunstaged hecho hmay hlo hhi hthere, ?_, fun y hy => ?_, fun b => ?_, ?_⟩
    · rw [State.talkClassOf_reorderBuses, State.talkClassOf_setClass, if_pos rfl]
    · rw [State.talkClassOf_reorderBuses, State.talkClassOf_setClass, if_neg hy]
    · have hordered : (s.bus b).waiting.Pairwise fun y z => s.talkClassOf z ≤ s.talkClassOf y := by
        cases b
        · exact hlawful.tb1.ordered
        · exact hlawful.tb2.ordered
      have hbus : (s.setClass x v.toInt.toNat).bus b = s.bus b := by cases x <;> rfl
      have hcls (y : SlotId) (hy : y ≠ x) : (s.setClass x v.toInt.toNat).talkClassOf y = s.talkClassOf y := by
        rw [State.talkClassOf_setClass, if_neg hy]
      obtain ⟨htalker, htimer⟩ := BusRec.reclassed_talker (b := s.bus b) (cls := (s.setClass x v.toInt.toNat).talkClassOf) (x := x)
      obtain ⟨hperm, hserved, hothers⟩ := BusRec.reclassed_waiting hordered hcls
      simp only [State.bus_reorderBuses, State.talkClassOf_reorderBuses, hbus]
      exact ⟨htalker, htimer, hperm, hserved, hothers⟩
    · cases x <;> rfl
  · refine exec_set_of_write_refused (p := .talkClass (.desk d)) (t := s) rfl h hecho (hclass (.desk d)) rfl ?_ hmay.1
      (fun _ hdom => by cases hdom; exact hmay) hunstaged (if_pos hvacant)
    simp [Param.valueOk, within, hlo, hhi]
  · exact exec_set_of_bad_value (p := .talkClass x) rfl h hecho (hclass x) rfl (within_eq_false hrange)
  · exact exec_set_of_bad_value (p := .talkLimit) rfl h hecho rfl rfl (within_eq_false hrange)
  · exact exec_set_of_bad_value (p := .graceTime) rfl h hecho rfl rfl (within_eq_false hrange)
  · exact exec_set_of_bad_value (p := .revertTime) rfl h hecho rfl rfl (within_eq_false hrange)

end Sys2Proof.Machine

/-!
SET-WINDOW (R98, R99, R179): the crosspoints of a window, the domains its items name, and its effect, written or staged.
-/
namespace Sys2Proof.Machine

/-! ### The domains of a request -/

theorem mem_domainsOf {l : List (Option Nat)} {n : Nat} : n ∈ domainsOf l ↔ n < 16 ∧ some n ∈ l := by
  simp [domainsOf]

theorem domainsOf_ascending (l : List (Option Nat)) : (domainsOf l).Pairwise (· < ·) := List.pairwise_lt_range.filter _

/-- The domain belongs to another slot. -/
def State.Foreign (sl : SlotId) (n : Nat) (s : State) : Prop := (s.domain n).owner ≠ none ∧ (s.domain n).owner ≠ some sl

section
variable {sl : SlotId}

theorem State.rightsTest_of_foreign {n : Nat} {s : State} (hactive : s.slotState sl = .active) (h : s.Foreign sl n) :
    ∃ o, (s.domain n).owner = some o ∧ s.rightsTest sl n = some (s.ownerRefusal o) := by
  obtain ⟨o, howner⟩ := Option.ne_none_iff_exists'.mp h.1
  have hne : o ≠ sl := fun he => h.2 (he ▸ howner)
  exact ⟨o, howner, State.rightsTest_of_owner hactive howner hne⟩

theorem State.mayWrite_of_not_foreign {n : Nat} {s : State} (hactive : s.slotState sl = .active) (h : ¬s.Foreign sl n) :
    s.MayWrite sl n :=
  ⟨hactive, by_contra fun hcon => h ⟨fun hn => hcon (.inl hn), fun hs => hcon (.inr hs)⟩⟩

theorem State.not_foreign_of_mayWrite {n : Nat} {s : State} (h : s.MayWrite sl n) : ¬s.Foreign sl n :=
  fun hf => h.2.elim hf.1 hf.2

theorem State.checkDomains_cons_mayWrite {n : Nat} {ds : List Nat} {s : State} (h : s.MayWrite sl n) :
    s.checkDomains sl (n :: ds) = s.checkDomains sl ds := by
  show (_, _) = _
  rw [State.rightsTest_of_mayWrite h]

/-- A foreign domain of the list: its record is marked, the rest is tested as well, and its code is the answer's (R154, R155). -/
theorem State.checkDomains_cons_foreign {n : Nat} {o : SlotId} {ds : List Nat} {s : State} (hactive : s.slotState sl = .active)
    (howner : (s.domain n).owner = some o) (hne : o ≠ sl) :
    s.checkDomains sl (n :: ds) =
      (((s.modDomain n (Domain.recordTrespass sl)).checkDomains sl ds).1, some (s.ownerRefusal o)) := by
  show (_, _) = _
  rw [State.rightsTest_of_owner hactive howner hne]
  simp only [State.ownerRefusal_isTrespass, if_true]

/-- Every foreign domain of the list is marked and nothing else changes (R155). -/
theorem State.checkDomains_marks : ∀ {ds : List Nat} {s : State}, s.slotState sl = .active → ds.Nodup →
    (∀ n, n ∈ ds → n < s.domains.length) →
    (s.checkDomains sl ds).1 = { s with domains := (s.checkDomains sl ds).1.domains } ∧
      ∀ n, (n ∈ ds → s.Foreign sl n → (s.checkDomains sl ds).1.domain n = (s.domain n).recordTrespass sl) ∧
        (¬(n ∈ ds ∧ s.Foreign sl n) → (s.checkDomains sl ds).1.domain n = s.domain n)
  | [], s, _, _, _ => ⟨rfl, fun n => ⟨fun h => absurd h List.not_mem_nil, fun _ => rfl⟩⟩
  | d :: ds, s, hactive, hnodup, hlen => by
    obtain ⟨hfresh, hrest⟩ := List.nodup_cons.mp hnodup
    obtain ⟨hd, hds⟩ := List.forall_mem_cons.mp hlen
    by_cases hforeign : s.Foreign sl d
    · obtain ⟨o, howner, -⟩ := State.rightsTest_of_foreign hactive hforeign
      rw [State.checkDomains_cons_foreign hactive howner fun he => hforeign.2 (he ▸ howner)]
      obtain ⟨hsame, hmarks⟩ := State.checkDomains_marks (s := s.modDomain d (Domain.recordTrespass sl)) (ds := ds)
        (by rwa [State.modDomain_slotState]) hrest (by simpa using hds)
      refine ⟨hsame, fun n => ?_⟩
      by_cases hn : n = d
      · subst hn
        have hstands := (hmarks n).2 fun hcon => hfresh hcon.1
        rw [State.domain_modDomain_same _ _ _ hd] at hstands
        exact ⟨fun _ _ => hstands, fun hcon => absurd ⟨List.mem_cons_self, hforeign⟩ hcon⟩
      · have hother := State.domain_modDomain_ne s d n (Domain.recordTrespass sl) (Ne.symm hn)
        unfold State.Foreign at hmarks ⊢
        rw [List.mem_cons, or_iff_right hn, ← hother]
        exact hmarks n
    · rw [State.checkDomains_cons_mayWrite (State.mayWrite_of_not_foreign hactive hforeign)]
      obtain ⟨hsame, hmarks⟩ := State.checkDomains_marks hactive hrest hds
      refine ⟨hsame, fun n => ⟨fun hmem hf => ?_, fun hcon => (hmarks n).2 fun hin => hcon ⟨List.mem_cons_of_mem _ hin.1, hin.2⟩⟩⟩
      exact (hmarks n).1 ((List.mem_cons.mp hmem).resolve_left fun he => hforeign (he ▸ hf)) hf

/-- The answer of a list in rising order is the code of its lowest foreign domain (R99, R154). -/
theorem State.checkDomains_code {dom : Nat} {o : SlotId} {s : State} (hactive : s.slotState sl = .active)
    (howner : (s.domain dom).owner = some o) (hne : o ≠ sl) : ∀ {ds : List Nat}, ds.Pairwise (· < ·) → dom ∈ ds →
    (∀ n, n ∈ ds → n < dom → s.MayWrite sl n) → (s.checkDomains sl ds).2 = some (s.ownerRefusal o)
  | d :: ds, hsorted, hmem, hlower => by
    obtain ⟨hfirst, hrest⟩ := List.pairwise_cons.mp hsorted
    obtain ⟨hd, hds⟩ := List.forall_mem_cons.mp hlower
    rcases List.mem_cons.mp hmem with rfl | hmem
    · rw [State.checkDomains_cons_foreign hactive howner hne]
    · rw [State.checkDomains_cons_mayWrite (hd (hfirst dom hmem))]
      exact State.checkDomains_code hactive howner hne hrest hmem hds

/-- Items that are refused on rights: every domain of another slot marked, the code of the lowest (R99, R154, R155, R179). -/
theorem State.writeAll_of_foreign {dom echo : Nat} {o : SlotId} {s : State} {items : List Item} (hactive : s.slotState sl = .active)
    (hlen : s.domains.length = 16) (hdom : dom < 16) (hitem : ∃ x, x ∈ items ∧ x.param.domain = some dom)
    (howner : (s.domain dom).owner = some o) (hne : o ≠ sl)
    (hlower : ∀ x low, x ∈ items → x.param.domain = some low → low < dom → s.MayWrite sl low) :
    ∃ u : State, s.writeAll sl items echo = Reply.refuse u (s.ownerRefusal o) ∧ u = { s with domains := u.domains } ∧
      ∀ n, n < 16 →
        ((∃ x, x ∈ items ∧ x.param.domain = some n) → s.Foreign sl n → u.domain n = (s.domain n).recordTrespass sl) ∧
        (¬((∃ x, x ∈ items ∧ x.param.domain = some n) ∧ s.Foreign sl n) → u.domain n = s.domain n) := by
  have hmem : ∀ n, n ∈ domainsOf (items.map fun x => x.param.domain) ↔ n < 16 ∧ ∃ x, x ∈ items ∧ x.param.domain = some n :=
    fun n => mem_domainsOf.trans (and_congr_right' List.mem_map)
  have hcode := State.checkDomains_code hactive howner hne (domainsOf_ascending _) ((hmem dom).mpr ⟨hdom, hitem⟩)
    fun n hn hlt => by
      obtain ⟨x, hx, hxn⟩ := ((hmem n).mp hn).2
      exact hlower x n hx hxn hlt
  obtain ⟨hsame, hmarks⟩ := State.checkDomains_marks (ds := domainsOf (items.map fun x => x.param.domain)) hactive
    ((domainsOf_ascending _).imp ne_of_lt) fun n hn => hlen ▸ ((hmem n).mp hn).1
  refine ⟨_, State.writeAll_of_refused hactive (Prod.ext rfl hcode), hsame, fun n hn => ⟨fun hin hf => (hmarks n).1 ((hmem n).mpr ⟨hn, hin⟩) hf,
    fun hcon => (hmarks n).2 fun hin => hcon ⟨((hmem n).mp hin.1).2, hin.2⟩⟩⟩

theorem State.checkDomains_of_items {s : State} {items : List Item}
    (hmay : ∀ x, x ∈ items → ∀ dom, x.param.domain = some dom → s.MayWrite sl dom) :
    s.checkDomains sl (domainsOf (items.map fun x => x.param.domain)) = (s, none) :=
  State.checkDomains_of_mayWrite fun n hn => by
    obtain ⟨x, hx, hxn⟩ := List.mem_map.mp (mem_domainsOf.mp hn).2
    exact hmay x hx n hxn
end

end Sys2Proof.Machine

/-!
The matrix window (R98, R99): its crosspoints by place, and what writing them one after another leaves.
-/
namespace Sys2Proof.Machine

/-! ### Lists by place -/

theorem getElem?_mapFrom {α β : Type} (f : Nat → α → β) : ∀ (l : List α) (i n : Nat), (mapFrom f i l)[n]? = l[n]?.map (f (i + n))
  | [], _, _ => rfl
  | _ :: _, _, 0 => rfl
  | _ :: l, i, n + 1 => by
    rw [mapFrom, List.getElem?_cons_succ, List.getElem?_cons_succ, getElem?_mapFrom f l (i + 1) n, Nat.add_right_comm, Nat.add_assoc]

theorem nth_of_getElem? {α : Type} {l : List α} {n : Nat} {x : α} (h : l[n]? = some x) (y : α) : nth l n y = x := by
  simp [nth, List.getD, h]

theorem getElem?_nth {α : Type} {l : List α} {n : Nat} (h : n < l.length) (y : α) : l[n]? = some (nth l n y) := by
  simp [nth, List.getD, h]

theorem any_mapFrom {α β : Type} (f : Nat → α → β) (p : β → Bool) (q : α → Bool) (h : ∀ n x, p (f n x) = q x) :
    ∀ (l : List α) (i : Nat), (mapFrom f i l).any p = l.any q
  | [], _ => rfl
  | x :: l, i => by rw [mapFrom, List.any_cons, List.any_cons, h, any_mapFrom f p q h l]

/-! ### The crosspoints of a window -/

/-- The write of the crosspoint at a place of a window, its places counted row by row from 0 (R98). -/
def crossItem (s1 m1 width k : Nat) (v : Int) : Item :=
  { index := 1024 + (s1 - 1 + k / width) * 24 + (m1 - 1 + k % width),
    param := .crosspoint (s1 - 1 + k / width) (m1 - 1 + k % width), value := v }

theorem matrixItems_eq (s1 m1 width : Nat) : ∀ (vs : List Int) (k : Nat),
    matrixItems s1 m1 width k vs = mapFrom (crossItem s1 m1 width) k vs
  | [], _ => rfl
  | _ :: vs, k => by rw [matrixItems, mapFrom, matrixItems_eq s1 m1 width vs]; rfl

/-- A window that passes the checks of form (R98). -/
structure WindowOk (s1 s2 m1 m2 len : Nat) : Prop where
  source : 1 ≤ s1 ∧ s1 ≤ s2 ∧ s2 ≤ 66
  mix : 1 ≤ m1 ∧ m1 ≤ m2 ∧ m2 ≤ 24
  size : (s2 - s1 + 1) * (m2 - m1 + 1) ≤ 64
  count : len = (s2 - s1 + 1) * (m2 - m1 + 1)

/-- A crosspoint of the window, both indices counted from 0. -/
def Inside (s1 s2 m1 m2 j m : Nat) : Prop := s1 - 1 ≤ j ∧ j < s2 ∧ m1 - 1 ≤ m ∧ m < m2

/-- The place of a crosspoint in the window. -/
def windowPlace (s1 m1 m2 j m : Nat) : Nat := (j - (s1 - 1)) * (m2 - m1 + 1) + (m - (m1 - 1))

section
variable {s1 s2 m1 m2 len : Nat} (hok : WindowOk s1 s2 m1 m2 len)
include hok

theorem windowPlace_spec {j m : Nat} (h : Inside s1 s2 m1 m2 j m) :
    windowPlace s1 m1 m2 j m < len ∧ s1 - 1 + windowPlace s1 m1 m2 j m / (m2 - m1 + 1) = j ∧
      m1 - 1 + windowPlace s1 m1 m2 j m % (m2 - m1 + 1) = m := by
  obtain ⟨hj, hj', hm, hm'⟩ := h
  obtain ⟨⟨hs, hss, -⟩, ⟨hm1, hmm, -⟩, -, hcount⟩ := hok
  have hcol : m - (m1 - 1) < m2 - m1 + 1 := by omega
  have hrow : j - (s1 - 1) + 1 ≤ s2 - s1 + 1 := by omega
  have hpos : 0 < m2 - m1 + 1 := Nat.succ_pos _
  unfold windowPlace
  refine ⟨?_, ?_, ?_⟩
  · rw [hcount]
    calc (j - (s1 - 1)) * (m2 - m1 + 1) + (m - (m1 - 1))
        < (j - (s1 - 1)) * (m2 - m1 + 1) + (m2 - m1 + 1) := Nat.add_lt_add_left hcol _
      _ = (j - (s1 - 1) + 1) * (m2 - m1 + 1) := (Nat.succ_mul _ _).symm
      _ ≤ (s2 - s1 + 1) * (m2 - m1 + 1) := Nat.mul_le_mul_right _ hrow
  · rw [Nat.mul_comm, Nat.mul_add_div hpos, Nat.div_eq_of_lt hcol]
    omega
  · rw [Nat.mul_comm, Nat.mul_add_mod, Nat.mod_eq_of_lt hcol]
    omega

theorem inside_of_place {k : Nat} (hk : k < len) :
    Inside s1 s2 m1 m2 (s1 - 1 + k / (m2 - m1 + 1)) (m1 - 1 + k % (m2 - m1 + 1)) := by
  obtain ⟨⟨hs, hss, -⟩, ⟨hm1, hmm, -⟩, -, hcount⟩ := hok
  have hpos : 0 < m2 - m1 + 1 := Nat.succ_pos _
  have hrow : k / (m2 - m1 + 1) < s2 - s1 + 1 := Nat.div_lt_of_lt_mul (by rwa [Nat.mul_comm, ← hcount])
  have hcol := Nat.mod_lt k hpos
  generalize k / (m2 - m1 + 1) = row at *
  generalize k % (m2 - m1 + 1) = col at *
  unfold Inside
  omega

end

theorem eq_of_same_place {s1 m1 width k n : Nat} (hrow : s1 - 1 + k / width = s1 - 1 + n / width)
    (hcol : m1 - 1 + k % width = m1 - 1 + n % width) : k = n := by
  rw [← Nat.div_add_mod k width, ← Nat.div_add_mod n width, Nat.add_left_cancel hrow, Nat.add_left_cancel hcol]

/-! ### Writing crosspoints -/

theorem State.mix_xp_modXp_ne {s : State} {m j m' j' : Nat} (hm : m' < s.mixes.length) (hne : ¬(j' = j ∧ m' = m)) (f : Level → Level) :
    ((s.modMix m fun mx => mx.modXp j f).mix m').xp j' = (s.mix m').xp j' := by
  by_cases h : m' = m
  · subst h
    rw [State.mix_modMix_same _ _ _ hm]
    exact nth_modNth_ne _ _ _ _ _ fun he => hne ⟨he.symm, rfl⟩
  · rw [State.mix_modMix_ne _ _ _ _ (Ne.symm h)]

theorem State.length_xps_modXp (s : State) (m j m' : Nat) (f : Level → Level) :
    ((s.modMix m fun mx => mx.modXp j f).mix m').xps.length = (s.mix m').xps.length := by
  by_cases hm : m < s.mixes.length
  · by_cases h : m = m'
    · subst h
      rw [State.mix_modMix_same _ _ _ hm]
      exact length_modNth ..
    · rw [State.mix_modMix_ne _ _ _ _ h]
  · rw [show s.modMix m _ = s from congrArg (fun l => { s with mixes := l }) (List.modify_eq_self (Nat.not_lt.mp hm))]

/-- The crosspoints of a window written one after another: each of the window's once, and no other (R98, R179). -/
theorem State.writeItems_window {sl : SlotId} {s1 m1 width : Nat} : ∀ {vs : List Int} {k : Nat} {s : State}, s.mixes.length = 24 →
    (∀ m, m < 24 → (s.mix m).xps.length = 66) →
    ∃ u : State, s.writeItems sl (mapFrom (crossItem s1 m1 width) k vs) = (u, none) ∧ u = { s with mixes := u.mixes } ∧
      ∀ j m, j < 66 → m < 24 →
        (∀ n, n < vs.length → j = s1 - 1 + (k + n) / width → m = m1 - 1 + (k + n) % width →
          (u.mix m).xp j = ((s.mix m).xp j).write (targetOf (levelStored (nth vs n 0)))) ∧
        ((∀ n, n < vs.length → ¬(j = s1 - 1 + (k + n) / width ∧ m = m1 - 1 + (k + n) % width)) → (u.mix m).xp j = (s.mix m).xp j)
  | [], _, s, _, _ => ⟨s, rfl, rfl, fun _ _ _ _ => ⟨fun _ hn => absurd hn (Nat.not_lt_zero _), fun _ => rfl⟩⟩
  | v :: vs, k, s, hmixes, hxps => by
    obtain ⟨u, hwrite, hsame, hrows⟩ := State.writeItems_window (sl := sl) (s1 := s1) (m1 := m1) (width := width) (vs := vs) (k := k + 1)
      (s := s.modMix (m1 - 1 + k % width) fun mx => mx.modXp (s1 - 1 + k / width) (Level.write (targetOf (levelStored v)))) ((length_modNth ..).trans hmixes)
      fun m hm => (State.length_xps_modXp ..).trans (hxps m hm)
    refine ⟨u, hwrite, hsame, fun j m hj hm => ?_⟩
    obtain ⟨hin, hout⟩ := hrows j m hj hm
    have hshift : ∀ n, k + 1 + n = k + (n + 1) := fun n => by omega
    simp only [hshift] at hin hout
    by_cases hhere : j = s1 - 1 + k / width ∧ m = m1 - 1 + k % width
    · have hfirst : (u.mix m).xp j = ((s.mix m).xp j).write (targetOf (levelStored v)) := by
        rw [hout fun n _ hcon => absurd (eq_of_same_place (hhere.1.symm.trans hcon.1) (hhere.2.symm.trans hcon.2)) (by omega)]
        obtain ⟨rfl, rfl⟩ := hhere
        exact State.mix_xp_modXp (by omega) (by rw [hxps _ hm]; exact hj) _
      refine ⟨fun n hn hjn hmn => ?_, fun hnone => absurd hhere (hnone 0 (Nat.succ_pos _))⟩
      obtain rfl : n = 0 := by
        have := eq_of_same_place (hhere.1.symm.trans hjn) (hhere.2.symm.trans hmn)
        omega
      exact hfirst
    · rw [State.mix_xp_modXp_ne (by omega) hhere] at hin hout
      refine ⟨fun n hn hjn hmn => ?_, fun hnone => hout fun n hn => hnone (n + 1) (Nat.succ_lt_succ hn)⟩
      cases n with
      | zero => exact absurd ⟨hjn, hmn⟩ hhere
      | succ n => exact hin n (Nat.lt_of_succ_lt_succ hn) hjn hmn

end Sys2Proof.Machine

/-!
SET-WINDOW as a request: its checks of form, its rights, and its effect, written or staged (R98, R99, R164, R179).
-/
namespace Sys2Proof.Machine

theorem exec_windowMatrix_of_accepts {sl : SlotId} {tag s1 s2 m1 m2 e : Byte} {vs : List Word} {s : State} (h : s.Accepts sl) :
    exec (.setWindowMatrix sl tag s1 s2 m1 m2 e vs) s =
      .next ((s.doMatrix sl s1.toNat s2.toNat m1.toNat m2.toNat e.toNat (vs.map BitVec.toInt)).place sl tag 0x12#8) :=
  exec_request_of_accepts (r := .windowMatrix s1.toNat s2.toNat m1.toNat m2.toNat e.toNat (vs.map BitVec.toInt)) rfl nofun h nofun rfl

theorem exec_windowRun_of_accepts {sl : SlotId} {tag e : Byte} {first : Word} {vs : List Word} {s : State} (h : s.Accepts sl) :
    exec (.setWindowRun sl tag first e vs) s =
      .next ((s.doRun sl first.toNat e.toNat (vs.map BitVec.toInt)).place sl tag 0x12#8) :=
  exec_request_of_accepts (r := .windowRun first.toNat e.toNat (vs.map BitVec.toInt)) rfl nofun h nofun rfl

theorem eq_one_iff_toNat {e : Byte} : e.toNat = 1 ↔ e = 1#8 := ⟨fun h => BitVec.eq_of_toNat_eq h, fun h => by rw [h]; rfl⟩

theorem echoData_byte (e : Byte) (vs : List Int) : echoData e.toNat vs = if e = 1#8 then .values vs else .none := by
  simp only [echoData, eq_one_iff_toNat]

theorem nth_toInt {vs : List Word} {n : Nat} (hn : n < vs.length) : nth (vs.map BitVec.toInt) n 0 = (nth vs n 0).toInt :=
  nth_of_getElem? (by rw [List.getElem?_map, getElem?_nth hn 0]; rfl) 0

/-! ### The matrix form -/

/-- The writes a matrix window asks for (R98). -/
def windowItems (s1 m1 m2 : Nat) (vs : List Word) : List Item := mapFrom (crossItem s1 m1 (m2 - m1 + 1)) 0 (vs.map BitVec.toInt)

section
variable {s1 s2 m1 m2 : Nat} {vs : List Word}

theorem length_windowItems : (windowItems s1 m1 m2 vs).length = vs.length := by
  rw [windowItems, length_mapFrom, List.length_map]

theorem windowItems_clamp : (windowItems s1 m1 m2 vs).any (fun x => x.param.clamps x.value) = vs.any fun v => decide (20 < v.toInt) := by
  rw [windowItems, any_mapFrom _ _ (fun v : Int => decide (20 < v)) fun _ _ => rfl, List.any_map]
  rfl

variable (hok : WindowOk s1 s2 m1 m2 vs.length)
include hok

theorem getElem?_windowItems {j m : Nat} (h : Inside s1 s2 m1 m2 j m) :
    (windowItems s1 m1 m2 vs)[windowPlace s1 m1 m2 j m]? =
      some { index := 1024 + 24 * j + m, param := .crosspoint j m, value := (nth vs (windowPlace s1 m1 m2 j m) 0).toInt } := by
  obtain ⟨hlt, hrow, hcol⟩ := windowPlace_spec hok h
  rw [windowItems, getElem?_mapFrom, Nat.zero_add, List.getElem?_map, getElem?_nth hlt 0]
  simp only [Option.map_some, crossItem, hrow, hcol, Option.some_inj, Item.mk.injEq, and_true]
  omega

theorem mem_windowItems {x : Item} (hx : x ∈ windowItems s1 m1 m2 vs) :
    ∃ j m, Inside s1 s2 m1 m2 j m ∧ x.param = .crosspoint j m := by
  obtain ⟨k, hk, rfl⟩ := List.mem_iff_getElem.mp hx
  rw [length_windowItems] at hk
  refine ⟨_, _, inside_of_place hok hk, ?_⟩
  have hget := getElem?_mapFrom (crossItem s1 m1 (m2 - m1 + 1)) (vs.map BitVec.toInt) 0 k
  rw [Nat.zero_add, List.getElem?_map, getElem?_nth hk 0] at hget
  exact congrArg Item.param (Option.some_inj.mp ((List.getElem?_eq_getElem _).symm.trans hget))

theorem windowItems_domain (n : Nat) : (∃ x, x ∈ windowItems s1 m1 m2 vs ∧ x.param.domain = some n) ↔
    8 + (m1 - 1) / 4 ≤ n ∧ n ≤ 8 + (m2 - 1) / 4 := by
  obtain ⟨hs1, hs2, -⟩ := hok.source
  obtain ⟨hm1, hm2, -⟩ := hok.mix
  constructor
  · rintro ⟨x, hx, hdom⟩
    obtain ⟨j, m, ⟨-, -, hm, hm'⟩, hparam⟩ := mem_windowItems hok hx
    rw [hparam] at hdom
    cases hdom
    unfold mixDomain
    omega
  · rintro ⟨hlo, hhi⟩
    refine ⟨_, List.mem_of_getElem? (getElem?_windowItems hok (j := s1 - 1) (m := max (m1 - 1) (4 * (n - 8))) ?_), ?_⟩
    · unfold Inside
      omega
    · show some (8 + max (m1 - 1) (4 * (n - 8)) / 4) = some n
      congr 1
      omega

theorem windowItems_mayWrite {sl : SlotId} {s : State} (hmay : ∀ m, m1 - 1 ≤ m → m < m2 → s.MayWrite sl (8 + m / 4)) :
    ∀ x, x ∈ windowItems s1 m1 m2 vs → ∀ dom, x.param.domain = some dom → s.MayWrite sl dom := by
  intro x hx dom hdom
  obtain ⟨j, m, ⟨-, -, hm, hm'⟩, hparam⟩ := mem_windowItems hok hx
  rw [hparam] at hdom
  cases hdom
  exact hmay m hm hm'

theorem State.doMatrix_of_ok {sl : SlotId} {echo : Nat} (hecho : echo ≤ 1) (s : State) :
    s.doMatrix sl s1 s2 m1 m2 echo (vs.map BitVec.toInt) = s.writeAll sl (windowItems s1 m1 m2 vs) echo := by
  obtain ⟨hs1, hss, hs2⟩ := hok.source
  obtain ⟨hm1, hmm, hm2⟩ := hok.mix
  have hcount := hok.count
  have hsize := hok.size
  rw [State.doMatrix, if_neg (Nat.not_lt.mpr hecho), if_neg, matrixItems_eq]
  · rfl
  · rw [List.length_map]
    omega

omit hok in
theorem State.doMatrix_of_bad {sl : SlotId} {echo : Nat}
    (hbad : s1 < 1 ∨ 66 < s2 ∨ m1 < 1 ∨ 24 < m2 ∨ s2 < s1 ∨ m2 < m1 ∨ 64 < (s2 - s1 + 1) * (m2 - m1 + 1) ∨
      vs.length ≠ (s2 - s1 + 1) * (m2 - m1 + 1)) (s : State) :
    s.doMatrix sl s1 s2 m1 m2 echo (vs.map BitVec.toInt) = Reply.refuse s .badValue := by
  rw [State.doMatrix, List.length_map, if_pos hbad, ite_self]

/-- The crosspoints of a matrix window, written by their owner (R98, R99). -/
theorem State.writeItems_windowItems {sl : SlotId} {s : State} (hshaped : s.Shaped) :
    ∃ u : State, s.writeItems sl (windowItems s1 m1 m2 vs) = (u, none) ∧ u = { s with mixes := u.mixes } ∧
      ∀ j m, j < 66 → m < 24 →
        (Inside s1 s2 m1 m2 j m → (u.mix m).xp j =
          ((s.mix m).xp j).write (targetOf (levelStored (nth vs (windowPlace s1 m1 m2 j m) 0).toInt))) ∧
        (¬Inside s1 s2 m1 m2 j m → (u.mix m).xp j = (s.mix m).xp j) := by
  obtain ⟨u, hwrite, hsame, hrows⟩ := State.writeItems_window (sl := sl) (s1 := s1) (m1 := m1) (width := m2 - m1 + 1)
    (vs := vs.map BitVec.toInt) (k := 0) (s := s) hshaped.mixes fun _ _ => hshaped.length_xps_mix ..
  refine ⟨u, hwrite, hsame, fun j m hj hm => ?_⟩
  obtain ⟨hin, hout⟩ := hrows j m hj hm
  simp only [List.length_map, Nat.zero_add] at hin hout
  constructor
  · intro h
    obtain ⟨hlt, hrow, hcol⟩ := windowPlace_spec hok h
    rw [hin _ hlt hrow.symm hcol.symm, nth_toInt hlt]
  · intro h
    exact hout fun n hn heq => h (by rw [heq.1, heq.2]; exact inside_of_place hok hn)

end

end Sys2Proof.Machine

/-!
The run form of SET-WINDOW (R179), and the window requests as the spec states them.
-/
namespace Sys2Proof.Machine

/-! ### Consecutive items -/

theorem itemsFrom_cons {first : Nat} {v : Int} {vs : List Int} {items : List Item} (h : itemsFrom first (v :: vs) = some items) :
    ∃ p rest, paramOf first = some p ∧ itemsFrom (first + 1) vs = some rest ∧
      items = { index := first, param := p, value := v } :: rest := by
  unfold itemsFrom at h
  cases hp : paramOf first with
  | none => rw [hp] at h; cases h
  | some p =>
    cases hrest : itemsFrom (first + 1) vs with
    | none => rw [hp, hrest] at h; cases h
    | some rest =>
      rw [hp, hrest] at h
      cases h
      exact ⟨p, rest, rfl, rfl, rfl⟩

/-- An item of a run stands at an index of the map that the run names, with the value given for it. -/
theorem itemsFrom_mem : ∀ {vs : List Int} {first : Nat} {items : List Item}, itemsFrom first vs = some items → ∀ x, x ∈ items →
    ∃ k, k < vs.length ∧ paramOf (first + k) = some x.param ∧ x.index = first + k ∧ x.value = nth vs k 0
  | [], _, _, h, x, hx => by cases h; cases hx
  | v :: vs, first, items, h, x, hx => by
    obtain ⟨p, rest, hp, hrest, rfl⟩ := itemsFrom_cons h
    rcases List.mem_cons.mp hx with rfl | hx
    · exact ⟨0, Nat.succ_pos _, hp, rfl, rfl⟩
    · obtain ⟨k, hk, hparam, hindex, hvalue⟩ := itemsFrom_mem hrest x hx
      rw [Nat.add_right_comm, Nat.add_assoc] at hparam hindex
      exact ⟨k + 1, Nat.succ_lt_succ hk, hparam, hindex, hvalue⟩

/-- Each index of a run has its item. -/
theorem itemsFrom_get : ∀ {vs : List Int} {first : Nat} {items : List Item}, itemsFrom first vs = some items → ∀ k p, k < vs.length →
    paramOf (first + k) = some p → { index := first + k, param := p, value := nth vs k 0 } ∈ items
  | [], _, _, _, _, _, hk, _ => absurd hk (Nat.not_lt_zero _)
  | v :: vs, first, items, h, k, p, hk, hp => by
    obtain ⟨q, rest, hq, hrest, rfl⟩ := itemsFrom_cons h
    cases k with
    | zero =>
      cases hq.symm.trans hp
      exact List.mem_cons_self
    | succ k =>
      have heq : first + 1 + k = first + (k + 1) := by omega
      have hin := itemsFrom_get hrest k p (Nat.lt_of_succ_lt_succ hk) (by rwa [heq])
      rw [heq] at hin
      exact List.mem_cons_of_mem _ hin

theorem itemsFrom_of_present : ∀ {vs : List Int} {first : Nat}, (∀ k, k < vs.length → paramOf (first + k) ≠ none) →
    ∃ items, itemsFrom first vs = some items
  | [], _, _ => ⟨[], rfl⟩
  | v :: vs, first, h => by
    obtain ⟨p, hp⟩ := Option.ne_none_iff_exists'.mp (h 0 (Nat.succ_pos _))
    obtain ⟨rest, hrest⟩ := itemsFrom_of_present (vs := vs) (first := first + 1) fun k hk => by
      rw [Nat.add_right_comm, Nat.add_assoc]
      exact h (k + 1) (Nat.succ_lt_succ hk)
    exact ⟨_, by rw [itemsFrom, show paramOf first = some p from hp, hrest]⟩

theorem itemsFrom_length : ∀ {vs : List Int} {first : Nat} {items : List Item}, itemsFrom first vs = some items →
    items.length = vs.length
  | [], _, _, h => by cases h; rfl
  | v :: vs, first, items, h => by
    obtain ⟨p, rest, -, hrest, rfl⟩ := itemsFrom_cons h
    rw [List.length_cons, List.length_cons, itemsFrom_length hrest]

/-! ### The run form -/

section
variable {sl : SlotId} {first echo : Nat} {vs : List Int} {items : List Item} {s : State}

theorem State.doRun_of_bad_count (h : vs.length < 1 ∨ 64 < vs.length) : s.doRun sl first echo vs = Reply.refuse s .badValue := by
  rw [State.doRun, if_pos h, ite_self]

variable (hecho : echo ≤ 1) (hlo : 1 ≤ vs.length) (hhi : vs.length ≤ 64)
include hecho hlo hhi

theorem State.doRun_of_missing (hnone : itemsFrom first vs = none) : s.doRun sl first echo vs = Reply.refuse s .noSuch := by
  rw [State.doRun, if_neg (Nat.not_lt.mpr hecho), if_neg (by omega), hnone]

variable (hitems : itemsFrom first vs = some items)
include hitems

theorem State.doRun_of_barred (hbarred : ∃ x, x ∈ items ∧ writeBarred sl x.param = true) :
    s.doRun sl first echo vs = Reply.refuse s .notPermitted := by
  rw [State.doRun, if_neg (Nat.not_lt.mpr hecho), if_neg (by omega), hitems]
  exact if_pos (List.any_eq_true.mpr hbarred)

variable (hallowed : ∀ x, x ∈ items → writeBarred sl x.param = false)
include hallowed

theorem State.doRun_of_bad_value (hbad : ∃ x, x ∈ items ∧ x.param.valueOk x.value = false) :
    s.doRun sl first echo vs = Reply.refuse s .badValue := by
  rw [State.doRun, if_neg (Nat.not_lt.mpr hecho), if_neg (by omega), hitems]
  dsimp only
  rw [if_neg, if_pos]
  · obtain ⟨x, hx, hv⟩ := hbad
    exact List.any_eq_true.mpr ⟨x, hx, by rw [hv]; rfl⟩
  · rw [Bool.not_eq_true, List.any_eq_false]
    exact fun x hx => by rw [hallowed x hx]; exact Bool.false_ne_true

theorem State.doRun_of_good (hvalues : ∀ x, x ∈ items → x.param.valueOk x.value = true) :
    s.doRun sl first echo vs = s.writeAll sl items echo := by
  rw [State.doRun, if_neg (Nat.not_lt.mpr hecho), if_neg (by omega), hitems]
  dsimp only
  rw [if_neg, if_neg]
  · rw [Bool.not_eq_true, List.any_eq_false]
    exact fun x hx => by rw [hvalues x hx]; exact Bool.false_ne_true
  · rw [Bool.not_eq_true, List.any_eq_false]
    exact fun x hx => by rw [hallowed x hx]; exact Bool.false_ne_true

end

end Sys2Proof.Machine

/-!
The writes of a window and the staging of writes, as the spec states them (R99, R154, R155, R164, R179).
-/
namespace Sys2Proof.Machine

/-! ### A matrix window -/

section
variable {sl : SlotId} {tag s1 s2 m1 m2 e : Byte} {vs : List Word} {s : State} (h : s.Accepts sl) (hecho : e.toNat ≤ 1)
  (hok : WindowOk s1.toNat s2.toNat m1.toNat m2.toNat vs.length)
include h hecho hok

theorem exec_windowMatrix_of_ok : exec (.setWindowMatrix sl tag s1 s2 m1 m2 e vs) s =
    .next ((s.writeAll sl (windowItems s1.toNat m1.toNat m2.toNat vs) e.toNat).place sl tag 0x12#8) := by
  rw [exec_windowMatrix_of_accepts h, State.doMatrix_of_ok hok hecho]

theorem exec_windowMatrix_written (hunstaged : s.Unstaged sl) (hshaped : s.Shaped) (hactive : s.slotState sl = .active)
    (hmay : ∀ m, m1.toNat - 1 ≤ m → m < m2.toNat → s.MayWrite sl (8 + m / 4)) :
    ∃ u : State, exec (.setWindowMatrix sl tag s1 s2 m1 m2 e vs) s =
        .next (u.answer sl tag 0x12#8 (if vs.any (fun v => decide (20 < v.toInt)) then .clamped else .done)
          (if e = 1#8 then .values ((windowItems s1.toNat m1.toNat m2.toNat vs).map fun x => u.readParam sl x.param) else .none)) ∧
      u = { s with mixes := u.mixes } ∧
      ∀ j m, j < 66 → m < 24 →
        (Inside s1.toNat s2.toNat m1.toNat m2.toNat j m → (u.mix m).xp j =
          ((s.mix m).xp j).write (targetOf (levelStored (nth vs (windowPlace s1.toNat m1.toNat m2.toNat j m) 0).toInt))) ∧
        (¬Inside s1.toNat s2.toNat m1.toNat m2.toNat j m → (u.mix m).xp j = (s.mix m).xp j) := by
  obtain ⟨u, hwrite, hsame, hrows⟩ := State.writeItems_windowItems (sl := sl) hok hshaped
  refine ⟨u, ?_, hsame, hrows⟩
  rw [exec_windowMatrix_of_ok h hecho hok, State.writeAll_of_written hactive
    (State.checkDomains_of_items (windowItems_mayWrite hok hmay)) hunstaged hwrite, windowItems_clamp, echoData_byte]
  rfl

end

section
variable {sl : SlotId} {tag e : Byte} {vs : List Word} {s : State} (h : s.Accepts sl) (hecho : e.toNat ≤ 1)
  {first : Word} {items : List Item}
include h

theorem exec_windowRun_of_good (hlo : 1 ≤ vs.length) (hhi : vs.length ≤ 64)
    (hitems : itemsFrom first.toNat (vs.map BitVec.toInt) = some items) (hallowed : ∀ x, x ∈ items → writeBarred sl x.param = false)
    (hvalues : ∀ x, x ∈ items → x.param.valueOk x.value = true) (hecho : e.toNat ≤ 1) :
    exec (.setWindowRun sl tag first e vs) s = .next ((s.writeAll sl items e.toNat).place sl tag 0x12#8) := by
  rw [exec_windowRun_of_accepts h, State.doRun_of_good hecho (by rwa [List.length_map]) (by rwa [List.length_map]) hitems hallowed hvalues]

end

/-- Settles O52: the window's crosspoints one after another, and each refusal by the first check that fails. -/
theorem windowWrites : Obligations.WindowWrites := by
  intro sl tag s1 s2 m1 m2 e vs s h hunstaged hecho hshaped
  refine ⟨fun hs1 hss hs2 hm1 hmm hm2 hsize hcount => ?_, fun hbad => ?_, fun first items hlo hhi hitems hallowed hvalues => ?_,
    fun first hbad => ?_, fun first hlo hhi => ?_⟩
  · have hok : WindowOk s1.toNat s2.toNat m1.toNat m2.toNat vs.length := ⟨⟨hs1, hss, hs2⟩, ⟨hm1, hmm, hm2⟩, hsize, hcount⟩
    refine ⟨fun hmay => ?_, fun hsilent => ?_, fun dom o hlo hhi hactive howner hne hlower => ?_⟩
    · have hactive := (hmay (m1.toNat - 1) le_rfl (by omega)).1
      obtain ⟨u, hexec, hsame, hrows⟩ := exec_windowMatrix_written (tag := tag) h hecho hok hunstaged hshaped hactive hmay
      refine ⟨u, _, hexec, hsame, fun he => by subst he; rfl, fun he => ⟨_, by subst he; rfl, ?_, fun j m hj hj' hm hm' => ?_⟩,
        fun j m hj hm => ?_⟩
      · rw [List.length_map, length_windowItems]
      · have hget := getElem?_windowItems hok (j := j) (m := m) ⟨hj, hj', hm, hm'⟩
        refine (nth_of_getElem? (by rw [List.getElem?_map]; exact congrArg _ hget) 0).trans ?_
        exact targetValue_eq_match _
      · obtain ⟨hin, hout⟩ := hrows j m hj hm
        split
        · next hcase => exact hin hcase
        · next hcase => exact hout hcase
    · rw [exec_windowMatrix_of_ok h hecho hok, State.writeAll_of_not_active (by rw [hsilent]; decide)]
      rfl
    · have hdom := windowItems_domain (vs := vs) hok
      obtain ⟨u, hwrite, hsame, hmarks⟩ := State.writeAll_of_foreign (echo := e.toNat) hactive hshaped.domains (by omega)
        ((hdom dom).mpr ⟨hlo, hhi⟩) howner hne fun x low hx hlow hlt => hlower low ((hdom low).mp ⟨x, hx, hlow⟩).1 hlt
      refine ⟨u, ?_, hsame, fun n hn => ?_⟩
      · rw [exec_windowMatrix_of_ok h hecho hok, hwrite]
        rfl
      · obtain ⟨hmark, hstand⟩ := hmarks n hn
        rw [hdom n] at hmark hstand
        split
        · next hcase => exact hmark ⟨hcase.1, hcase.2.1⟩ hcase.2.2
        · next hcase => exact hstand fun hcon => hcase ⟨hcon.1.1, hcon.1.2, hcon.2⟩
  · rw [exec_windowMatrix_of_accepts h, State.doMatrix_of_bad hbad]
    rfl
  · have hexec := exec_windowRun_of_good (tag := tag) h hlo hhi hitems hallowed hvalues hecho
    refine ⟨fun hsilent => ?_, fun hactive hmay => ?_, fun dom o hactive hitem howner hne hlower => ?_⟩
    · rw [hexec, State.writeAll_of_not_active (by rw [hsilent]; decide)]
      rfl
    · have hcheck := State.checkDomains_of_items hmay
      refine ⟨fun hw => ?_, fun r hw => ?_⟩
      · rw [hexec, State.writeAll_of_written hactive hcheck hunstaged (Prod.ext rfl hw), echoData_byte]
        rfl
      · rw [hexec, State.writeAll_of_write_refused hactive hcheck hunstaged (Prod.ext rfl hw)]
        rfl
    · have hdom : dom < 16 := by
        obtain ⟨x, hx, hxdom⟩ := hitem
        obtain ⟨k, -, hp, -⟩ := itemsFrom_mem hitems x hx
        exact Param.domain_lt hp hxdom
      obtain ⟨u, hwrite, hsame, hmarks⟩ := State.writeAll_of_foreign (echo := e.toNat) hactive hshaped.domains hdom hitem howner hne hlower
      refine ⟨u, ?_, hsame, fun n hn => ?_⟩
      · rw [hexec, hwrite]
        rfl
      · obtain ⟨hmark, hstand⟩ := hmarks n hn
        have hany : items.any (fun x => decide (x.param.domain = some n)) = true ↔ ∃ x, x ∈ items ∧ x.param.domain = some n := by
          simp only [List.any_eq_true, decide_eq_true_eq]
        split
        · next hcase => exact hmark (hany.mp hcase.1) hcase.2
        · next hcase => exact hstand fun hcon => hcase ⟨hany.mpr hcon.1, hcon.2⟩
  · rw [exec_windowRun_of_accepts h, State.doRun_of_bad_count (by rwa [List.length_map])]
    rfl
  · intro there allowed
    have hlen : (vs.map BitVec.toInt).length = vs.length := List.length_map _
    refine ⟨fun hmissing => ?_, fun hthere hbarred => ?_, fun hthere hallowed hbad => ?_⟩
    · obtain ⟨k, hk, hnone⟩ : ∃ k, k < vs.length ∧ paramOf (first.toNat + k) = none := by
        by_contra hcon
        exact hmissing fun k hk hnone => hcon ⟨k, hk, hnone⟩
      rw [exec_windowRun_of_accepts h, State.doRun_of_missing hecho (by omega) (by omega)
        (itemsFrom_of_missing (k := k) (by omega) hnone)]
      rfl
    · obtain ⟨items, hitems⟩ := itemsFrom_of_present (vs := vs.map BitVec.toInt) (first := first.toNat) fun k hk => hthere k (by omega)
      have hex : ∃ x, x ∈ items ∧ writeBarred sl x.param = true := by
        by_contra hcon
        refine hbarred fun k p hk hp => ?_
        rw [← Bool.not_eq_true]
        exact fun hb => hcon ⟨_, itemsFrom_get hitems k p (by omega) hp, hb⟩
      rw [exec_windowRun_of_accepts h, State.doRun_of_barred hecho (by omega) (by omega) hitems hex]
      rfl
    · obtain ⟨items, hitems⟩ := itemsFrom_of_present (vs := vs.map BitVec.toInt) (first := first.toNat) fun k hk => hthere k (by omega)
      obtain ⟨k, p, hk, hp, hv⟩ := hbad
      rw [exec_windowRun_of_accepts h, State.doRun_of_bad_value hecho (by omega) (by omega) hitems]
      · rfl
      · intro x hx
        obtain ⟨n, hn, hparam, -⟩ := itemsFrom_mem hitems x hx
        exact hallowed n _ (by omega) hparam
      · exact ⟨_, itemsFrom_get hitems k p (by omega) hp, by rw [nth_toInt hk]; exact hv⟩

/-! ### Staged writes -/

/-- A value the map brings into range is not the value asked for, but for off (R50, R88, R89, R133). -/
theorem clamps_iff (p : Param) (v : Int) : p.clamps v = true ↔ ¬(p.stored v = v ∨ p.stored v = -181 ∧ v < -181) := by
  cases p with
  | gain _ | ceiling _ =>
    simp only [Param.clamps, Param.stored, within, Bool.not_eq_true', Bool.and_eq_false_iff, decide_eq_false_iff_not]
    generalize hw : clampTo _ _ v = w
    unfold clampTo at hw
    omega
  | crosspoint _ _ | master _ | outLevel _ =>
    simp only [Param.clamps, Param.stored, decide_eq_true_eq]
    generalize hw : levelStored v = w
    unfold levelStored at hw
    omega
  | _ => simp [Param.clamps, Param.stored]

section
variable {sl : SlotId} {s : State} {items : List Item} {echo : Nat} {tag : Byte} (hactive : s.slotState sl = .active)
  (hmay : ∀ x, x ∈ items → ∀ dom, x.param.domain = some dom → s.MayWrite sl dom) (hopen : (s.batch sl).state = .opened)
include hactive hmay hopen

theorem State.writeAll_of_no_room (hfull : ¬(s.batch sl).staged.length + items.length ≤ 256) :
    s.writeAll sl items echo = Reply.refuse s .full :=
  State.writeAll_of_full hactive (State.checkDomains_of_items hmay) (decide_eq_true hopen) (decide_eq_false hfull)

theorem State.writeAll_of_room (hroom : (s.batch sl).staged.length + items.length ≤ 256) :
    s.writeAll sl items echo =
      { state := s.stage sl (items.map Item.staged),
        result := if items.any (fun x => x.param.clamps x.value) then .clamped else .queued,
        data := echoData echo (items.map Item.stored) } :=
  State.writeAll_of_staged hactive (State.checkDomains_of_items hmay) (decide_eq_true hopen) (decide_eq_true hroom)

end

/-- Settles O51: with a batch OPEN the same checks end in the staging list. -/
theorem writesAreStaged : Obligations.WritesAreStaged := by
  refine ⟨fun c sl tag echo index v p s hc h _ hecho hp hbarred hv hactive hmay hopen => ⟨fun hroom => ?_, fun hfull => ?_⟩,
    fun sl tag e vs s h _ hecho hactive hopen => ?_⟩
  · rw [exec_set_of_staged hc h hecho hp hbarred hv hactive hmay hopen hroom]
    have hcode : (if p.clamps v = true then Result.clamped else Result.queued) =
        if p.stored v = v ∨ p.stored v = -181 ∧ v < -181 then .queued else .clamped := by
      simp only [clamps_iff, ite_not]
    rw [hcode]
    rfl
  · exact exec_set_of_full hc h hecho hp hbarred hv hactive hmay hopen hfull
  · intro fits staged echo
    refine ⟨fun s1 s2 m1 m2 hs1 hss hs2 hm1 hmm hm2 hsize hcount hmay => ?_, fun first items hlo hhi hitems hallowed hvalues hmay => ?_⟩
    · have hok : WindowOk s1.toNat s2.toNat m1.toNat m2.toNat vs.length := ⟨⟨hs1, hss, hs2⟩, ⟨hm1, hmm, hm2⟩, hsize, hcount⟩
      have hrights := windowItems_mayWrite hok hmay
      have hlen : (windowItems s1.toNat m1.toNat m2.toNat vs).length = vs.length := length_windowItems
      refine ⟨fun hfull => ?_, fun hroom => ⟨(windowItems s1.toNat m1.toNat m2.toNat vs).map Item.staged, ?_, ?_, ?_⟩⟩
      · rw [exec_windowMatrix_of_ok h hecho hok, State.writeAll_of_no_room hactive hrights hopen (by rwa [hlen])]
        rfl
      · rw [List.length_map, hlen]
      · intro j m hj hj' hm hm' k
        rw [List.getElem?_map]
        exact congrArg (Option.map Item.staged) (getElem?_windowItems hok ⟨hj, hj', hm, hm'⟩)
      · rw [exec_windowMatrix_of_ok h hecho hok, State.writeAll_of_room hactive hrights hopen (by rwa [hlen]), windowItems_clamp,
          echoData_byte]
        simp only [echo, List.map_map]
        rfl
    · have hexec := exec_windowRun_of_good (tag := tag) h hlo hhi hitems hallowed hvalues hecho
      have hlen : items.length = vs.length := by rw [itemsFrom_length hitems, List.length_map]
      refine ⟨fun hfull => ?_, fun hroom => ?_⟩
      · rw [hexec, State.writeAll_of_no_room hactive hmay hopen (by rwa [hlen])]
        rfl
      · rw [hexec, State.writeAll_of_room hactive hmay hopen (by rwa [hlen]), echoData_byte]
        simp only [echo, List.map_map]
        rfl

end Sys2Proof.Machine

/-!
The step commands of the ramps (R75, R91, R95) and the events of an output's selection (R127 to R131).
-/
namespace Sys2Proof.Machine

/-! ### One cell, one level, one mix -/

theorem PerColumn.set_get {α : Type} (t : PerColumn α) (c : Fin 4) : t.set c (t.get c) = t := by
  match c with
  | 0 | 1 | 2 | 3 => rfl

theorem State.modCell_of_fixed {s : State} {i : Nat} {c : Fin 4} {f : Cell → Cell} (h : f (s.cell i c) = s.cell i c) :
    s.modCell i c (fun _ => f) = s := by
  refine congrArg (fun l => { s with comp := l }) (modNth_of_fixed InputComp.reset ?_)
  show { s.inputComp i with cells := (s.inputComp i).cells.set c (f (s.cell i c)) } = s.inputComp i
  rw [h, State.cell, PerColumn.set_get]

theorem State.modMix_of_fixed {s : State} {m : Nat} {f : Mix → Mix} (h : f (s.mix m) = s.mix m) : s.modMix m f = s :=
  congrArg (fun l => { s with mixes := l }) (modNth_of_fixed Mix.reset h)

theorem State.modMix_congr {s : State} {m : Nat} {f g : Mix → Mix} (h : f (s.mix m) = g (s.mix m)) : s.modMix m f = s.modMix m g :=
  congrArg (fun l => { s with mixes := l }) (modNth_congr Mix.reset h)

theorem State.cell_modCell_ne {s : State} {i : Nat} {c e : Fin 4} (hi : i < s.comp.length) (he : e ≠ c) (f : Int → Cell → Cell) :
    (s.modCell i c f).cell i e = s.cell i e := by
  have hread := nth_modNth_same s.comp i
    (fun ic : InputComp => { ic with cells := ic.cells.set c (f ic.stageGain (ic.cells.get c)) }) InputComp.reset hi
  show (nth (modNth _ _ _) i InputComp.reset).cells.get e = _
  rw [hread]
  exact (PerColumn.get_set ..).trans (if_neg he)

theorem State.level_modLevel {s : State} (hshaped : s.Shaped) (r q : LevelRef) (f : Level → Level) :
    (s.modLevel r f).level q = if q = r then f (s.level r) else s.level q := by
  have hmix : ∀ m : Fin 24, m.val < s.mixes.length := fun m => by rw [hshaped.mixes]; exact m.isLt
  cases r with
  | crosspoint j m =>
    cases q with
    | crosspoint k n =>
      by_cases heq : LevelRef.crosspoint k n = .crosspoint j m
      · cases heq
        rw [if_pos rfl]
        exact State.mix_xp_modXp (hmix m) (by rw [hshaped.length_xps_mix]; exact j.isLt) f
      · rw [if_neg heq]
        exact State.mix_xp_modXp_ne (hmix n) (fun h => heq (by rw [Fin.ext h.1, Fin.ext h.2])) f
    | master n =>
      rw [if_neg nofun]
      by_cases hn : m.val = n.val
      · show ((s.modMix m _).mix n).master = _
        rw [← hn, State.mix_modMix_same _ _ _ (hmix m)]
        show (s.mix m).master = (s.mix n).master
        rw [hn]
      · exact congrArg Mix.master (State.mix_modMix_ne _ _ _ _ hn)
    | output o => rfl
  | master m =>
    cases q with
    | crosspoint k n =>
      rw [if_neg nofun]
      by_cases hn : m.val = n.val
      · show ((s.modMix m _).mix n).xp k = _
        rw [← hn, State.mix_modMix_same _ _ _ (hmix m)]
        show (s.mix m).xp k = (s.mix n).xp k
        rw [hn]
      · exact congrArg (Mix.xp · k) (State.mix_modMix_ne _ _ _ _ hn)
    | master n =>
      by_cases heq : LevelRef.master n = .master m
      · cases heq
        rw [if_pos rfl]
        exact congrArg Mix.master (State.mix_modMix_same _ _ _ (hmix m))
      · rw [if_neg heq]
        exact congrArg Mix.master (State.mix_modMix_ne _ _ _ _ fun h => heq (by rw [Fin.ext h.symm]))
    | output o => rfl
  | output o =>
    cases q with
    | crosspoint k n => rfl
    | master n => rfl
    | output p =>
      by_cases heq : LevelRef.output p = .output o
      · cases heq
        rw [if_pos rfl]
        exact congrArg Output.level (State.output_modOutput_same s o _ (by rw [hshaped.outputs]; exact o.isLt))
      · rw [if_neg heq]
        exact congrArg Output.level (State.output_modOutput_ne s o p _ fun h => heq (by rw [Fin.ext h.symm]))

theorem State.modLevel_of_fixed {s : State} {r : LevelRef} {f : Level → Level} (h : f (s.level r) = s.level r) : s.modLevel r f = s := by
  cases r with
  | crosspoint j m =>
    refine State.modMix_of_fixed ?_
    rw [Mix.modXp, modNth_of_fixed Level.reset h]
  | master m =>
    refine State.modMix_of_fixed ?_
    rw [show f (s.mix m).master = (s.mix m).master from h]
  | output o =>
    refine State.modOutput_id ?_
    rw [show f (s.output o).level = (s.output o).level from h]

theorem State.modLevel_same (s : State) (r : LevelRef) (f : Level → Level) :
    s.modLevel r f = { s with mixes := (s.modLevel r f).mixes, outputs := (s.modLevel r f).outputs } := by
  cases r <;> rfl

/-! ### The early steps -/

section
variable {c : Cell}

theorem Cell.stepEarly_of_due (hramp : c.current ≠ c.target) (hcount : c.count = 7) (hundo : c.undo = none) :
    c.stepEarly = { c with
      current := if c.current < c.target then c.current + 1 else c.current - 1, count := 0, undo := some c.current } := by
  have hramping : c.ramping = true := decide_eq_true hramp
  have hdue : c.stepDue = true := by simp [Cell.stepDue, hramping, hcount]
  have hmove : toward c.target c.current = if c.current < c.target then c.current + 1 else c.current - 1 := by
    unfold toward
    split
    · rfl
    · rw [if_pos (by omega)]
  rw [Cell.stepEarly, if_pos ⟨hdue, hundo⟩, Cell.ramp, if_pos hramping, if_neg (by omega), hmove]

theorem Cell.stepEarly_of_not_due (h : c.current = c.target ∨ c.count < 7 ∨ c.undo ≠ none) : c.stepEarly = c := by
  refine if_neg fun hcon => ?_
  obtain ⟨hdue, hundo⟩ := hcon
  simp only [Cell.stepDue, Cell.ramping, Bool.and_eq_true, decide_eq_true_eq] at hdue
  rcases h with h | h | h
  · exact hdue.1 h
  · omega
  · exact h hundo

end

section
variable {l : Level}

theorem Level.stepEarly_of_due (hon : l.on = true) (hramp : l.current ≠ l.rampEnd) (hcount : l.count = 7) (hundo : l.undo = none) :
    l.stepEarly = { l.move with undo := some l.current } := by
  have hramping : l.ramping = true := by simp [Level.ramping, hon, hramp]
  rw [Level.stepEarly, if_pos ⟨hramping, by omega, hundo⟩, Level.ramp, if_pos hramping, if_neg (by omega)]

theorem Level.stepEarly_of_not_due
    (h : l.on = false ∨ l.current = l.target.getD (-180) ∨ l.count < 7 ∨ l.undo ≠ none) : l.stepEarly = l := by
  refine if_neg fun hcon => ?_
  obtain ⟨hramping, hcount, hundo⟩ := hcon
  obtain ⟨hon, hramp⟩ := Bool.and_eq_true_iff.mp hramping
  rcases h with h | h | h | h
  · rw [hon] at h
    cases h
  · exact of_decide_eq_true hramp h
  · omega
  · exact h hundo

/-- A step toward a target that is a level (R91). -/
theorem Level.move_of_target {goal : Int} (htarget : l.target = some goal) (hramp : l.current ≠ goal) :
    l.move = { l with current := if l.current < goal then l.current + 1 else l.current - 1, count := 0 } := by
  have hcur : toward l.rampEnd l.current = if l.current < goal then l.current + 1 else l.current - 1 := by
    unfold toward Level.rampEnd
    rw [htarget, Option.getD_some]
    split
    · rfl
    · rw [if_pos (by omega)]
  unfold Level.move
  simp only [hcur, htarget, reduceCtorEq, false_and, if_false]

/-- A step toward off: at −180 the level turns OFF (R91). -/
theorem Level.move_of_off (htarget : l.target = none) (hon : l.on = true) (hramp : -180 < l.current) (hundo : l.undo = none) :
    l.move = { l with on := decide (l.current ≠ -179), current := l.current - 1, count := 0 } := by
  have hcur : toward l.rampEnd l.current = l.current - 1 := by
    unfold toward Level.rampEnd
    rw [htarget, Option.getD_none, if_neg (by omega), if_pos hramp]
  obtain ⟨on, target, current, count, undo⟩ := l
  subst hon htarget hundo
  unfold Level.move
  simp only [hcur, true_and]
  by_cases hlast : current = -179
  · subst hlast
    rfl
  · rw [if_neg (by omega), decide_eq_true hlast]

end

section
variable {m : Mix} {talk1 talk2 : Bool}

theorem Mix.releaseEarly_of_due (hgoal : m.rampAll.wantedDuck talk1 talk2 < m.duck) (hrelease : m.release = 31)
    (hundo : m.duckUndo = none) :
    m.releaseEarly talk1 talk2 =
      { m with duckTarget := m.rampAll.wantedDuck talk1 talk2, duck := m.duck - 1, release := 0, duckUndo := some m.duck } := by
  have hdue : (m.aimDuck talk1 talk2).releaseDue = true := by simp [Mix.releaseDue, Mix.aimDuck, hgoal, hrelease]
  have hmove : (m.aimDuck talk1 talk2).moveDuck = { m.aimDuck talk1 talk2 with duck := m.duck - 1, release := 0 } := by
    have hlast : ¬(m.aimDuck talk1 talk2).release + 1 < 32 := by
      rw [show (m.aimDuck talk1 talk2).release = 31 from hrelease]
      decide
    have hup : ¬(m.aimDuck talk1 talk2).duck < (m.aimDuck talk1 talk2).duckTarget := not_lt.mpr hgoal.le
    have hdown : (m.aimDuck talk1 talk2).duckTarget < (m.aimDuck talk1 talk2).duck := hgoal
    rw [Mix.moveDuck, if_neg hup, if_pos hdown, if_neg hlast]
    rfl
  rw [Mix.releaseEarly, if_pos ⟨hdue, hundo⟩, hmove]
  rfl

theorem Mix.releaseEarly_of_not_due
    (h : m.duck ≤ m.rampAll.wantedDuck talk1 talk2 ∨ m.release < 31 ∨ m.duckUndo ≠ none) : m.releaseEarly talk1 talk2 = m := by
  refine if_neg fun hcon => ?_
  obtain ⟨hdue, hundo⟩ := hcon
  obtain ⟨hlt, hcount⟩ := Bool.and_eq_true_iff.mp hdue
  rcases h with h | h | h
  · exact not_lt.mpr h (of_decide_eq_true hlt)
  · have h32 : 32 ≤ m.release + 1 := of_decide_eq_true hcount
    omega
  · exact h hundo

end

/-- Settles O39: each command takes the step that falls in the frame, and nothing otherwise. -/
theorem rampStepCommands : Obligations.RampStepCommands := by
  intro s hpower hshaped
  refine ⟨fun i c => ?_, fun r => ?_, fun m => ?_⟩
  · have hexec : exec (.trimRampStep i c) s = .next (s.modCell i c fun _ => Cell.stepEarly) := exec_of_powered rfl hpower
    have hi : i.val < s.comp.length := by rw [hshaped.comp]; exact i.isLt
    refine ⟨fun hramp hcount hundo => ⟨_, hexec, rfl, ?_, fun e he => State.cell_modCell_ne hi he _, fun j _ hj => ?_⟩, fun h => ?_⟩
    · rw [State.cell_modCell_same hi, Cell.stepEarly_of_due hramp hcount hundo]
    · exact nth_modNth_ne _ _ _ _ _ hj.symm
    · rw [hexec, State.modCell_of_fixed (Cell.stepEarly_of_not_due h)]
  · have hexec : exec (.levelRampStep r) s = .next (s.modLevel r Level.stepEarly) := exec_of_powered rfl hpower
    have hlevel := fun q => State.level_modLevel hshaped r q Level.stepEarly
    have hother : ∀ q, q ≠ r → (s.modLevel r Level.stepEarly).level q = s.level q := fun q hq => (hlevel q).trans (if_neg hq)
    refine ⟨fun goal htarget hon hramp hcount hundo => ⟨_, hexec, State.modLevel_same .., ?_, hother⟩,
      fun htarget hon hramp hcount hundo => ⟨_, hexec, State.modLevel_same .., ?_, hother⟩, fun h => ?_⟩
    · rw [hlevel, if_pos rfl, Level.stepEarly_of_due hon (by rw [Level.rampEnd, htarget]; exact hramp) hcount hundo,
        Level.move_of_target htarget hramp]
    · rw [hlevel, if_pos rfl, Level.stepEarly_of_due hon (by rw [Level.rampEnd, htarget]; exact hramp.ne') hcount hundo,
        Level.move_of_off htarget hon hramp hundo]
    · rw [hexec, State.modLevel_of_fixed (Level.stepEarly_of_not_due h)]
  · intro goal
    have hexec : exec (.duckReleaseStep m) s = .next (s.modMix m (Mix.releaseEarly (s.hasTalker .tb1) (s.hasTalker .tb2))) :=
      exec_of_powered rfl hpower
    refine ⟨fun hgoal hrelease hundo => ?_, fun h => ?_⟩
    · rw [hexec]
      exact congrArg _ (State.modMix_congr (Mix.releaseEarly_of_due hgoal hrelease hundo))
    · rw [hexec, State.modMix_of_fixed (Mix.releaseEarly_of_not_due h)]

/-! ### The events of an output's selection -/

theorem Output.sharesArrived_iff {r : Output} :
    r.sharesArrived = true ↔ r.primaryShare = r.selection.targets.1 ∧ r.fallbackShare = r.selection.targets.2 :=
  Bool.and_eq_true_iff.trans (and_congr decide_eq_true_iff decide_eq_true_iff)

theorem Output.crossfadeEnd_eq (r : Output) : r.crossfadeEnd =
    if r.selection = .toFallback ∧ r.primaryShare = 0 ∧ r.fallbackShare = 240 then { r with selection := .fallback }
    else if r.selection = .toPrimary ∧ r.primaryShare = 240 ∧ r.fallbackShare = 0 then { r with selection := .primary }
    else r := by
  simp only [Output.crossfadeEnd, Output.sharesArrived_iff]
  cases h : r.selection with
  | primary | fallback | noneAvailable => exact (ite_self _).trans (by simp)
  | toFallback | toPrimary => simp [Selection.targets]; exact if_congr Iff.rfl rfl rfl

/-- Settles O40: each event by the selection state it finds. -/
theorem outputSelectionEvents : Obligations.OutputSelectionEvents := by
  refine ⟨fun o s hpower => ⟨?_, ?_⟩, fun r => ⟨?_, ?_, ?_, ?_, ?_, ?_, ?_, ?_, ?_, ?_⟩⟩
  · rw [exec_of_powered rfl hpower]
    exact congrArg _ (State.modOutput_congr (Output.crossfadeEnd_eq _))
  · rw [exec_of_powered rfl hpower]
    rfl
  · rintro f (h | h) <;> simp only [Output.primaryLost, h]
  · rintro f (h | h) <;> simp only [Output.primaryLost, h]
  · intro f h
    simp only [Output.primaryLost, h]
  · rintro ms (h | h) <;> simp only [Output.primaryRegained, h]
  · intro ms h
    simp only [Output.primaryRegained, h]
  · rintro ms (h | h) <;> simp only [Output.primaryRegained, h]
  · rintro (h | h) <;> cases hhold : r.hold <;> simp [Output.fallbackLost, h, hhold]
  · intro h1 h2
    cases h : r.selection <;> simp_all [Output.fallbackLost]
  · intro h
    simp only [Output.fallbackRegained, h]
  · intro h1
    cases h : r.selection <;> simp_all [Output.fallbackRegained]

end Sys2Proof.Machine

/-!
The channel timers (R57 to R59) and the setting exchanges (R47, R53, R54).
-/
namespace Sys2Proof.Machine

/-! ### Changes of one channel -/

section
variable {i : Fin 64} {s : State} {f g : Channel → Channel}

theorem State.modChannel_congr (h : f (s.channel i) = g (s.channel i)) : s.modChannel i f = s.modChannel i g :=
  congrArg (fun l => { s with channels := l }) (modNth_congr Channel.reset h)

theorem State.modChannel_modChannel : (s.modChannel i f).modChannel i g = s.modChannel i (g ∘ f) :=
  congrArg (fun l => { s with channels := l }) (modNth_modNth ..)

variable (hi : i.val < s.channels.length)
include hi

theorem State.queueIfDiffers_modChannel :
    (s.modChannel i f).queueIfDiffers i =
      if (f (s.channel i)).op = .idle ∧ (f (s.channel i)).desired ≠ (f (s.channel i)).applied then
        { s.modChannel i (fun c => { f c with op := .queued }) with cardQueue := s.cardQueue ++ [i] }
      else s.modChannel i f := by
  unfold State.queueIfDiffers State.queueChannel
  rw [State.channel_modChannel_same s i f hi, State.modChannel_modChannel]
  rfl

theorem State.queueIfReady_modChannel :
    (s.modChannel i f).queueIfReady i =
      if (f (s.channel i)).link = .ready ∧ (f (s.channel i)).op = .idle ∧
          (f (s.channel i)).desired ≠ (f (s.channel i)).applied then
        { s.modChannel i (fun c => { f c with op := .queued }) with cardQueue := s.cardQueue ++ [i] }
      else s.modChannel i f := by
  rw [State.queueIfReady, State.channel_modChannel_same s i f hi, State.queueIfDiffers_modChannel hi]
  by_cases hlink : (f (s.channel i)).link = .ready
  · simp only [hlink, if_true, true_and]
  · simp only [hlink, if_false, false_and]

/-- An operation that ends while a hold is owed (R56). -/
theorem State.endOperation_of_owed (howed : (f (s.channel i)).holdOwed = true) :
    (s.modChannel i f).endOperation i =
      s.modChannel i fun c => { f c with op := .settling, holdOwed := false, holdTimer := some 0, gateOpen := false } := by
  rw [State.endOperation, State.channel_modChannel_same s i f hi, if_pos howed, State.modChannel_modChannel]
  rfl

/-- An operation that ends without a hold, on a channel that is not READY (R56, R58). -/
theorem State.endOperation_of_not_ready (howed : (f (s.channel i)).holdOwed = false) (hlink : (f (s.channel i)).link ≠ .ready) :
    (s.modChannel i f).endOperation i = s.modChannel i fun c => { f c with op := .idle, gateOpen := true } := by
  rw [State.endOperation, State.channel_modChannel_same s i f hi, howed, if_neg Bool.false_ne_true, State.modChannel_modChannel,
    State.queueIfReady_modChannel hi]
  exact if_neg fun h => hlink h.1

end

theorem reached_iff {t : Option Nat} {n : Nat} : reached t n = true ↔ ∃ k, t = some k ∧ n ≤ k := by
  cases t with
  | none => simp [reached]
  | some k => simp [reached]

theorem not_reached {t : Option Nat} {n : Nat} (h : ∀ k, t = some k → k < n) : ¬reached t n = true := by
  rw [reached_iff]
  rintro ⟨k, hk, hle⟩
  exact Nat.not_lt.mpr hle (h k hk)

/-- Settles O35: each timer by its length, and the end of the operation by what is owed. -/
theorem channelTimers : Obligations.ChannelTimers := by
  intro i s hpower hshaped
  have hi : i.val < s.channels.length := by rw [hshaped.channels]; exact i.isLt
  have hmarker : exec (.markerTimeout i) s = .next (s.markerTimeout i) := exec_of_powered rfl hpower
  have hhold : exec (.holdEnd i) s = .next (s.holdEnd i) := exec_of_powered rfl hpower
  have hretry : exec (.retryTimerExpiry i) s = .next (s.retryExpiry i) := exec_of_powered rfl hpower
  have hdue : ∀ {t : Option Nat} {n : Nat}, t = some n → reached t n = true := fun h => reached_iff.mpr ⟨_, h, le_rfl⟩
  refine ⟨fun hop htimer howed => ?_, fun hop htimer howed => ?_, fun htimer => ?_, fun hop htimer => ?_, fun htimer => ?_,
    fun hlink htimer => ?_, fun htimer => ?_⟩
  · rw [hmarker, State.markerTimeout, if_pos ⟨hop, hdue htimer⟩, State.endOperation_of_owed hi howed]
    rfl
  · rw [hmarker, State.markerTimeout, if_pos ⟨hop, hdue htimer⟩, State.endOperation_of_not_ready hi howed (by simp)]
    rfl
  · rw [hmarker, State.markerTimeout, if_neg fun h => not_reached htimer h.2]
  · rw [hhold, State.holdEnd, if_pos ⟨hop, hdue htimer⟩, State.queueIfReady_modChannel hi]
    simp only [true_and]
    rfl
  · rw [hhold, State.holdEnd, if_neg fun h => not_reached htimer h.2]
  · rw [hretry, State.retryExpiry, if_pos ⟨hlink, hdue htimer⟩, State.queueIfDiffers_modChannel hi]
    rfl
  · rw [hretry, State.retryExpiry, if_neg fun h => not_reached htimer h.2]

/-! ### The setting slot -/

theorem filter_ne_of_not_mem {α : Type} [DecidableEq α] {i : α} {l : List α} (h : i ∉ l) : (i :: l).filter (· ≠ i) = l := by
  rw [List.filter_cons_of_neg (by simp), List.filter_eq_self]
  intro x hx
  exact decide_eq_true fun he => h (he ▸ hx)

theorem State.settleExchange_of_none {s : State} (h : s.line.exchange = .none) : s.settleExchange = s := by
  have hsetting : s.settingNoAnswer = s := by rw [State.settingNoAnswer, h]
  rw [State.settleExchange, hsetting, State.pollUnanswered, h]

/-- The state in which a slot has been taken (R46). -/
def State.takeSlot (s : State) : State := { s with line := { s.line with slotTaken := true } }

section
variable {s : State} {i : Fin 64} {rest : List (Fin 64)}

/-- The send list's head with its gate shut is sent (R53, R54). -/
theorem State.serveSendList_of_send (hlist : s.sendList = i :: rest) (hfresh : i ∉ rest) (hgate : (s.channel i).gate = 0)
    (hdiff : (s.channel i).desired ≠ (s.channel i).applied) :
    s.serveSendList (i :: rest) = ({ s with sendList := rest }.sendCommand i, true) := by
  rw [State.serveSendList, if_neg (not_not_intro hgate), if_neg hdiff, hlist, filter_ne_of_not_mem hfresh]

theorem State.serveSendList_of_equal (hlist : s.sendList = [i]) (hgate : (s.channel i).gate = 0)
    (hsame : (s.channel i).desired = (s.channel i).applied) :
    s.serveSendList [i] =
      ({ s with sendList := [] }.modChannel i fun c => { c with gateOpen := true, op := .idle }, false) := by
  rw [State.serveSendList, if_neg (not_not_intro hgate), if_pos hsame, hlist, filter_ne_of_not_mem List.not_mem_nil]
  rfl

/-- The head of the card-line queue without a change of phantom is sent (R53, R54). -/
theorem State.serveQueue_of_send (hqueue : s.cardQueue = i :: rest) (hfresh : i ∉ rest)
    (hdiff : (s.channel i).desired ≠ (s.channel i).applied)
    (hphantom : (s.channel i).desired.phantom = (s.channel i).applied.phantom) :
    s.serveQueue (i :: rest) = { s with cardQueue := rest }.sendCommand i := by
  rw [State.serveQueue, if_neg hdiff, if_neg (not_not_intro hphantom), hqueue, filter_ne_of_not_mem hfresh]

theorem State.serveQueue_of_mute (hqueue : s.cardQueue = [i])
    (hphantom : (s.channel i).desired.phantom ≠ (s.channel i).applied.phantom) :
    s.serveQueue [i] =
      { { s with cardQueue := [] }.modChannel i (fun c => { c with op := .muting, gateOpen := false }) with
        sendList := s.sendList ++ [i] } := by
  rw [State.serveQueue, if_neg fun h => hphantom (by rw [h]), if_pos hphantom, hqueue, filter_ne_of_not_mem List.not_mem_nil]
  rfl

theorem State.serveQueue_of_equal (hqueue : s.cardQueue = [i]) (hsame : (s.channel i).desired = (s.channel i).applied) :
    s.serveQueue [i] = { s with cardQueue := [] }.modChannel i fun c => { c with op := .idle } := by
  rw [State.serveQueue, if_pos hsame, hqueue, filter_ne_of_not_mem List.not_mem_nil]
  rfl

/-- A setting slot with an empty send list goes to the queue (R53). -/
theorem State.serveSetting_of_queue {q : List (Fin 64)} (hlist : s.sendList = []) (hqueue : s.cardQueue = q) :
    s.serveSetting = s.serveQueue q := by
  rw [State.serveSetting, hlist, ← hqueue]
  rfl

theorem State.serveSetting_of_send (hlist : s.sendList = i :: rest) (hfresh : i ∉ rest) (hgate : (s.channel i).gate = 0)
    (hdiff : (s.channel i).desired ≠ (s.channel i).applied) : s.serveSetting = { s with sendList := rest }.sendCommand i := by
  rw [State.serveSetting, hlist, State.serveSendList_of_send hlist hfresh hgate hdiff, if_pos rfl]

theorem State.serveSetting_of_equal (hlist : s.sendList = [i]) (hgate : (s.channel i).gate = 0)
    (hsame : (s.channel i).desired = (s.channel i).applied) (hqueue : s.cardQueue = []) :
    s.serveSetting = { s with sendList := [] }.modChannel i fun c => { c with gateOpen := true, op := .idle } := by
  rw [State.serveSetting, hlist, State.serveSendList_of_equal hlist hgate hsame, if_neg Bool.false_ne_true]
  show State.serveQueue s.cardQueue _ = _
  rw [hqueue]
  rfl

end

/-- Settles O34: a setting slot by the head of its list or queue, and the answer that counts or fails to come. -/
theorem settingExchanges : Obligations.SettingExchanges := by
  refine ⟨fun s hpower hshaped => ?_, fun i x s hpower hshaped hex => ?_⟩
  · have hexec : exec .settingSlot s = .next s.settingSlot := exec_of_powered rfl hpower
    refine ⟨fun h => ?_, fun htaken hslot hex => ?_⟩
    · rw [hexec, State.settingSlot, if_neg]
      rintro ⟨htaken, hslot⟩
      rcases h with h | h
      · rw [h] at htaken
        cases htaken
      · exact absurd h (of_decide_eq_false hslot)
    · have htake : s.settingSlot = s.takeSlot.serveSetting := by
        rw [State.settingSlot, if_pos ⟨htaken, decide_eq_false hslot⟩, State.settleExchange_of_none hex, State.takeSlot]
      rw [hexec, htake]
      refine ⟨fun i rest hlist hfresh hgate hdiff => ?_, fun i rest hlist hcard hfresh hdiff hphantom => ?_,
        fun i hlist hcard hphantom => ?_, fun i hlist hcard hsame => ?_, fun i rest hlist hfresh hgate hsame hrest hcard => ?_,
        fun hlist hcard => ?_⟩
      · refine congrArg Host.Outcome.next ((State.serveSetting_of_send (s := s.takeSlot) hlist hfresh hgate hdiff).trans ?_)
        exact congrArg (fun l => ({ s with
          sendList := rest, line := { s.line with slotTaken := true, exchange := .setting i (s.channel i).desired },
          channels := l } : State)) (modNth_congr Channel.reset rfl)
      · refine congrArg Host.Outcome.next (((State.serveSetting_of_queue (s := s.takeSlot) hlist hcard).trans
          (State.serveQueue_of_send hcard hfresh hdiff hphantom)).trans ?_)
        refine congrArg (fun l => ({ s with
          cardQueue := rest, line := { s.line with slotTaken := true, exchange := .setting i (s.channel i).desired },
          channels := l } : State)) (modNth_congr Channel.reset ?_)
        exact congrArg (fun owed => ({ s.channel i with
          sent := some (s.channel i).desired, op := .inFlight, markerTimer := some 0, holdOwed := owed } : Channel))
          (decide_eq_false (not_not_intro hphantom))
      · refine congrArg Host.Outcome.next (((State.serveSetting_of_queue (s := s.takeSlot) hlist hcard).trans
          (State.serveQueue_of_mute hcard hphantom)).trans ?_)
        exact congrArg (fun l => ({ s with
          cardQueue := [], sendList := l, line := { s.line with slotTaken := true },
          channels := modNth s.channels i fun c => { c with op := .muting, gateOpen := false } } : State))
          (congrArg (· ++ [i]) hlist)
      · exact congrArg Host.Outcome.next ((State.serveSetting_of_queue (s := s.takeSlot) hlist hcard).trans
          (State.serveQueue_of_equal hcard hsame))
      · subst hrest
        exact congrArg Host.Outcome.next (State.serveSetting_of_equal (s := s.takeSlot) hlist hgate hsame hcard)
      · exact congrArg Host.Outcome.next (State.serveSetting_of_queue (s := s.takeSlot) hlist hcard)
  · have hinput : ∀ card channel : Fin 8, i = cardInput card channel ↔ i.val = 8 * card.val + channel.val :=
      fun card channel => Fin.ext_iff
    refine ⟨fun card channel h => ?_, fun card channel h => ?_, fun hop => ?_, fun hop => ?_, fun u hpow hu => ?_⟩
    · rw [exec_of_powered rfl hpower]
      show Host.Outcome.next (s.settingAnswer card channel) = _
      rw [State.settingAnswer, hex]
      exact congrArg _ (if_pos ((hinput card channel).mpr h))
    · rw [exec_of_powered rfl hpower]
      show Host.Outcome.next (s.settingAnswer card channel) = _
      rw [State.settingAnswer, hex]
      exact congrArg _ (if_neg fun he => h ((hinput card channel).mp he))
    · rw [exec_of_powered rfl hpower]
      show Host.Outcome.next s.settingNoAnswer = _
      rw [State.settingNoAnswer, hex]
      exact congrArg _ (if_pos hop)
    · rw [exec_of_powered rfl hpower]
      show Host.Outcome.next s.settingNoAnswer = _
      rw [State.settingNoAnswer, hex]
      exact congrArg _ (if_neg hop)
    · rw [exec_of_powered rfl hpow]
      show Host.Outcome.next u.settingNoAnswer = _
      rcases hu with hnone | ⟨c, rest, hpoll⟩
      · rw [State.settingNoAnswer, hnone]
      · rw [State.settingNoAnswer, hpoll]

end Sys2Proof.Machine

/-!
GAIN_CHANGE_MARKER (R45, R55, R56) and the new gain in the compensation stage (R72, R76).
-/
namespace Sys2Proof.Machine

/-! ### The new gain of a cell -/

theorem clampTrim_ne_iff (v : Int) : v ≠ clampTrim v ↔ v < -36 ∨ 36 < v := by
  unfold clampTrim clampTo
  omega

/-- A new gain moves the trim of an ON cell by as much as its target, clamped (R76). -/
theorem Cell.newGain_of_on {c : Cell} {e r : Int} (hon : c.on = true) (href : c.eref = some r) :
    c.newGain e = { c with
      target := clampTrim (wantedTrim r e),
      current := if c.settled.current = c.settled.target then clampTrim (wantedTrim r e)
        else clampTrim (c.settled.current + (clampTrim (wantedTrim r e) - c.settled.target)),
      count := if (if c.settled.current = c.settled.target then clampTrim (wantedTrim r e)
        else clampTrim (c.settled.current + (clampTrim (wantedTrim r e) - c.settled.target))) = clampTrim (wantedTrim r e) then 0
        else c.settled.count,
      limited := decide (wantedTrim r e < -36 ∨ 36 < wantedTrim r e), undo := none } := by
  have hfields : { c.settled with target := 0, current := 0, count := 0, limited := true } =
      { c with target := 0, current := 0, count := 0, limited := true, undo := none } := by
    unfold Cell.settled
    split
    · rfl
    · next hundo =>
      rw [← hundo]
  have hmoved : ∀ x y : Int, (if c.settled.ramping = true then x else y) = if c.settled.current = c.settled.target then y else x := by
    intro x y
    by_cases h : c.settled.current = c.settled.target
    · rw [if_pos h, show c.settled.ramping = false from decide_eq_false (not_not_intro h), if_neg Bool.false_ne_true]
    · rw [if_neg h, show c.settled.ramping = true from decide_eq_true h, if_pos rfl]
  have hlimited : decide (wantedTrim r e ≠ clampTrim (wantedTrim r e)) = decide (wantedTrim r e < -36 ∨ 36 < wantedTrim r e) :=
    decide_eq_decide.mpr (clampTrim_ne_iff _)
  unfold Cell.newGain
  rw [hon, href]
  dsimp only
  rw [hlimited]
  simp only [hmoved]
  injection hfields with hsame1 hsame2 _ _ _ _ hundo
  rw [hsame1, hsame2, hundo, hon, href]

theorem Cell.newGain_of_off {c : Cell} (hoff : c.on = false) (e : Int) : c.newGain e = c := by
  unfold Cell.newGain
  rw [hoff]

/-! ### The end of an operation with nothing owed -/

section
variable {i : Fin 64} {s : State} {f : Channel → Channel}

theorem State.endOperation_of_free (hi : i.val < s.channels.length) (howed : (f (s.channel i)).holdOwed = false) :
    (s.modChannel i f).endOperation i =
      if (f (s.channel i)).link = .ready ∧ (f (s.channel i)).desired ≠ (f (s.channel i)).applied then
        { s.modChannel i (fun c => { f c with op := .queued, gateOpen := true }) with cardQueue := s.cardQueue ++ [i] }
      else s.modChannel i fun c => { f c with op := .idle, gateOpen := true } := by
  rw [State.endOperation, State.channel_modChannel_same s i f hi, howed, if_neg Bool.false_ne_true, State.modChannel_modChannel,
    State.queueIfReady_modChannel hi]
  simp only [Function.comp_apply, true_and]
  rfl

end

/-- What a counted marker makes of its channel before its operation ends (R55, R56). -/
def Channel.marked (x : Setting) (c : Channel) : Channel :=
  { c with applied := x, sent := none, markerTimer := none, handOver := false,
           link := if c.link = .fault then .ready else c.link, retryTimer := if c.link = .fault then none else c.retryTimer }

/-- The state with a new gain handed to an input's compensation (R72). -/
def State.regained (i : Fin 64) (e : Int) (s : State) : State := s.modComp i (InputComp.newGain e)

section
variable {i : Fin 64} {x : Setting} {s : State} (hshaped : s.Shaped) (hop : (s.channel i).op = .inFlight)
  (hsent : (s.channel i).sent = some x) (hcard : (s.card (i.val / 8)).present = true)
include hshaped hop hsent hcard

theorem State.marker_of_counted :
    s.marker i = ((s.regained i x.effective).modChannel i (Channel.marked x)).endOperation i := by
  have hi : i.val < s.channels.length := by rw [hshaped.channels]; exact i.isLt
  have happlied : ((s.modChannel i (Channel.marked x)).channel i).applied = x := by
    rw [State.channel_modChannel_same s i _ hi]
    rfl
  unfold State.marker
  rw [hop, hsent]
  dsimp only
  rw [if_pos hcard]
  show (State.handGain i (s.modChannel i (Channel.marked x))).endOperation i = _
  rw [State.handGain, happlied]
  rfl

/-- A counted marker, whole: the channel, the gain it hands over, and what follows (R55, R56, R76). -/
theorem State.marker_cases :
    ((s.channel i).holdOwed = true ∧ s.marker i = (s.regained i x.effective).modChannel i fun c =>
      { c.marked x with op := .settling, holdOwed := false, holdTimer := some 0, gateOpen := false }) ∨
    ((s.channel i).holdOwed = false ∧ (((s.channel i).marked x).link = .ready ∧ (s.channel i).desired ≠ x) ∧
      s.marker i = { (s.regained i x.effective).modChannel i (fun c => { c.marked x with op := .queued, gateOpen := true }) with
        cardQueue := s.cardQueue ++ [i] }) ∨
    ((s.channel i).holdOwed = false ∧ ¬(((s.channel i).marked x).link = .ready ∧ (s.channel i).desired ≠ x) ∧
      s.marker i = (s.regained i x.effective).modChannel i fun c => { c.marked x with op := .idle, gateOpen := true }) := by
  have hi : i.val < (s.regained i x.effective).channels.length := by
    show i.val < s.channels.length
    rw [hshaped.channels]
    exact i.isLt
  rw [State.marker_of_counted hshaped hop hsent hcard]
  cases hhold : (s.channel i).holdOwed with
  | true => exact .inl ⟨rfl, State.endOperation_of_owed hi hhold⟩
  | false =>
    refine .inr ?_
    rw [State.endOperation_of_free hi hhold]
    by_cases h : ((s.channel i).marked x).link = .ready ∧ (s.channel i).desired ≠ x
    · exact .inl ⟨rfl, h, if_pos h⟩
    · exact .inr ⟨rfl, h, if_neg h⟩

theorem State.comp_marker : (s.marker i).comp = (s.regained i x.effective).comp := by
  rcases State.marker_cases hshaped hop hsent hcard with ⟨-, h⟩ | ⟨-, -, h⟩ | ⟨-, -, h⟩ <;> rw [h] <;> rfl

end

theorem InputComp.stageGain_newGain (e : Int) (ic : InputComp) : (ic.newGain e).stageGain = e := by
  unfold InputComp.newGain
  split
  · next h => exact h
  · rfl

theorem State.inputComp_regained_same {i : Fin 64} {s : State} (hshaped : s.Shaped) (e : Int) :
    (s.regained i e).inputComp i = (s.inputComp i).newGain e :=
  nth_modNth_same _ _ _ _ (by rw [hshaped.comp]; exact i.isLt)

/-- Settles O33: the marker that counts, by what is owed, and the trims of the new gain. -/
theorem markerEffect : Obligations.MarkerEffect := by
  refine ⟨fun i s hpower hshaped => ⟨fun x hop hsent hcard => ?_, fun h => ?_⟩,
    fun i col x s hpower hshaped hop hsent hcard hgain => ?_⟩
  · have hi : i.val < (s.regained i x.effective).channels.length := by
      show i.val < s.channels.length
      rw [hshaped.channels]
      exact i.isLt
    have hsame := fun f => State.channel_modChannel_same (s.regained i x.effective) i f hi
    have hstage : ((s.regained i x.effective).inputComp i).stageGain = x.gain - (if x.pad = true then 20 else 0) := by
      rw [State.inputComp_regained_same hshaped, InputComp.stageGain_newGain]
      rfl
    have hother : ∀ (f : Channel → Channel) j, j < 64 → j ≠ i.val →
        ((s.regained i x.effective).modChannel i f).channel j = s.channel j ∧
          ((s.regained i x.effective).modChannel i f).inputComp j = s.inputComp j :=
      fun f j _ hj => ⟨State.channel_modChannel_ne _ i j f hj.symm, nth_modNth_ne _ _ _ _ _ hj.symm⟩
    refine ⟨s.marker i, exec_of_powered rfl hpower, ?_⟩
    rcases State.marker_cases hshaped hop hsent hcard with ⟨howed, h⟩ | ⟨howed, hdiff, h⟩ | ⟨howed, hnot, h⟩
    · rw [h, hsame]
      refine ⟨rfl, rfl, rfl, rfl, rfl, rfl, fun h => if_pos h, fun _ => ⟨rfl, rfl, rfl, rfl⟩, fun h => ?_, hstage, hother _,
        rfl, rfl, rfl, rfl, rfl, rfl, rfl, rfl, rfl⟩
      rw [howed] at h
      cases h
    · rw [h]
      have hchan : (State.channel { (s.regained i x.effective).modChannel i
          (fun c => { c.marked x with op := .queued, gateOpen := true }) with cardQueue := s.cardQueue ++ [i] } i) = _ := hsame _
      rw [hchan]
      refine ⟨rfl, rfl, rfl, howed, rfl, rfl, fun h => if_pos h, fun h => ?_, fun _ => ⟨rfl, ?_⟩, hstage, hother _,
        rfl, rfl, rfl, rfl, rfl, rfl, rfl, rfl, rfl⟩
      · rw [howed] at h
        cases h
      · exact (if_pos hdiff).mpr ⟨rfl, rfl⟩
    · rw [h, hsame]
      refine ⟨rfl, rfl, rfl, howed, rfl, rfl, fun h => if_pos h, fun h => ?_, fun _ => ⟨rfl, ?_⟩, hstage, hother _,
        rfl, rfl, rfl, rfl, rfl, rfl, rfl, rfl, rfl⟩
      · rw [howed] at h
        cases h
      · exact (if_neg hnot).mpr ⟨rfl, rfl⟩
  · rw [exec_of_powered rfl hpower]
    refine congrArg _ ?_
    show s.marker i = s
    unfold State.marker
    split
    · next hop hsent =>
      rcases h with h | h
      · exact absurd hop h
      · rw [h, if_neg Bool.false_ne_true]
    · rfl
  · intro clamp c
    have hcell : (s.marker i).cell i col = (s.cell i col).newGain x.effective := by
      show (nth (s.marker i).comp i InputComp.reset).cells.get col = _
      rw [State.comp_marker hshaped hop hsent hcard]
      show ((s.regained i x.effective).inputComp i).cells.get col = _
      rw [State.inputComp_regained_same hshaped, InputComp.newGain, if_neg hgain]
      exact PerColumn.get_map ..
    refine ⟨_, exec_of_powered rfl hpower, fun hoff => ?_, fun r hon href => ?_⟩
    · exact hcell.trans (Cell.newGain_of_off hoff _)
    · exact hcell.trans (Cell.newGain_of_on hon href)

end Sys2Proof.Machine

/-!
Light (R2 to R4), and the store: its acceptance and the records read back (R193, R195, R196).
-/
namespace Sys2Proof.Machine

/-! ### Light -/

/-- Settles O18: the codes by their ranges, and the measurement by the state of the port. -/
theorem lightMeasurementEffect : Obligations.LightMeasurementEffect := by
  refine ⟨fun x hx => if_pos hx, fun x n hneg hn hlo hhi hx => ?_, fun x hx => ?_, rfl, fun r => decide_eq_true_iff,
    fun p reading s hpower => ?_⟩
  · rw [LightReading.code, if_neg (by omega), if_pos hx]
    omega
  · rw [LightReading.code, if_neg (by omega), if_neg (by omega)]
  · have hexec : exec (.lightMeasurement p reading) s = .next (s.lightMeasurement p reading).settleReturned := exec_of_powered rfl hpower
    refine ⟨fun hearly => ?_, fun hdue => ?_⟩
    · rw [hexec, State.lightMeasurement, if_neg (show ¬lightPeriod ≤ _ from Nat.not_le.mpr hearly)]
    · intro u
      have htaken : lightPeriod ≤ (s.port p).lightFrames := hdue
      rw [hexec, State.lightMeasurement, if_pos htaken]
      refine ⟨fun hstate hlight => ?_, fun hstate hdark => ?_, fun husable hdark => ?_, fun h => ?_⟩ <;>
        refine congrArg (fun t : State => Host.Outcome.next t.settleReturned) ?_
      · rw [hstate]
        exact if_neg hlight
      · rw [hstate]
        exact if_pos hdark
      · cases hstate : (s.port p).state with
        | dark | seeking => simp [Port.usable, hstate] at husable
        | locked | errored => exact if_pos hdark
      · rcases h with ⟨hstate, hdark⟩ | ⟨hstate, hlight⟩
        · rw [hstate]
          exact if_pos hdark
        · cases hcase : (s.port p).state with
          | dark => exact absurd hcase hstate
          | seeking | locked | errored => exact if_neg hlight

/-! ### Bits of the configuration status -/

theorem getLsbD_setBit {x : BitVec 16} {i j : Nat} (hi : i < 16) : (setBit x j).getLsbD i = (x.getLsbD i || decide (i = j)) := by
  rw [setBit, BitVec.getLsbD_or, BitVec.getLsbD_shiftLeft, BitVec.getLsbD_one]
  congr 1
  simp only [hi, decide_true, Bool.true_and, ← Bool.decide_and, ← decide_not]
  grind

theorem getLsbD_clearBit {x : BitVec 16} {i j : Nat} (hi : i < 16) : (clearBit x j).getLsbD i = (x.getLsbD i && decide (i ≠ j)) := by
  have hset := getLsbD_setBit (x := 0#16) (i := i) (j := j) hi
  rw [setBit, BitVec.zero_or, BitVec.getLsbD_zero, Bool.false_or] at hset
  rw [clearBit, BitVec.getLsbD_and, BitVec.getLsbD_not, hset, decide_eq_true hi, Bool.true_and, decide_not]

/-- Both bits of every type written are cleared (R193). -/
theorem getLsbD_clearTypes {i : Nat} (hi : i < 16) : ∀ (written : List RecordType) (x : BitVec 16),
    (written.foldl (fun x r => clearBit (clearBit x (damagedBit r)) (missingBit r)) x).getLsbD i =
      (x.getLsbD i && written.all fun r => decide (i ≠ r.code - 1 ∧ i ≠ r.code + 4))
  | [], x => by rw [List.foldl_nil, List.all_nil, Bool.and_true]
  | r :: written, x => by
    rw [List.foldl_cons, getLsbD_clearTypes hi written, getLsbD_clearBit hi, getLsbD_clearBit hi, List.all_cons, Bool.and_assoc,
      Bool.and_assoc, Bool.decide_and, Bool.and_assoc]
    rfl

/-! ### STORE -/

theorem ofCode_toNat_none {c : Byte} : (RecordType.ofCode c.toNat).isNone = true ↔ RecordType.ofCode c.toNat = none :=
  Option.isNone_iff_eq_none

theorem mem_namedTypes {codes : List Byte} {r : RecordType} :
    r ∈ namedTypes (codes.map BitVec.toNat) ↔ BitVec.ofNat 8 r.code ∈ codes := by
  have hall : r ∈ RecordType.all := by cases r <;> decide
  have hcode : (BitVec.ofNat 8 r.code).toNat = r.code := by cases r <;> rfl
  rw [namedTypes, List.mem_filter, decide_eq_true_iff, List.mem_map]
  constructor
  · rintro ⟨-, c, hc, heq⟩
    rwa [← heq, BitVec.ofNat_toNat, BitVec.setWidth_eq]
  · exact fun h => ⟨hall, _, h, hcode⟩

/-- The first record of every store (R196). -/
theorem layRecords_storeOrder (image : PerType (List Byte)) : ∃ rest, layRecords image 0 (storeOrder image) =
    { type := .startChannels, offset := 0, bytes := recordBytes .startChannels false image.startChannels } :: rest :=
  ⟨_, rfl⟩

section
variable {tag : Byte} {codes : List Byte} {s : State} (h : s.Accepts .panel) (hlo : 1 ≤ codes.length) (hhi : codes.length ≤ 8)
include h hlo hhi

theorem exec_store_of_refused {c : Result} (hstore : s.store tag (codes.map BitVec.toNat) = (s, some c)) :
    exec (.store .panel tag codes) s = .next (s.answer .panel tag 0x48#8 c .none) := by
  have hreq : (Instr.store .panel tag codes).request = some (.panel, tag, .store (codes.map BitVec.toNat)) := by
    rw [Instr.request, if_pos ⟨hlo, hhi⟩]
  rw [exec_of_request_ne hreq nofun, live_takeRequest_of_accepts h, State.answerRequest, if_neg (by rw [h.2.1]; exact Bool.noConfusion),
    if_neg (by simp), hstore]
  rfl

theorem exec_store_of_accepted {t : State} (hstore : s.store tag (codes.map BitVec.toNat) = (t, none)) :
    exec (.store .panel tag codes) s = .next t := by
  have hreq : (Instr.store .panel tag codes).request = some (.panel, tag, .store (codes.map BitVec.toNat)) := by
    rw [Instr.request, if_pos ⟨hlo, hhi⟩]
  rw [exec_of_request_ne hreq nofun, live_takeRequest_of_accepts h, State.answerRequest, if_neg (by rw [h.2.1]; exact Bool.noConfusion),
    if_neg (by simp), hstore]

end

/-- Settles O15: the codes, then a store in progress, then the acceptance. -/
theorem storeEffect : Obligations.StoreEffect := by
  intro tag codes s h hlo hhi
  have hbad : ((codes.map BitVec.toNat).any fun n => (RecordType.ofCode n).isNone) = true ↔
      ∃ c, c ∈ codes ∧ RecordType.ofCode c.toNat = none := by
    simp [List.any_map]
  have hgood : (∀ c, c ∈ codes → RecordType.ofCode c.toNat ≠ none) →
      ¬((codes.map BitVec.toNat).any fun n => (RecordType.ofCode n).isNone) = true := fun hall hany => by
    obtain ⟨c, hc, hnone⟩ := hbad.mp hany
    exact hall c hc hnone
  refine ⟨fun hex => ?_, fun hall hbusy => ?_, fun hall hfree => ?_⟩
  · exact exec_store_of_refused h hlo hhi (if_pos (hbad.mpr hex))
  · refine exec_store_of_refused h hlo hhi ((if_neg (hgood hall)).trans (if_pos ?_))
    exact Option.isSome_iff_ne_none.mpr hbusy
  · intro named image
    obtain ⟨rest, hlay⟩ := layRecords_storeOrder image
    refine ⟨rest, hlay, exec_store_of_accepted h hlo hhi ?_⟩
    have hnamed : ∀ r, (r ∈ namedTypes (codes.map BitVec.toNat)) = (named r = true) := fun r =>
      propext (mem_namedTypes.trans decide_eq_true_iff.symm)
    have himage : (s.config.image.map fun r body =>
        if r ∈ namedTypes (codes.map BitVec.toNat) then s.snapshot r else body) = image := by
      simp only [hnamed]
      rfl
    rw [State.store, if_neg (hgood hall), if_neg (by rw [hfree]; exact Bool.false_ne_true), State.acceptStore]
    dsimp only
    rw [himage, hlay]
    simp only [hnamed]
    rfl

/-! ### Records read back -/

theorem memReadBlock_take {m : List Host.Cell} {a n : Nat} {bytes : List Byte} (hm : Memory.wf m = true) (hfit : a + n ≤ 65536) :
    memReadBlock (memWriteBlock m a (bytes.take n)) a (bytes.take n).length = bytes.take n :=
  memReadBlock_memWriteBlock _ m a hm (by
    show a + (bytes.take n).length ≤ 65536
    rw [List.length_take]
    omega)

/-- A store that ends FAILED (R193, R196). -/
theorem State.storeFailed_status (job : StoreJob) (s : State) {i : Nat} (hi : i < 16) :
    (s.storeFailed job).config.status.getLsbD i =
      ((s.config.status.getLsbD i && decide (i ≠ 11)) || decide (i = 12 ∨ i = job.current.type.code - 1)) := by
  show (setBit (setBit (clearBit s.config.status 11) 12) (damagedBit job.current.type)).getLsbD i = _
  rw [getLsbD_setBit hi, getLsbD_setBit hi, getLsbD_clearBit hi, Bool.or_assoc, Bool.decide_or]
  rfl

/-- A store that ends DONE (R193, R196). -/
theorem State.storeDone_status (job : StoreJob) (written : List RecordType) (s : State) {i : Nat} (hi : i < 16) :
    (s.storeDone job written).config.status.getLsbD i =
      (s.config.status.getLsbD i && decide (i ≠ 10 ∧ i ≠ 11) &&
        written.all fun r => decide (i ≠ r.code - 1 ∧ i ≠ r.code + 4)) := by
  show (clearBit (written.foldl _ (clearBit s.config.status 11)) 10).getLsbD i = _
  rw [getLsbD_clearBit hi, getLsbD_clearTypes hi, getLsbD_clearBit hi, Bool.decide_and, Bool.and_assoc, Bool.and_assoc, Bool.and_assoc]
  congr 1
  rw [Bool.and_comm, Bool.and_assoc, Bool.and_comm]

/-- Settles O16: the record by what is read back, and the store's end. -/
theorem storeRecordEffect : Obligations.StoreRecordEffect := by
  intro readBack s hpower hmem
  have hexec : exec (.storeRecordChecked readBack) s = .next (s.storeRecordChecked readBack) := exec_of_powered rfl hpower
  refine ⟨fun hnone => ?_, fun job hjob hfit => ?_⟩
  · rw [hexec, State.storeRecordChecked, hnone]
  have houtside : ∀ (bytes : List Byte) (n a : Nat), n ≤ job.current.bytes.length →
      (a < job.current.offset ∨ job.current.offset + job.current.bytes.length ≤ a) →
      memRead (memWriteBlock s.memory job.current.offset (bytes.take n)) a = memRead s.memory a := fun bytes n a hn ha => by
    refine memRead_memWriteBlock_outside _ _ _ _ hmem ?_
    rw [List.length_take]
    omega
  cases hread : readBack with
  | none =>
    have hstate : s.storeRecordChecked none = (s.cutRecord job.current).storeFailed job := by rw [State.storeRecordChecked, hjob]
    refine ⟨(s.cutRecord job.current).storeFailed job, ?_, ?_, rfl, rfl, rfl, rfl, rfl, rfl, rfl, rfl, rfl, nofun, nofun, fun _ =>
      ⟨rfl, rfl, rfl, fun i hi => State.storeFailed_status job _ hi⟩⟩
    · rw [← hread, hexec, hread, hstate]
    · exact fun a ha => houtside _ _ a (Nat.lt_succ_iff.mp (Nat.mod_lt _ (Nat.succ_pos _))) ha
  | some bytes =>
    rw [← hread, hexec, hread]
    by_cases hsame : bytes = job.current.bytes
    · subst hsame
      have hblock := memReadBlock_take (bytes := job.current.bytes) hmem hfit
      have hwhole := hblock
      rw [List.take_length] at hwhole
      have hout := fun a ha => houtside job.current.bytes job.current.bytes.length a le_rfl ha
      cases hrest : job.rest with
      | nil =>
        have hstate : s.storeRecordChecked (some job.current.bytes) =
            { s with memory := memWriteBlock s.memory job.current.offset (job.current.bytes.take job.current.bytes.length)
              }.storeDone job (job.written ++ [job.current.type]) := by
          rw [State.storeRecordChecked, hjob]
          dsimp only
          rw [if_pos rfl, hrest]
        refine ⟨_, congrArg _ hstate, hout, rfl, rfl, rfl, rfl, rfl, rfl, rfl, rfl, rfl, fun _ => ⟨?_, nofun, fun _ =>
          ⟨rfl, rfl, rfl, fun i hi => State.storeDone_status job _ _ hi⟩⟩, fun b hb => ?_, fun hne => absurd rfl hne⟩
        · show memReadBlock (memWriteBlock s.memory job.current.offset (job.current.bytes.take job.current.bytes.length)) _ _ = _
          rw [List.take_length]
          exact hwhole
        · cases hb
          exact hblock
      | cons next rest =>
        have hstate : s.storeRecordChecked (some job.current.bytes) =
            { s with
              memory := memWriteBlock s.memory job.current.offset (job.current.bytes.take job.current.bytes.length),
              config := { s.config with
                store := some { job with current := next, rest := rest, written := job.written ++ [job.current.type] } } } := by
          rw [State.storeRecordChecked, hjob]
          dsimp only
          rw [if_pos rfl, hrest]
        refine ⟨_, congrArg _ hstate, hout, rfl, rfl, rfl, rfl, rfl, rfl, rfl, rfl, rfl, fun _ => ⟨?_, fun next' rest' heq => ?_, nofun⟩,
          fun b hb => ?_, fun hne => absurd rfl hne⟩
        · show memReadBlock (memWriteBlock s.memory job.current.offset (job.current.bytes.take job.current.bytes.length)) _ _ = _
          rw [List.take_length]
          exact hwhole
        · cases heq
          exact ⟨rfl, rfl, rfl⟩
        · cases hb
          exact hblock
    · have hstate : s.storeRecordChecked (some bytes) =
          { s with memory := memWriteBlock s.memory job.current.offset (bytes.take job.current.bytes.length) }.storeFailed job := by
        rw [State.storeRecordChecked, hjob]
        dsimp only
        rw [if_neg hsame]
      refine ⟨_, congrArg _ hstate, fun a ha => houtside _ _ a le_rfl ha, rfl, rfl, rfl, rfl, rfl, rfl, rfl, rfl, rfl,
        fun heq => absurd (Option.some.inj heq) hsame, fun b hb => ?_, fun _ =>
        ⟨rfl, rfl, rfl, fun i hi => State.storeFailed_status job _ hi⟩⟩
      cases hb
      exact memReadBlock_take hmem hfit

end Sys2Proof.Machine

/-!
BATCH_EFFECT (R166): what staged entries can change, how an entry counts, and the answer completed in its place.
-/
namespace Sys2Proof.Machine

/-! ### What a write can change -/

/-- Nothing but what the parameters of the map write has changed. -/
def State.SameButParams (s t : State) : Prop :=
  t = { s with
    channels := t.channels, cardQueue := t.cardQueue, comp := t.comp, mixes := t.mixes, outputs := t.outputs, slots := t.slots,
    panelClass := t.panelClass, buses := t.buses, talkLimit := t.talkLimit, graceTime := t.graceTime, revertTime := t.revertTime }

theorem State.SameButParams.refl (s : State) : s.SameButParams s := rfl

theorem State.SameButParams.trans {s t u : State} (h : s.SameButParams t) (h' : t.SameButParams u) : s.SameButParams u :=
  Eq.trans h' (congrArg (fun x : State => { x with
    channels := u.channels, cardQueue := u.cardQueue, comp := u.comp, mixes := u.mixes, outputs := u.outputs, slots := u.slots,
    panelClass := u.panelClass, buses := u.buses, talkLimit := u.talkLimit, graceTime := u.graceTime, revertTime := u.revertTime }) h)

theorem State.SameButParams.unchanged {s t : State} (h : s.SameButParams t) :
    t.lanes = s.lanes ∧ t.panelQueue = s.panelQueue ∧ t.batches = s.batches ∧ t.boundary = s.boundary ∧ t.domains = s.domains ∧
      t.ports = s.ports ∧ t.memory = s.memory := by
  unfold State.SameButParams at h
  rw [h]
  exact ⟨rfl, rfl, rfl, rfl, rfl, rfl, rfl⟩

theorem State.SameButParams.queueIfReady (i : Fin 64) (s : State) : s.SameButParams (s.queueIfReady i) := by
  unfold State.queueIfReady State.queueIfDiffers
  repeat' split
  all_goals rfl

theorem State.SameButParams.writeDesired (i : Fin 64) (f : Setting → Setting) (s : State) : s.SameButParams (s.writeDesired i f) := by
  unfold State.writeDesired
  split
  · rfl
  · exact .trans (t := s.modChannel i fun c => { c with desired := f c.desired }) rfl (.queueIfReady i _)

theorem State.SameButParams.writeParam (sl : SlotId) (p : Param) (v : Int) (s : State) : s.SameButParams (s.writeParam sl p v).1 := by
  cases p with
  | gain i => exact State.SameButParams.writeDesired (Fin.ofNat 64 i) (fun x => { x with gain := v }) s
  | pad i => exact State.SameButParams.writeDesired (Fin.ofNat 64 i) (fun x => { x with pad := decide (v = 1) }) s
  | phantom i =>
    show s.SameButParams (s.writePhantom (Fin.ofNat 64 i) (decide (v = 1)))
    unfold State.writePhantom
    split
    · exact .trans (t := s.modChannel (Fin.ofNat 64 i) fun c => { c with latch := false }) rfl (.writeDesired _ _ _)
    · exact .writeDesired _ _ s
  | ownMode i => cases sl <;> rfl
  | primary o =>
    unfold State.writeParam
    dsimp only
    split
    · unfold State.writePrimary
      split <;> rfl
    · rfl
  | fallback o =>
    unfold State.writeParam
    dsimp only
    split
    · unfold State.writeFallback
      extract_lets
      split <;> rfl
    · rfl
  | talkClass x =>
    show s.SameButParams (s.writeTalkClass x v).1
    unfold State.writeTalkClass
    split
    · rfl
    · split <;> rfl
  | _ => rfl

/-! ### Staged entries -/

section
variable {sl : SlotId}

/-- The entry that a staged one comes to when its batch takes effect (R166). -/
def State.stagedWrite (sl : SlotId) (e : Staged) (later : List Staged) (s : State) : State × Option Result :=
  if s.stagedRefused sl e then (s, some .notOwner) else
    match paramOf e.index with
    | some p => if s.stagedReplaced sl e later then (s, none) else s.writeParam sl p e.value
    | none => (s, some .noSuch)

theorem State.applyStaged_cons (e : Staged) (es : List Staged) (s : State) :
    s.applyStaged sl (e :: es) =
      let w := s.stagedWrite sl e es
      let rest := w.1.applyStaged sl es
      if w.2 = none then (rest.1, rest.2.1 + 1, rest.2.2) else (rest.1, rest.2.1, rest.2.2 + 1) := by
  show (match (s.stagedWrite sl e es).2 with | none => _ | some _ => _) = _
  dsimp only
  cases (s.stagedWrite sl e es).2 <;> rfl

theorem State.SameButParams.stagedWrite (e : Staged) (later : List Staged) (s : State) :
    s.SameButParams (s.stagedWrite sl e later).1 := by
  unfold State.stagedWrite
  split
  · rfl
  · split
    · split
      · rfl
      · exact .writeParam ..
    · rfl

theorem State.SameButParams.applyStaged : ∀ (es : List Staged) (s : State), s.SameButParams (s.applyStaged sl es).1
  | [], s => .refl s
  | e :: es, s => by
    rw [State.applyStaged_cons]
    dsimp only
    split <;> exact .trans (.stagedWrite ..) (.applyStaged es _)

/-- Every entry is either applied or dropped (R166). -/
theorem State.applyStaged_counts : ∀ (es : List Staged) (s : State),
    (s.applyStaged sl es).2.1 + (s.applyStaged sl es).2.2 = es.length
  | [], _ => rfl
  | e :: es, s => by
    have hrest := State.applyStaged_counts es (s.stagedWrite sl e es).1
    rw [State.applyStaged_cons, List.length_cons]
    dsimp only
    split
    · dsimp only
      omega
    · dsimp only
      omega

theorem State.stagedRefused_iff (e : Staged) (s : State) :
    s.stagedRefused sl e = false ↔ ∀ dom, e.domain = some dom → s.MayWrite sl dom := by
  unfold State.stagedRefused
  cases hdom : e.domain with
  | none => simp
  | some d =>
    simp only [Option.some.injEq, forall_eq', ← State.rightsTest_isNone_iff]
    cases s.rightsTest sl d <;> simp

theorem Param.inMatrix_iff (p : Param) :
    p.inMatrix = true ↔ (∃ j m, p = .crosspoint j m) ∨ (∃ m, p = .master m) ∨ ∃ m, p = .ceiling m := by
  cases p <;> simp [Param.inMatrix]

theorem State.stagedReplaced_iff {e : Staged} {p : Param} (hp : paramOf e.index = some p) (later : List Staged) (s : State) :
    s.stagedReplaced sl e later = true ↔
      ((∃ j m, p = .crosspoint j m) ∨ (∃ m, p = .master m) ∨ ∃ m, p = .ceiling m) ∧
        ∃ x, x ∈ later ∧ x.index = e.index ∧ ∀ dom, x.domain = some dom → s.MayWrite sl dom := by
  unfold State.stagedReplaced
  rw [hp, Option.any_some, Bool.and_eq_true, Param.inMatrix_iff, List.any_eq_true]
  refine and_congr_right' (exists_congr fun x => and_congr_right' ?_)
  rw [Bool.and_eq_true, decide_eq_true_iff, Bool.not_eq_true', State.stagedRefused_iff]

section
variable {e : Staged} {es : List Staged} {s : State} {p : Param} (hp : paramOf e.index = some p)

theorem State.stagedWrite_of_refused (h : ¬∀ dom, e.domain = some dom → s.MayWrite sl dom) :
    s.stagedWrite sl e es = (s, some .notOwner) := by
  rw [← State.stagedRefused_iff, Bool.not_eq_false] at h
  exact if_pos h

include hp

theorem State.stagedWrite_of_replaced (h : ∀ dom, e.domain = some dom → s.MayWrite sl dom)
    (hreplaced : s.stagedReplaced sl e es = true) : s.stagedWrite sl e es = (s, none) := by
  rw [← State.stagedRefused_iff] at h
  rw [State.stagedWrite, h, if_neg Bool.false_ne_true, hp]
  exact if_pos hreplaced

theorem State.stagedWrite_of_written (h : ∀ dom, e.domain = some dom → s.MayWrite sl dom)
    (hlast : ¬s.stagedReplaced sl e es = true) : s.stagedWrite sl e es = s.writeParam sl p e.value := by
  rw [← State.stagedRefused_iff] at h
  rw [State.stagedWrite, h, if_neg Bool.false_ne_true, hp]
  exact if_neg hlast

end

end

/-! ### The answer completed in its place -/

section
variable {r : Result} {x y : Nat} {a : Answer} (hopen : a.complete = false)
include hopen

theorem completeIn_append : ∀ {before : List Answer} (after : List Answer), (∀ b, b ∈ before → b.complete = true) →
    completeIn r x y (before ++ a :: after) =
      before ++ { a with result := r, data := .counts x y, complete := true } :: after
  | [], after, _ => if_neg (by rw [hopen]; exact Bool.false_ne_true)
  | b :: before, after, h => by
    obtain ⟨hb, hrest⟩ := List.forall_mem_cons.mp h
    rw [List.cons_append, completeIn, if_pos hb, completeIn_append after hrest, List.cons_append]

theorem completePanel_append : ∀ {before : List Answer} (after : List PanelMsg), (∀ b, b ∈ before → b.complete = true) →
    completePanel r x y (before.map PanelMsg.answer ++ .answer a :: after) =
      before.map PanelMsg.answer ++ .answer { a with result := r, data := .counts x y, complete := true } :: after
  | [], after, _ => if_neg (by rw [hopen]; exact Bool.false_ne_true)
  | b :: before, after, h => by
    obtain ⟨hb, hrest⟩ := List.forall_mem_cons.mp h
    rw [List.map_cons, List.cons_append, completePanel, if_pos hb, completePanel_append after hrest, List.cons_append]

end

/-- The end of a batch: its answer completed, the batch gone and the boundary closed to later ones (R166). -/
def State.endBatch (sl : SlotId) (applied dropped : Nat) (s : State) : State :=
  ((s.completeApply sl .done applied dropped).setBatch sl Batch.reset).closeBatches

section
variable (sl : SlotId) (m n : Nat) (s : State)

theorem State.endBatch_fields :
    (s.endBatch sl m n).channels = s.channels ∧ (s.endBatch sl m n).comp = s.comp ∧ (s.endBatch sl m n).mixes = s.mixes ∧
      (s.endBatch sl m n).outputs = s.outputs ∧ (s.endBatch sl m n).slots = s.slots ∧ (s.endBatch sl m n).buses = s.buses ∧
      (s.endBatch sl m n).domains = s.domains ∧ (s.endBatch sl m n).ports = s.ports ∧ (s.endBatch sl m n).memory = s.memory := by
  cases sl <;> exact ⟨rfl, rfl, rfl, rfl, rfl, rfl, rfl, rfl, rfl⟩

theorem State.batch_endBatch (x : SlotId) : (s.endBatch sl m n).batch x = if x = sl then Batch.reset else s.batch x := by
  show ((s.completeApply sl .done m n).setBatch sl Batch.reset).batch x = _
  rw [State.batch_setBatch]
  cases sl <;> rfl

theorem State.effects_endBatch (x : SlotId) :
    (s.endBatch sl m n).boundary.effects.get x = (s.boundary.effects.get x || decide (x = sl ∨ (s.batch x).state ≠ .sealed)) := by
  have hclose : (s.endBatch sl m n).boundary.effects.get x =
      (s.boundary.effects.get x || decide (((s.endBatch sl m n).batch x).state ≠ .sealed)) := by
    cases sl <;> cases x using SlotId.casesOn with
    | panel => rfl
    | desk d => cases d <;> rfl
  rw [hclose, State.batch_endBatch]
  by_cases hx : x = sl
  · simp [hx, Batch.reset]
  · simp [hx]

theorem State.answers_endBatch (d : Desk) :
    ((s.endBatch (.desk d) m n).lane d).answers = completeIn .done m n (s.lane d).answers := by
  show ((s.modLane d fun l => { l with answers := completeIn .done m n l.answers }).lane d).answers = _
  rw [State.lane_modLane, if_pos rfl]

theorem State.panelQueue_endBatch : (s.endBatch .panel m n).panelQueue = completePanel .done m n s.panelQueue := rfl

end

/-- A batch that is due (R166). -/
theorem State.batchEffect_of_due {sl : SlotId} {s : State} (hdue : s.batchDue sl = true) :
    s.batchEffect sl = (s.applyStaged sl (s.batch sl).staged).1.endBatch sl (s.applyStaged sl (s.batch sl).staged).2.1
      (satAdd 65535 (s.batch sl).dropped (s.applyStaged sl (s.batch sl).staged).2.2) :=
  if_pos hdue

theorem State.batchEffect_of_not_due {sl : SlotId} {s : State}
    (hidle : s.boundary.opened = false ∨ (s.batch sl).state ≠ .sealed ∨ s.boundary.effects.get sl = true) :
    s.batchEffect sl = s := by
  refine if_neg fun hdue => ?_
  obtain ⟨hboth, heffect⟩ := Bool.and_eq_true_iff.mp hdue
  obtain ⟨hopened, hsealed⟩ := Bool.and_eq_true_iff.mp hboth
  rcases hidle with h | h | h
  · rw [h] at hopened
    cases hopened
  · exact h (of_decide_eq_true hsealed)
  · rw [h] at heffect
    cases heffect

/-- Settles O55: the batch that is due and the one that is not, and an entry by its rights and by what replaces it. -/
theorem batchTakesEffect : Obligations.BatchTakesEffect := by
  refine ⟨fun sl s hpower => ⟨fun hidle => ?_, fun hopened hsealed heffect => ?_⟩, fun sl e es s p hp => ?_⟩
  · rw [exec_of_powered rfl hpower]
    exact congrArg _ (State.batchEffect_of_not_due hidle)
  · have hdue : s.batchDue sl = true := by rw [State.batchDue, hopened, heffect, decide_eq_true hsealed]; rfl
    have hexec : exec (.batchEffect sl) s = .next (s.batchEffect sl) := exec_of_powered rfl hpower
    rw [State.batchEffect_of_due hdue] at hexec
    have hcounts := State.applyStaged_counts (sl := sl) (s.batch sl).staged s
    have hsame := State.SameButParams.applyStaged (sl := sl) (s.batch sl).staged s
    generalize s.applyStaged sl (s.batch sl).staged = r at hexec hcounts hsame
    obtain ⟨u, applied, lost⟩ := r
    obtain ⟨hlanes, hqueue, hbatches, hboundary, hdomains, hports, hmemory⟩ := hsame.unchanged
    obtain ⟨hchan, hcomp, hmix, hout, hslot, hbus, hdom, hport, hmem⟩ :=
      State.endBatch_fields sl applied (satAdd 65535 (s.batch sl).dropped lost) u
    refine ⟨hcounts, _, hexec, ?_, fun x => ?_, hchan, hcomp, hmix, hout, hslot, hbus, hdom.trans hdomains, hport.trans hports,
      hmem.trans hmemory, fun before after a hbefore ha => ⟨fun d hd hq => ?_, fun hpanel hq => ?_⟩⟩
    · exact (State.batch_endBatch ..).trans (if_pos rfl)
    · rw [State.effects_endBatch, hboundary, State.batch, hbatches]
      rfl
    · subst hd
      rw [State.answers_endBatch, State.lane, hlanes, show (s.lanes.get d).answers = _ from hq]
      exact completeIn_append ha _ hbefore
    · subst hpanel
      rw [State.panelQueue_endBatch, hqueue, hq]
      exact completePanel_append ha _ hbefore
  · intro allowed replaced
    refine ⟨rfl, fun hnot => ?_, fun hallowed hrep => ?_, fun hallowed hrep hwrite => ?_⟩
    · rw [State.applyStaged_cons, State.stagedWrite_of_refused hnot]
      rfl
    · rw [State.applyStaged_cons, State.stagedWrite_of_replaced hp hallowed ((State.stagedReplaced_iff hp es s).mpr hrep)]
      rfl
    · rw [State.applyStaged_cons, State.stagedWrite_of_written hp hallowed (mt (State.stagedReplaced_iff hp es s).mp hrep)]
      exact if_pos hwrite

end Sys2Proof.Machine

/-!
What a request of a desk slot can change of the link records: talk classes, and by PATH-PREFER an active path (R37, R120, R170).
-/
namespace Sys2Proof.Machine

/-! ### The link records but for the talk classes -/

/-- A slot record less its talk class, the one field of it that a parameter of the map writes (R120). -/
def Slot.lessClass (r : Slot) : Slot := { r with talkClass := 0 }

/-- The link records stand but for the talk classes. -/
structure State.SameLinks (s t : State) : Prop where
  ports : t.ports = s.ports
  waitList : t.waitList = s.waitList
  slots : ∀ d, (t.slot d).lessClass = (s.slot d).lessClass

namespace State.SameLinks
variable {s t u : State}

theorem of_same (hports : t.ports = s.ports) (hwait : t.waitList = s.waitList) (hslots : t.slots = s.slots) : s.SameLinks t :=
  ⟨hports, hwait, fun d => by rw [State.slot, hslots, State.slot]⟩

theorem refl (s : State) : s.SameLinks s := .of_same rfl rfl rfl

theorem trans (h : s.SameLinks t) (h' : t.SameLinks u) : s.SameLinks u :=
  ⟨h'.ports.trans h.ports, h'.waitList.trans h.waitList, fun d => (h'.slots d).trans (h.slots d)⟩

theorem writeTalkClass (x : SlotId) (v : Int) (s : State) : s.SameLinks (s.writeTalkClass x v).1 := by
  unfold State.writeTalkClass
  split
  · exact .of_same rfl rfl rfl
  · split
    · exact .refl s
    next d _ =>
      refine ⟨rfl, rfl, fun e => ?_⟩
      show ((s.modSlot d fun r => { r with talkClass := v.toNat }).slot e).lessClass = _
      rw [State.slot_modSlot]
      split
      next he => subst he; rfl
      · rfl

theorem queueIfReady (i : Fin 64) (s : State) : s.SameLinks (s.queueIfReady i) := by
  unfold State.queueIfReady State.queueIfDiffers
  repeat' split
  all_goals exact .of_same rfl rfl rfl

theorem writeDesired (i : Fin 64) (f : Setting → Setting) (s : State) : s.SameLinks (s.writeDesired i f) := by
  unfold State.writeDesired
  split
  · exact .refl s
  · exact .trans (t := s.modChannel i fun c => { c with desired := f c.desired }) (.of_same rfl rfl rfl) (.queueIfReady i _)

theorem writePhantom (i : Fin 64) (on : Bool) (s : State) : s.SameLinks (s.writePhantom i on) := by
  unfold State.writePhantom
  split
  · exact .trans (t := s.modChannel i fun c => { c with latch := false }) (.of_same rfl rfl rfl) (.writeDesired ..)
  · exact .writeDesired ..

theorem writeParam (sl : SlotId) (p : Param) (v : Int) (s : State) : s.SameLinks (s.writeParam sl p v).1 := by
  cases p with
  | gain i => exact State.SameLinks.writeDesired (Fin.ofNat 64 i) (fun x => { x with gain := v }) s
  | pad i => exact State.SameLinks.writeDesired (Fin.ofNat 64 i) (fun x => { x with pad := decide (v = 1) }) s
  | phantom i => exact State.SameLinks.writePhantom (Fin.ofNat 64 i) (decide (v = 1)) s
  | ownMode i => cases sl <;> exact .of_same rfl rfl rfl
  | primary o =>
    unfold State.writeParam
    dsimp only
    split
    · rw [State.writePrimary_eq]
      exact .of_same rfl rfl rfl
    · exact .refl s
  | fallback o =>
    unfold State.writeParam
    dsimp only
    split
    · rw [State.writeFallback_eq]
      exact .of_same rfl rfl rfl
    · exact .refl s
  | talkClass x => exact .writeTalkClass x v s
  | _ => exact .of_same rfl rfl rfl

theorem writeItems (sl : SlotId) : ∀ (items : List Item) (s : State), s.SameLinks (s.writeItems sl items).1
  | [], s => .refl s
  | x :: xs, s => by
    unfold State.writeItems
    dsimp only
    split
    · exact .writeParam ..
    · exact .trans (.writeParam ..) (writeItems sl xs _)

theorem checkDomains (sl : SlotId) : ∀ (ds : List Nat) (s : State), s.SameLinks (s.checkDomains sl ds).1
  | [], s => .refl s
  | d :: ds, s => by
    unfold State.checkDomains
    dsimp only
    refine .trans ?_ (checkDomains sl ds _)
    split
    · split
      · exact .of_same rfl rfl rfl
      · exact .refl s
    · exact .refl s

theorem writeAll (sl : SlotId) (items : List Item) (echo : Nat) (s : State) : s.SameLinks (s.writeAll sl items echo).state := by
  unfold State.writeAll
  dsimp only
  split
  · exact .refl s
  split
  · exact .checkDomains ..
  split
  · split
    · exact .of_same rfl rfl rfl
    · exact .refl s
  · split
    · exact .refl s
    · exact .writeItems ..

/-- A reply that is a refusal as the state stands, or writes. -/
theorem doSet (sl : SlotId) (index : Nat) (value : Int) (echo : Nat) (s : State) :
    s.SameLinks (s.doSet sl index value echo).state := by
  unfold State.doSet
  repeat' split
  all_goals first | exact .refl s | exact .writeAll ..

theorem doMatrix (sl : SlotId) (s1 s2 m1 m2 echo : Nat) (vs : List Int) (s : State) :
    s.SameLinks (s.doMatrix sl s1 s2 m1 m2 echo vs).state := by
  unfold State.doMatrix
  repeat' split
  all_goals first | exact .refl s | exact .writeAll ..

theorem doRun (sl : SlotId) (first echo : Nat) (vs : List Int) (s : State) : s.SameLinks (s.doRun sl first echo vs).state := by
  unfold State.doRun
  repeat' split
  all_goals first | exact .refl s | exact .writeAll ..

theorem doRebase (sl : SlotId) (first last col : Nat) (s : State) : s.SameLinks (s.doRebase sl first last col).state := by
  unfold State.doRebase
  dsimp only
  repeat' split
  all_goals first | exact .refl s | exact .of_same rfl rfl rfl | exact .checkDomains ..

/-- A request's own rule leaves the link records, but for the talk classes and for PATH-PREFER (10.4). -/
theorem perform (sl : SlotId) {r : Request} (hprefer : ∀ p, r ≠ .pathPrefer p) (s : State) : s.SameLinks (s.perform sl r).state := by
  cases r with
  | get first count =>
    show s.SameLinks (s.doGet sl first count).state
    unfold State.doGet
    repeat' split
    all_goals exact .refl s
  | set index value echo => exact .doSet ..
  | windowMatrix s1 s2 m1 m2 echo vs => exact .doMatrix ..
  | windowRun first echo vs => exact .doRun ..
  | claim d =>
    show s.SameLinks (s.claim sl d).1
    unfold State.claim
    repeat' split
    all_goals exact .of_same rfl rfl rfl
  | release d =>
    show s.SameLinks (s.release sl d).1
    unfold State.release
    repeat' split
    all_goals exact .of_same rfl rfl rfl
  | forceRelease d =>
    show s.SameLinks (s.forceRelease d).1
    unfold State.forceRelease
    split <;> exact .of_same rfl rfl rfl
  | clearTrespass d =>
    show s.SameLinks (s.clearTrespass sl d).1
    unfold State.clearTrespass
    repeat' split
    all_goals exact .of_same rfl rfl rfl
  | batchOpen =>
    show s.SameLinks (s.batchOpen sl).1
    unfold State.batchOpen
    repeat' split
    all_goals exact .of_same rfl rfl rfl
  | batchDrop =>
    show s.SameLinks (s.batchDrop sl).1
    unfold State.batchDrop
    split <;> exact .of_same rfl rfl rfl
  | talkPress b =>
    show s.SameLinks (s.talkPress sl b).1
    unfold State.talkPress
    repeat' split
    all_goals exact .of_same rfl rfl rfl
  | talkRelease b =>
    show s.SameLinks (s.talkRelease sl b).1
    unfold State.talkRelease
    split <;> exact .of_same rfl rfl rfl
  | rebase first last col => exact .doRebase ..
  | clearOvers =>
    show s.SameLinks (s.doClearOvers sl).state
    unfold State.doClearOvers
    split <;> exact .of_same rfl rfl rfl
  | pathPrefer p => exact absurd rfl (hprefer p)
  | recallSafe =>
    show s.SameLinks (s.doRecall sl).state
    unfold State.doRecall
    repeat' split
    all_goals exact .of_same rfl rfl rfl
  | _ => exact .of_same rfl rfl rfl

theorem pushAnswer (sl : SlotId) (a : Answer) (s : State) : s.SameLinks (s.pushAnswer sl a) := by
  cases sl <;> exact .of_same rfl rfl rfl

theorem place {x : Reply} (h : s.SameLinks x.state) (sl : SlotId) (tag kind : Byte) : s.SameLinks (x.place sl tag kind) :=
  h.trans (.pushAnswer ..)

theorem batchApply (sl : SlotId) (tag : Byte) (s : State) : s.SameLinks (s.batchApply sl tag) := by
  unfold State.batchApply
  dsimp only
  split
  · exact .pushAnswer ..
  · exact .pushAnswer ..
  · exact .trans (t := s.setBatch sl { s.batch sl with state := .sealed }) (.of_same rfl rfl rfl) (.pushAnswer ..)

/-- Any request of a desk slot but PATH-PREFER. -/
theorem takeRequest (d : Desk) (tag : Byte) {r : Request} (hprefer : ∀ p, r ≠ .pathPrefer p) (s : State) :
    s.SameLinks (s.takeRequest (.desk d) tag r) :=
  State.takeRequest_cases (.refl s) (fun _ => .of_same rfl rfl rfl) fun _ =>
    State.answerRequest_cases (fun _ => .pushAnswer ..) (fun _ => .place (.perform _ hprefer s) ..)
      (fun _ => .batchApply ..) (fun _ => nofun) nofun

end State.SameLinks

/-! ### PATH-PREFER from a desk slot -/

/-- The port a desk slot's PATH-PREFER can move the slot to: one of its other ports, LOCKED, with no concealment under way (R37). -/
def State.Preferable (d : Desk) (p : LinkPort) (s : State) : Prop :=
  p ∈ (s.slot d).bound ∧ (s.slot d).active ≠ some p ∧ (s.port p).state = .locked ∧ (s.slot d).conceal = .none

theorem State.preferFor_cases (d : Desk) (p : LinkPort) (s : State) :
    (s.preferFor d p).1 = s ∨ s.Preferable d p ∧ (s.preferFor d p).1 = s.switchover d p := by
  unfold State.preferFor
  dsimp only
  split
  · exact .inl rfl
  next hbound =>
    split
    · exact .inl rfl
    next hactive =>
      split
      · exact .inl rfl
      next hlocked =>
        split
        · exact .inl rfl
        next hquiet => exact .inr ⟨⟨not_not.mp hbound, hactive, not_not.mp hlocked, not_not.mp hquiet⟩, rfl⟩

theorem State.pathPrefer_desk_cases (d : Desk) (code : Nat) (s : State) :
    (s.pathPrefer (.desk d) code).1 = s ∨ ∃ p, s.Preferable d p ∧ (s.pathPrefer (.desk d) code).1 = s.switchover d p := by
  unfold State.pathPrefer
  split
  · exact .inl rfl
  next p _ =>
    rcases s.preferFor_cases d p with h | h
    · exact .inl h
    · exact .inr ⟨p, h⟩

/-- Taking a request of a desk slot: the link records stand but for the talk classes, or the slot moves to another port (R37, R170). -/
theorem State.takeRequest_desk_cases (d : Desk) (tag : Byte) (r : Request) (s : State) :
    s.SameLinks (s.takeRequest (.desk d) tag r) ∨
      ∃ p, s.Preferable d p ∧ (s.switchover d p).SameLinks (s.takeRequest (.desk d) tag r) := by
  by_cases hprefer : ∀ p, r ≠ .pathPrefer p
  · exact .inl (.takeRequest d tag hprefer s)
  · obtain ⟨code, rfl⟩ : ∃ code, r = .pathPrefer code := by simpa using hprefer
    refine State.takeRequest_cases (P := fun t => s.SameLinks t ∨ ∃ p, s.Preferable d p ∧ (s.switchover d p).SameLinks t)
      (.inl (.refl s)) (fun _ => .inl (.of_same rfl rfl rfl)) fun _ =>
      State.answerRequest_cases (P := fun t => s.SameLinks t ∨ ∃ p, s.Preferable d p ∧ (s.switchover d p).SameLinks t)
        (fun _ => .inl (.pushAnswer ..)) (fun _ => ?_) (fun _ => .inl (.batchApply ..)) (fun _ => nofun) nofun
    rcases s.pathPrefer_desk_cases d code with h | ⟨p, hp, h⟩
    · exact .inl (.place (x := s.perform (.desk d) (.pathPrefer code)) (by rw [State.perform, Reply.plain, h]; exact .refl s) ..)
    · exact .inr ⟨p, hp, .place (x := s.perform (.desk d) (.pathPrefer code)) (by rw [State.perform, Reply.plain, h]; exact .refl _) ..⟩

end Sys2Proof.Machine

/-!
The moves that leave the attachment table's bindings: deliveries, ends of fades, settled frames and switchovers to a LOCKED port
(R12, R30 to R37).
-/
namespace Sys2Proof.Machine

/-- What a slot record says of who sits in the slot: state, identity, role and bound ports (R22). -/
def Slot.seat (r : Slot) : SlotState × Option DeskId × Option Role × List LinkPort := (r.state, r.ident, r.role, r.bound)

/-- The port cores, the wait list and the seats stand, and a slot runs on the port it ran on or on a bound one that is LOCKED. -/
structure State.Moves (s t : State) : Prop where
  ports : ∀ q, (t.port q).core = (s.port q).core
  waitList : t.waitList = s.waitList
  seats : ∀ d, (t.slot d).seat = (s.slot d).seat
  active : ∀ d, (t.slot d).active = (s.slot d).active ∨
    ∃ p, p ∈ (s.slot d).bound ∧ (s.port p).state = .locked ∧ (t.slot d).active = some p

theorem Slot.seat_bound {r x : Slot} (h : x.seat = r.seat) : x.bound = r.bound := congrArg (fun y => y.2.2.2) h
theorem Slot.seat_state {r x : Slot} (h : x.seat = r.seat) : x.state = r.state := congrArg Prod.fst h
theorem Slot.seat_ident {r x : Slot} (h : x.seat = r.seat) : x.ident = r.ident := congrArg (fun y => y.2.1) h

/-- A field that a partial copy of the record keeps is the same where the copies agree. -/
theorem eq_of_copy {α β : Type} {copy : α → α} {r x : α} (h : copy x = copy r) (f : α → β) (hf : ∀ y, f (copy y) = f y) : f x = f r :=
  (hf x).symm.trans ((congrArg f h).trans (hf r))

theorem Port.core_state {r x : Port} (h : x.core = r.core) : x.state = r.state := eq_of_copy h Port.state fun _ => rfl
theorem Port.core_identSeen {r x : Port} (h : x.core = r.core) : x.identSeen = r.identSeen := eq_of_copy h Port.identSeen fun _ => rfl
theorem Port.core_roleSeen {r x : Port} (h : x.core = r.core) : x.roleSeen = r.roleSeen := eq_of_copy h Port.roleSeen fun _ => rfl

theorem Port.core_usable {r x : Port} (h : x.core = r.core) : x.usable = r.usable := by
  unfold Port.usable
  rw [Port.core_state h]

namespace State.Moves
variable {s t u : State}

theorem of_same (hports : ∀ q, (t.port q).core = (s.port q).core) (hwait : t.waitList = s.waitList)
    (hslots : ∀ d, (t.slot d).seat = (s.slot d).seat ∧ (t.slot d).active = (s.slot d).active) : s.Moves t :=
  ⟨hports, hwait, fun d => (hslots d).1, fun d => .inl (hslots d).2⟩

theorem of_eq (hports : t.ports = s.ports) (hwait : t.waitList = s.waitList) (hslots : t.slots = s.slots) : s.Moves t :=
  .of_same (fun q => by rw [State.port, hports, State.port]) hwait fun d => by rw [State.slot, hslots, State.slot]; exact ⟨rfl, rfl⟩

theorem refl (s : State) : s.Moves s := .of_eq rfl rfl rfl

theorem trans (h : s.Moves t) (h' : t.Moves u) : s.Moves u where
  ports q := (h'.ports q).trans (h.ports q)
  waitList := h'.waitList.trans h.waitList
  seats d := (h'.seats d).trans (h.seats d)
  active d := by
    rcases h'.active d with hsame | ⟨p, hp, hlocked, hactive⟩
    · rw [hsame]
      exact h.active d
    · rw [Slot.seat_bound (h.seats d)] at hp
      rw [Port.core_state (h.ports p)] at hlocked
      exact .inr ⟨p, hp, hlocked, hactive⟩

theorem sameLinks (h : s.SameLinks t) : s.Moves t :=
  .of_same (fun q => by rw [State.port, h.ports, State.port]) h.waitList fun d =>
    ⟨eq_of_copy (h.slots d) Slot.seat fun _ => rfl, eq_of_copy (h.slots d) Slot.active fun _ => rfl⟩

theorem modSlot (d : Desk) {f : Slot → Slot} (hseat : (f (s.slot d)).seat = (s.slot d).seat)
    (hactive : (f (s.slot d)).active = (s.slot d).active) : s.Moves (s.modSlot d f) :=
  .of_same (fun _ => rfl) rfl fun e => by
    rw [State.slot_modSlot]
    split
    next he => subst he; exact ⟨hseat, hactive⟩
    · exact ⟨rfl, rfl⟩

theorem modPort (p : LinkPort) {f : Port → Port} (hcore : (f (s.port p)).core = (s.port p).core) : s.Moves (s.modPort p f) :=
  .of_same (fun q => by
    rw [State.port_modPort]
    split
    next hq => subst hq; exact hcore
    · rfl) rfl fun _ => ⟨rfl, rfl⟩

theorem modLane (d : Desk) (f : Lane → Lane) : s.Moves (s.modLane d f) := .of_eq rfl rfl rfl

theorem switchover (d : Desk) {q : LinkPort} (hq : q ∈ (s.slot d).bound) (hlocked : (s.port q).state = .locked) :
    s.Moves (s.switchover d q) := by
  have hmove : s.Moves (s.modSlot d fun r => { r with active := some q, switchovers := satAdd 65535 r.switchovers 1 }) :=
    { ports := fun _ => rfl
      waitList := rfl
      seats := fun e => by
        rw [State.slot_modSlot]
        split
        next he => subst he; rfl
        · rfl
      active := fun e => by
        rw [State.slot_modSlot]
        split
        next he =>
          subst he
          exact .inr ⟨q, hq, hlocked, rfl⟩
        · exact .inl rfl }
  unfold State.switchover
  dsimp only
  split
  · exact hmove.trans (.modPort q rfl)
  · exact hmove.trans (.trans (.modLane d _) (.modSlot d rfl rfl))

theorem mem_of_otherThan {r : Slot} {p q : LinkPort} (h : r.otherThan p = some q) : q ∈ r.bound ∧ q ≠ p :=
  ⟨List.mem_of_find?_eq_some h, by simpa using List.find?_some h⟩

theorem recheck (d : Desk) (s : State) : s.Moves (s.recheck d) := by
  unfold State.recheck
  dsimp only
  split
  · split
    next q hother =>
      split
      next hcond => exact .switchover d (mem_of_otherThan hother).1 hcond.2.2.2
      · exact .refl s
    · exact .refl s
  · exact .refl s

theorem qualityEvent (p : LinkPort) (s : State) : s.Moves (s.qualityEvent p) := by
  unfold State.qualityEvent
  split
  · exact .recheck ..
  · exact .refl s

theorem fadeOutEnd (d : Desk) (s : State) : s.Moves (s.fadeOutEnd d) := by
  unfold State.fadeOutEnd
  split
  · exact .modSlot d rfl rfl
  · exact .refl s

theorem fadeInEnd (d : Desk) (s : State) : s.Moves (s.fadeInEnd d) := by
  unfold State.fadeInEnd
  split
  · exact .trans (.modSlot d rfl rfl) (.recheck ..)
  · exact .refl s

theorem fadeEndsOn (p : LinkPort) (s : State) : s.Moves (s.fadeEndsOn p) := by
  unfold State.fadeEndsOn
  split
  · split
    · exact .trans (.fadeOutEnd ..) (.fadeInEnd ..)
    · exact .refl s
  · exact .refl s

theorem takeRequest (d : Desk) (tag : Byte) (r : Request) (s : State) : s.Moves (s.takeRequest (.desk d) tag r) := by
  rcases s.takeRequest_desk_cases d tag r with h | ⟨p, ⟨hbound, -, hlocked, -⟩, h⟩
  · exact .sameLinks h
  · exact .trans (.switchover d hbound hlocked) (.sameLinks h)

theorem feedReceiver (d : Desk) (lane : Option (List Byte)) (s : State) : s.Moves (s.feedReceiver d lane) := by
  unfold State.feedReceiver
  dsimp only
  split
  · exact .trans (.modLane d _) (.takeRequest ..)
  · exact .modLane d _

theorem seat_absorb (dl : Delivery) (r : Slot) : (r.absorb dl).seat = r.seat ∧ (r.absorb dl).active = r.active := by
  unfold Slot.absorb Slot.takeAudio
  dsimp only
  repeat' split
  all_goals exact ⟨rfl, rfl⟩

theorem absorb (d : Desk) (dl : Delivery) (s : State) : s.Moves (s.absorb d dl) :=
  .trans (.modSlot d (seat_absorb ..).1 (seat_absorb ..).2) (.feedReceiver ..)

theorem takeDelivery (p : LinkPort) (dl : Delivery) (s : State) : s.Moves (s.takeDelivery p dl) := by
  have hends : ∀ d, s.Moves ((s.fadeOutEnd d).fadeInEnd d) := fun d => .trans (.fadeOutEnd ..) (.fadeInEnd ..)
  unfold State.takeDelivery
  split
  · exact .refl s
  · split
    · dsimp only
      split
      · exact (hends _).trans (.absorb ..)
      · exact hends _
    · exact .refl s

theorem takeReturned (d : Desk) (s : State) : s.Moves (s.takeReturned d) := by
  unfold State.takeReturned
  split
  · exact .refl s
  split
  · exact .refl s
  split
  · exact .trans (.modPort _ rfl) (.absorb ..)
  · exact .refl s

theorem settleReturned (s : State) : s.Moves s.settleReturned :=
  .trans (.takeReturned .d1 s) (.trans (.takeReturned .d2 _) (.takeReturned .d3 _))

end State.Moves

/-! ### The attachment law under a move -/

/-- A move keeps the attachment table's law: the slot's new path is bound and LOCKED (R31, R37). -/
theorem State.AttachLawful.moves {s t : State} (h : s.AttachLawful) (hmove : s.Moves t) : t.AttachLawful := by
  obtain ⟨hports, hwait, hseats, hactive⟩ := hmove
  have hstate := fun d => Slot.seat_state (hseats d)
  have hbound := fun d => Slot.seat_bound (hseats d)
  have hident := fun d => Slot.seat_ident (hseats d)
  have husable := fun q => Port.core_usable (hports q)
  have hidentSeen : ∀ q, (t.port q).identSeen = (s.port q).identSeen := fun q => Port.core_identSeen (hports q)
  have hroleSeen : ∀ q, (t.port q).roleSeen = (s.port q).roleSeen := fun q => Port.core_roleSeen (hports q)
  have hlocked : ∀ {p}, (s.port p).state = .locked → (s.port p).usable = true := fun hp => decide_eq_true (.inl hp)
  refine ⟨fun d hd => ?_, fun d hd => ?_, ?_, ?_, ?_, ?_, ?_, ?_, ?_, ?_, ?_, ?_, ?_, ?_⟩
  · rw [hstate] at hd
    simp only [hbound, husable]
    rcases hactive d with hsame | ⟨p, hp, hlock, hact⟩
    · rw [hsame]
      exact h.activePath d hd
    · exact ⟨p, hact, hp, hlocked hlock⟩
  · rw [hstate] at hd
    rcases hactive d with hsame | ⟨p, hp, hlock, hact⟩
    · rw [hsame]
      exact h.onlyActive d hd
    · exfalso
      cases hs : (s.slot d).state with
      | active => exact hd hs
      | silent => exact absurd (hlocked hlock) (by rw [h.silent d hs p hp]; exact Bool.false_ne_true)
      | vacant =>
        rw [h.vacant d hs] at hp
        cases hp
  · simpa only [hstate, hbound, husable] using h.silent
  · simpa only [hstate, hbound] using h.vacant
  · simpa only [hbound] using h.twoPorts
  · simpa only [hbound] using h.oneSlot
  · simpa only [hstate, hident] using h.oneIdentity
  · simpa only [hbound, husable, hident, hidentSeen] using h.identity
  · simpa only [husable, hidentSeen, hroleSeen] using h.carried
  · simpa only [hwait, husable, hbound] using h.waiting
  · simpa only [hwait, hstate, hident, hidentSeen] using h.strangers
  · simpa only [hwait, hstate] using h.noVacancy
  · simpa only [hwait, hstate, hident, hidentSeen, husable, hbound] using h.surplus
  · simpa only [hstate, hident, hidentSeen, husable, hbound] using h.both

end Sys2Proof.Machine

/-!
The ends of fades (R33 to R35) and PATH-PREFER (R37).
-/
namespace Sys2Proof.Machine

/-! ### Bound ports -/

theorem Slot.otherThan_eq {r : Slot} {p q : LinkPort} (hlen : r.bound.length ≤ 2) (hp : p ∈ r.bound) (hq : q ∈ r.bound) (hne : q ≠ p) :
    r.otherThan p = some q := by
  obtain ⟨x, hx⟩ : ∃ x, r.otherThan p = some x :=
    Option.isSome_iff_exists.mp (List.find?_isSome.mpr ⟨q, hq, by simpa using hne⟩)
  obtain ⟨hmem, hxp⟩ := State.Moves.mem_of_otherThan hx
  rcases hb : r.bound with _ | ⟨x1, _ | ⟨x2, _ | ⟨x3, l⟩⟩⟩
  · rw [hb] at hp
    cases hp
  · simp only [hb, List.mem_singleton] at hp hq
    exact absurd (hq.trans hp.symm) hne
  · rw [hx]
    simp only [hb, List.mem_cons, List.not_mem_nil, or_false] at hp hq hmem
    rcases hp with rfl | rfl
    · rw [hq.resolve_left hne, hmem.resolve_left hxp]
    · rw [hq.resolve_right hne, hmem.resolve_right hxp]
  · rw [hb] at hlen
    simp at hlen

theorem State.boundTo_eq_some {s : State} (hone : ∀ d e p, p ∈ (s.slot d).bound → p ∈ (s.slot e).bound → d = e) {d : Desk} {p : LinkPort}
    (hp : p ∈ (s.slot d).bound) : s.boundTo p = some d := by
  obtain ⟨e, he⟩ : ∃ e, s.boundTo p = some e :=
    Option.isSome_iff_exists.mp (List.find?_isSome.mpr ⟨d, by cases d <;> decide, decide_eq_true hp⟩)
  rw [he, hone e d p (by simpa using List.find?_some he) hp]

theorem State.boundTo_eq_none {s : State} {p : LinkPort} (hp : ∀ d, p ∉ (s.slot d).bound) : s.boundTo p = none :=
  List.find?_eq_none.mpr fun d _ => by simpa using hp d

theorem State.mem_of_boundTo {s : State} {p : LinkPort} {d : Desk} (h : s.boundTo p = some d) : p ∈ (s.slot d).bound := by
  simpa using List.find?_some h

/-! ### The switch that is due -/

section
variable {d : Desk} {s : State}

theorem State.recheck_of_due {p q : LinkPort} (hactive : (s.slot d).active = some p) (hother : (s.slot d).otherThan p = some q)
    (hstate : (s.slot d).state = .active) (hquiet : (s.slot d).conceal = .none) (hp : (s.port p).state = .errored)
    (hq : (s.port q).state = .locked) : s.recheck d = s.switchover d q := by
  unfold State.recheck
  simp only [hactive, hother]
  exact if_pos ⟨hstate, hquiet, hp, hq⟩

theorem State.recheck_of_not_due
    (h : ¬∃ p q, (s.slot d).active = some p ∧ (s.slot d).otherThan p = some q ∧ (s.slot d).state = .active ∧ (s.slot d).conceal = .none ∧
      (s.port p).state = .errored ∧ (s.port q).state = .locked) : s.recheck d = s := by
  unfold State.recheck
  dsimp only
  split
  next p hactive =>
    split
    next q hother => exact if_neg fun hcond => h ⟨p, q, hactive, hother, hcond⟩
    · rfl
  · rfl

end

/-- A slot that has gone over to another port (R31). -/
def Slot.moved (q : LinkPort) (r : Slot) : Slot := { r with active := some q, switchovers := satAdd 65535 r.switchovers 1 }

/-- A port that is to deliver from its buffer, the frame returned at the switch first (R14, R32). -/
def Port.captures (f : StageFrame) (r : Port) : Port := { r with bufLast := some f.number, captured := some f, skip := !r.frameSeen }

section
variable (d : Desk) (q : LinkPort) (s : State)

theorem State.switchover_hitless {f : StageFrame} (h : s.hitlessFrame d q = some f) :
    s.switchover d q = (s.modSlot d (Slot.moved q)).modPort q (Port.captures f) := by
  unfold State.switchover
  rw [h]
  rfl

theorem State.switchover_concealed (h : s.hitlessFrame d q = none) :
    s.switchover d q =
      ((s.modSlot d (Slot.moved q)).modLane d fun l => { l with receiver := none }).modSlot d Slot.startFade := by
  unfold State.switchover
  rw [h]
  rfl

theorem State.slot_switchover_same :
    (s.switchover d q).slot d =
      if (s.hitlessFrame d q).isSome = true then (s.slot d).moved q else ((s.slot d).moved q).startFade := by
  cases h : s.hitlessFrame d q with
  | none =>
    rw [State.switchover_concealed d q s h, State.slot_modSlot_same, Option.isSome_none, if_neg Bool.false_ne_true]
    exact congrArg Slot.startFade (State.slot_modSlot_same ..)
  | some f =>
    rw [State.switchover_hitless d q s h, Option.isSome_some, if_pos rfl]
    exact State.slot_modSlot_same ..

theorem State.slot_switchover_ne {e : Desk} (he : e ≠ d) : (s.switchover d q).slot e = s.slot e := by
  cases h : s.hitlessFrame d q with
  | none =>
    rw [State.switchover_concealed d q s h, State.slot_modSlot, if_neg he]
    exact (State.slot_modSlot ..).trans (if_neg he)
  | some f =>
    rw [State.switchover_hitless d q s h]
    exact (State.slot_modSlot ..).trans (if_neg he)

theorem State.active_switchover : ((s.switchover d q).slot d).active = some q := by
  rw [State.slot_switchover_same]
  split <;> rfl

end

/-- Settles O30: a fade by its step, and the switch that waited for its end. -/
theorem fadeEnds : Obligations.FadeEnds := by
  intro d s hpower
  have hout : exec (.fadeOutEnd d) s = .next (s.fadeOutEnd d) := exec_of_powered rfl hpower
  have hin : exec (.fadeInEnd d) s = .next (s.fadeInEnd d).settleReturned := exec_of_powered rfl hpower
  refine ⟨fun hc hstep => ?_, fun hnot => ?_, fun hc hstep hnone hwait => ?_, fun p q h hc hstep hstate hactive hq hne hp hlocked => ?_,
    fun hnot => ?_⟩
  · rw [hout, State.fadeOutEnd, if_pos ⟨hc, hstep.ge⟩]
  · rw [hout, State.fadeOutEnd, if_neg hnot]
  · have hquiet : State.recheck d (s.modSlot d fun r => { r with conceal := .none, step := 0 }) =
        s.modSlot d fun r => { r with conceal := .none, step := 0 } := by
      refine State.recheck_of_not_due ?_
      rintro ⟨p, q, hactive, hother, hstate, -, hp, hq⟩
      rw [State.slot_modSlot_same] at hactive hother hstate
      obtain ⟨hmem, hne⟩ := State.Moves.mem_of_otherThan hother
      exact hwait ⟨p, q, hstate, hactive, hmem, hne, hp, hq⟩
    rw [hin, State.fadeInEnd, if_pos ⟨hc, hstep.ge⟩, hquiet]
    exact congrArg _ (State.settleReturned_of_none (hnone.of_ports rfl))
  · refine ⟨_, hin, ?_⟩
    have hpb : p ∈ (s.slot d).bound := by
      obtain ⟨x, hx, hb, -⟩ := h.activePath d hstate
      cases hactive.symm.trans hx
      exact hb
    have hslot := State.slot_modSlot_same s d fun r => { r with conceal := .none, step := 0 }
    have hswitch : s.fadeInEnd d = (s.modSlot d fun r => { r with conceal := .none, step := 0 }).switchover d q := by
      rw [State.fadeInEnd, if_pos ⟨hc, hstep.ge⟩]
      refine State.recheck_of_due (p := p) ?_ ?_ ?_ ?_ hp hlocked <;> rw [hslot]
      · exact hactive
      · exact Slot.otherThan_eq (h.twoPorts d).1 hpb hq hne
      · exact hstate
    have hmoves : s.Moves (s.fadeInEnd d) := .fadeInEnd d s
    have hnow : ((s.fadeInEnd d).slot d).active = some q := by rw [hswitch, State.active_switchover]
    rcases (State.Moves.settleReturned (s.fadeInEnd d)).active d with hsame | ⟨x, hx, hlock, hact⟩
    · exact hsame.trans hnow
    · rw [Slot.seat_bound (hmoves.seats d)] at hx
      rw [Port.core_state (hmoves.ports x)] at hlock
      have hxp : x ≠ p := fun he => by rw [he, hp] at hlock; cases hlock
      have heq := (Slot.otherThan_eq (h.twoPorts d).1 hpb hx hxp).symm.trans (Slot.otherThan_eq (h.twoPorts d).1 hpb hq hne)
      rw [hact, Option.some.inj heq]
  · rw [hin, State.fadeInEnd, if_neg hnot]

/-! ### PATH-PREFER -/

theorem ofCode_code (p : LinkPort) : LinkPort.ofCode (BitVec.ofNat 8 p.code).toNat = some p := by cases p <;> rfl

section
variable {sl : SlotId} {tag : Byte} {s t : State} {r : Result} {code : Byte} (h : s.Accepts sl)
include h

theorem exec_pathPrefer_of_eq (hprefer : s.pathPrefer sl code.toNat = (t, r)) :
    exec (.pathPrefer sl tag code) s = .next (t.answer sl tag 0x3A#8 r .none).settleReturned := by
  have hanswer : s.takeRequest sl tag (.pathPrefer code.toNat) = t.answer sl tag 0x3A#8 r .none := by
    rw [State.takeRequest_of_hasRoom h.2.2, State.answerRequest_of_started h.2.1 (by simp [Request.panelOnly]) rfl, State.perform, hprefer]
    rfl
  show live (fun s => (s.takeRequest sl tag (.pathPrefer code.toNat)).settleReturned) s = _
  rw [live_powered _ _ h.1, hanswer]

theorem exec_pathPrefer_of_stands (hnone : s.NoneReturned) (hprefer : s.pathPrefer sl code.toNat = (s, r)) :
    exec (.pathPrefer sl tag code) s = .next (s.answer sl tag 0x3A#8 r .none) := by
  rw [exec_pathPrefer_of_eq h hprefer, State.settleReturned_of_none (hnone.of_ports (State.answer_ports ..))]

end

theorem State.pathPrefer_of_bound {sl : SlotId} {s : State} {d : Desk} {p : LinkPort}
    (hone : ∀ d e p, p ∈ (s.slot d).bound → p ∈ (s.slot e).bound → d = e) (hsl : sl = .panel ∨ sl = .desk d) (hp : p ∈ (s.slot d).bound) :
    s.pathPrefer sl (BitVec.ofNat 8 p.code).toNat = s.preferFor d p := by
  unfold State.pathPrefer
  rw [ofCode_code]
  rcases hsl with rfl | rfl
  · dsimp only
    rw [State.boundTo_eq_some hone hp]
  · rfl

theorem State.pathPrefer_of_not_bound {sl : SlotId} {s : State} {p : LinkPort}
    (hp : ∀ d, (sl = .panel ∨ sl = .desk d) → p ∉ (s.slot d).bound) :
    s.pathPrefer sl (BitVec.ofNat 8 p.code).toNat = (s, .notAvailable) := by
  unfold State.pathPrefer
  rw [ofCode_code]
  cases sl with
  | panel =>
    dsimp only
    rw [State.boundTo_eq_none fun d => hp d (.inl rfl)]
  | desk d => exact if_pos (hp d (.inr rfl))

/-- Settles O32: the rows of R37 one after another. -/
theorem pathPreferAnswers : Obligations.PathPreferAnswers := by
  intro sl tag p s h hnone hlaw
  refine ⟨fun code hcode => ?_, fun hp => ?_, fun d hsl hp => ?_⟩
  · refine exec_pathPrefer_of_stands h hnone ?_
    rw [State.pathPrefer, hcode]
  · exact exec_pathPrefer_of_stands h hnone (State.pathPrefer_of_not_bound hp)
  · have hprefer := State.pathPrefer_of_bound hlaw.oneSlot hsl hp
    refine ⟨fun hactive => ?_, fun hactive hstate => ?_, fun hactive hstate hconceal => ?_, fun hactive hstate hconceal => ?_⟩
    · exact exec_pathPrefer_of_stands h hnone (hprefer.trans ((if_neg (not_not_intro hp)).trans (if_pos hactive)))
    · exact exec_pathPrefer_of_stands h hnone
        (hprefer.trans ((if_neg (not_not_intro hp)).trans ((if_neg hactive).trans (if_pos hstate))))
    · exact exec_pathPrefer_of_stands h hnone (hprefer.trans ((if_neg (not_not_intro hp)).trans
        ((if_neg hactive).trans ((if_neg (not_not_intro hstate)).trans (if_pos hconceal)))))
    · exact ⟨exec_pathPrefer_of_eq h (hprefer.trans ((if_neg (not_not_intro hp)).trans
        ((if_neg hactive).trans ((if_neg (not_not_intro hstate)).trans (if_neg (not_not_intro hconceal)))))),
        State.active_switchover ..⟩

end Sys2Proof.Machine

/-!
Three statements that the lane of a returned frame breaks. A hitless switch returns a frame, the slot takes it in the same command
(`State.settleReturned`), and its lane bytes may complete a request: a PATH-PREFER moves the slot once more, and a SET of a talk class
reaches another slot. Each state below lies within the hypotheses of the statement it refutes.
-/
namespace Sys2Proof.Machine
open Tests

/-- A SET of the talk class of a desk slot to 0, a message of 11 bytes. -/
def classMessage (d : Desk) : List Byte :=
  messageContent kindSet 0 (be16 (3000 + (SlotId.desk d).number) ++ [0#8, 0#8, 0#8])

/-- What the first frame of a message has brought the receiver. -/
def firstPart (m : List Byte) : List Byte := m.take 7

/-- The lane bytes of the second and last frame of a message of 11 bytes. -/
def lastLane (m : List Byte) : List Byte := 0x02#8 :: (m.drop 7 ++ [0#8, 0#8, 0#8])

/-- Console 5's frame 100 with lane bytes. -/
def frameWith (lane : List Byte) : StageFrame := { next5 with lane := lane }

/-! ## A lane that asks for a path -/

/-- Console 5 in slot 1, three missing periods into the loss of its active path A; its port B holds the frame that follows, which asks
for port C, and C is surplus. -/
def asksForPath : State :=
  let lost := two.modPort .a fun r => { r with missingRun := 3 }
  let held := lost.modPort .b fun r =>
    { r with expected := 101, buffer := [frameWith (0x01#8 :: messageContent kindPathPrefer 0 [2#8])] }
  (held.modPort .c fun _ => lockedPort 5).modSlot .d1 fun r => { r with lastTaken := some 99 }

/-- The fourth missing period takes slot 1 to port B, and the frame returned there takes it on to port C. -/
theorem asksForPath_active :
    ∃ t, exec (.missingFrame .a false) asksForPath = .next t ∧ (t.slot .d1).active = some .c :=
  ⟨_, rfl, by decide +kernel⟩

/-- Port C is the first surplus port of console 5. -/
theorem asksForPath_surplus :
    ((∀ e, LinkPort.c ∉ (asksForPath.slot e).bound) ∧ (asksForPath.port .c).usable = true ∧
      (asksForPath.port .c).identSeen = (asksForPath.slot .d1).ident) ∧
    ∀ x, x.code < LinkPort.c.code → ¬((∀ e, x ∉ (asksForPath.slot e).bound) ∧ (asksForPath.port x).usable = true ∧
      (asksForPath.port x).identSeen = (asksForPath.slot .d1).ident) := by
  refine ⟨⟨fun e => by cases e <;> decide, by decide, by decide⟩, fun x below surplus => ?_⟩
  cases x with
  | a => exact surplus.1 .d1 (by decide)
  | b => exact surplus.1 .d1 (by decide)
  | c => exact absurd below (by decide)
  | d => exact absurd below (by decide)

/-- Refutes O22: slot 1 of `asksForPath` goes to the port that was already bound, and from there, by the request in the frame returned
to it, to the port that was surplus. -/
theorem not_portLossEffect : ¬ Obligations.PortLossEffect := by
  unfold Obligations.PortLossEffect
  intro claim
  have rebound := (claim .a next5 false asksForPath rfl rfl (by decide)).2.2.2
  obtain ⟨surplus, first⟩ := asksForPath_surplus
  obtain ⟨t, ran, -, moved, -⟩ := rebound .d1 .c (attach_of (by decide +kernel)) (fun p => by cases p <;> rfl) (by decide)
    (by decide) surplus first
  obtain ⟨u, ranU, activeU⟩ := asksForPath_active
  have same : t = u := Host.Outcome.next.inj (ran.symm.trans ranU)
  have active := moved .b rfl (by decide) (by decide)
  rw [same, activeU] at active
  exact absurd active (by decide)

/-! ## A lane that writes another slot's talk class -/

/-- Console 5 in slot 1 with a failed window on its active path A, and console 6 in slot 2; port B holds the frame that follows, the last
of a message that writes slot 2's talk class. -/
def writesClass : State :=
  let failed := two.modPort .a fun r => { r with windowPos := 4800, windowCount := 8 }
  let held := failed.modPort .b fun r => { r with expected := 101, buffer := [frameWith (lastLane (classMessage .d2))] }
  let other := (held.modPort .c fun _ => lockedPort 6).modSlot .d2 fun _ => activeSlot 6 [.c]
  (other.modSlot .d1 fun r => { r with lastTaken := some 99 }).modLane .d1 fun l =>
    { l with receiver := some (firstPart (classMessage .d2)) }

/-- The failed window writes slot 2's talk class. -/
theorem writesClass_talkClass : ∃ t, exec (.errorWindowComplete .a) writesClass = .next t ∧ (t.slot .d2).talkClass = 0 :=
  ⟨_, rfl, by decide +kernel⟩

/-- Refutes O23: the window of `writesClass` switches slot 1, and the frame returned to it changes slot 2. -/
theorem not_errorWindowEffect : ¬ Obligations.ErrorWindowEffect := by
  unfold Obligations.ErrorWindowEffect
  intro claim
  have moves := ((claim .a writesClass rfl).2.2 rfl (by decide) (attach_of (by decide +kernel)) (fun p => by cases p <;> rfl)).1
  obtain ⟨t, ran, -, -, others⟩ := moves .d1 .a .b rfl rfl (by decide) (by decide) (by decide) rfl
    (.inl ⟨rfl, ⟨rfl, by decide⟩, rfl⟩)
  obtain ⟨u, ranU, classU⟩ := writesClass_talkClass
  have same : t = u := Host.Outcome.next.inj (ran.symm.trans ranU)
  have stands : (t.slot .d2).talkClass = 2 := by rw [others .d2 (by decide)]; rfl
  rw [same, classU] at stands
  exact absurd stands (by decide)

/-- Console 5 in slot 2 on its ERRORED path C, and console 6 in slot 1 with port A, lost, as its standby; A is one frame short of a lock
on console 5, and that frame is the last of a message that writes slot 1's talk class. -/
def leavesSlot : State :=
  let console6 := ((up.modPort .a fun _ => nearlyLocked).modPort .b fun _ => lockedPort 6).modSlot .d1 fun _ => activeSlot 6 [.b, .a]
  let console5 := (console6.modPort .c fun _ => { lockedPort 5 with state := .errored }).modSlot .d2 fun _ =>
    { activeSlot 5 [.c] with lastTaken := some 99 }
  console5.modLane .d2 fun l => { l with receiver := some (firstPart (classMessage .d1)) }

/-- The lock writes slot 1's talk class. -/
theorem leavesSlot_talkClass :
    ∃ t, exec (.validFrame .a (frameWith (lastLane (classMessage .d1))) false) leavesSlot = .next t ∧ (t.slot .d1).talkClass = 0 :=
  ⟨_, rfl, by decide +kernel⟩

/-- Refutes O27: at the lock in `leavesSlot` port A leaves slot 1 for slot 2, which switches to it and takes the locking frame; the
message that ends there changes slot 1 beyond its bound ports. -/
theorem not_lockEventEffect : ¬ Obligations.LockEventEffect := by
  unfold Obligations.LockEventEffect
  intro claim
  have leaves := (claim.2.1 .a (frameWith (lastLane (classMessage .d1))) false leavesSlot rfl (attach_of (by decide +kernel))
    (fun p => by cases p <;> rfl) rfl (by decide) rfl rfl).1
  obtain ⟨t, ran, left, -⟩ := leaves .d1 (by decide) (by decide)
  obtain ⟨u, ranU, classU⟩ := leavesSlot_talkClass
  have same : t = u := Host.Outcome.next.inj (ran.symm.trans ranU)
  have stands : (t.slot .d1).talkClass = 2 := by rw [left]; rfl
  rw [same, classU] at stands
  exact absurd stands (by decide)

end Sys2Proof.Machine

/-!
The frame periods of a port, as the port records show them (R5 to R11): what each event makes of its own port's record, less what
deliveries and switches write, and that every other port's stands.
-/
namespace Sys2Proof.Machine

/-! ### Port cores that stand -/

/-- The port records are the same, less what deliveries and switches write. -/
def State.SameCores (s t : State) : Prop := ∀ q, (t.port q).core = (s.port q).core

namespace State.SameCores
variable {s t u : State}

theorem of_ports (h : t.ports = s.ports) : s.SameCores t := fun q => by rw [State.port, h, State.port]
theorem refl (s : State) : s.SameCores s := fun _ => rfl
theorem trans (h : s.SameCores t) (h' : t.SameCores u) : s.SameCores u := fun q => Eq.trans (h' q) (h q)
theorem of_moves (h : s.Moves t) : s.SameCores t := h.ports

theorem modSlot (h : s.SameCores t) (d : Desk) (f : Slot → Slot) : s.SameCores (t.modSlot d f) := h

theorem switchover (h : s.SameCores t) (d : Desk) (q : LinkPort) : s.SameCores (t.switchover d q) := by
  refine h.trans fun x => ?_
  cases hf : t.hitlessFrame d q with
  | none =>
    rw [State.switchover_concealed d q t hf]
    rfl
  | some f =>
    rw [State.switchover_hitless d q t hf, State.port_modPort]
    split
    next hx => subst hx; rfl
    · rfl

theorem recheck (h : s.SameCores t) (d : Desk) : s.SameCores (t.recheck d) := h.trans (.of_moves (.recheck d t))

theorem becomeSilent (h : s.SameCores t) (d : Desk) : s.SameCores (t.becomeSilent d) := h.trans (.of_ports (by simp))

theorem revive (h : s.SameCores t) (d : Desk) (p : LinkPort) : s.SameCores (t.revive d p) := h.trans (.of_ports (by simp))

theorem bindStep1 (h : s.SameCores t) (d : Desk) (p : LinkPort) : s.SameCores (t.bindStep1 d p) := by
  have after {u : State} (hu : s.SameCores u) :
      s.SameCores (if (t.slot d).state = .silent then u.revive d p else u.recheck d) := by
    split
    · exact hu.revive _ _
    · exact hu.recheck _
  unfold State.bindStep1
  dsimp only
  split
  · exact after (h.modSlot _ _)
  · split
    · exact after (h.modSlot _ _)
    · exact h

theorem foldBind (d : Desk) : ∀ (l : List LinkPort) {t : State}, s.SameCores t → s.SameCores (State.foldOver (State.bindStep1 d) l t)
  | [], _, h => h
  | q :: l, _, h => foldBind d l (h.bindStep1 d q)

theorem enroll (h : s.SameCores t) (d : Desk) (p : LinkPort) (x : DeskId) (asked : Role) : s.SameCores (t.enroll d p x asked) := by
  unfold State.enroll
  dsimp only
  have hdigest (v : State) : v.SameCores (v.buildDigest (.desk d)) := .of_ports (by simp)
  exact .trans (foldBind d _ (h.trans (.of_ports (by simp)))) (hdigest _)

theorem lockUnbound (h : s.SameCores t) (p : LinkPort) (x : DeskId) (asked : Role) : s.SameCores (t.lockUnbound p x asked) := by
  unfold State.lockUnbound
  split
  · exact h.bindStep1 _ _
  split
  · exact h.enroll _ _ _ _
  split <;> exact h

theorem lockEvent (h : s.SameCores t) (p : LinkPort) (x : DeskId) (asked : Role) : s.SameCores (t.lockEvent p x asked) := by
  unfold State.lockEvent
  split
  · split
    · split
      · exact h.revive _ _
      · exact h.recheck _
    · exact (h.modSlot _ _).lockUnbound _ _ _
  · exact h.lockUnbound _ _ _

end State.SameCores

/-! ### The record of one port -/

/-- One port's record has become another, and the other ports' stand, less what deliveries and switches write. -/
structure State.PortBecomes (p : LinkPort) (x : Port) (s t : State) : Prop where
  own : (t.port p).core = x.core
  others : s.OtherPortsStand p t

namespace State.PortBecomes
variable {p : LinkPort} {x : Port} {s t u : State}

theorem refl (p : LinkPort) (s : State) : s.PortBecomes p (s.port p) s := ⟨rfl, fun _ _ => rfl⟩

theorem sameCores (h : s.PortBecomes p x t) (h' : t.SameCores u) : s.PortBecomes p x u :=
  ⟨(h' p).trans h.own, fun q hq => (h' q).trans (h.others q hq)⟩

theorem moves (h : s.PortBecomes p x t) (h' : t.Moves u) : s.PortBecomes p x u := h.sameCores h'.ports

theorem settled (h : s.PortBecomes p x t) : s.PortBecomes p x t.settleReturned := h.moves (.settleReturned t)

theorem modPort (h : s.PortBecomes p x t) (f : Port → Port) : s.PortBecomes p (f (t.port p)) (t.modPort p f) :=
  ⟨congrArg Port.core (State.port_modPort_same ..), fun q hq => by rw [State.port_modPort, if_neg hq]; exact h.others q hq⟩

theorem congr {y : Port} (h : s.PortBecomes p x t) (hxy : y.core = x.core) : s.PortBecomes p y t := ⟨h.own.trans hxy.symm, h.others⟩

end State.PortBecomes

/-! ### Opening a frame period -/

/-- The record of a port whose frame event opens a period (log 13). -/
def Port.opened (r : Port) : Port := { r with skip := if r.frameSeen then false else r.skip, frameSeen := true }

theorem Port.opened_of_seen {r : Port} (h : r.frameSeen = true) : r.opened = { r with skip := false, frameSeen := true } := by
  simp only [Port.opened, h, if_true]

theorem Port.opened_of_not_seen {r : Port} (h : r.frameSeen = false) : r.opened = { r with frameSeen := true } := by
  simp only [Port.opened, h, Bool.false_eq_true, if_false]

/-- A slot that runs on a port may take a delivery again in a new frame period of the port (log 13). -/
def Slot.reopened (p : LinkPort) (r : Slot) : Slot := if r.active = some p then { r with produced := false, taken := false } else r

/-- The slots at the opening of a new frame period of a port. -/
def State.reopenSlots (p : LinkPort) (s : State) : State :=
  ((s.modSlot .d1 (Slot.reopened p)).modSlot .d2 (Slot.reopened p)).modSlot .d3 (Slot.reopened p)

section
variable {s : State}

theorem State.modSlot_congr {d : Desk} {f g : Slot → Slot} (h : f (s.slot d) = g (s.slot d)) : s.modSlot d f = s.modSlot d g := by
  show { s with slots := s.slots.set d (f (s.slot d)) } = { s with slots := s.slots.set d (g (s.slot d)) }
  rw [h]

theorem State.modSlot_of_fixed {d : Desk} {f : Slot → Slot} (h : f (s.slot d) = s.slot d) : s.modSlot d f = s := by
  have hset : s.slots.set d (f (s.slot d)) = s.slots := by rw [h]; cases d <;> rfl
  show { s with slots := s.slots.set d (f (s.slot d)) } = s
  rw [hset]

theorem State.modPort_congr {p : LinkPort} {f g : Port → Port} (h : f (s.port p) = g (s.port p)) : s.modPort p f = s.modPort p g := by
  show { s with ports := s.ports.set p (f (s.port p)) } = { s with ports := s.ports.set p (g (s.port p)) }
  rw [h]

theorem State.modPort_modPort (p : LinkPort) (f g : Port → Port) : (s.modPort p f).modPort p g = s.modPort p fun r => g (f r) := by
  show { s with ports := (s.ports.set p _).set p (g ((s.modPort p f).port p)) } = { s with ports := s.ports.set p _ }
  rw [State.port_modPort_same]
  cases p <;> rfl

end

theorem State.reopenSlots_eq (p : LinkPort) (s : State) :
    State.foldOver (fun d s => if (s.slot d).active = some p then s.modSlot d fun r => { r with produced := false, taken := false }
      else s) Desk.all s = s.reopenSlots p := by
  have hone (d : Desk) (s : State) :
      (if (s.slot d).active = some p then s.modSlot d fun r => { r with produced := false, taken := false } else s) =
        s.modSlot d (Slot.reopened p) := by
    split
    next h => exact State.modSlot_congr (if_pos h).symm
    next h => exact (State.modSlot_of_fixed (if_neg h)).symm
  show State.foldOver _ [Desk.d1, Desk.d2, Desk.d3] s = _
  simp only [State.foldOver, hone, State.reopenSlots]

theorem State.openPeriod_of_seen {p : LinkPort} {s : State} (h : (s.port p).frameSeen = true) :
    s.openPeriod p = (s.reopenSlots p).modPort p Port.opened := by
  have hmerge : (s.reopenSlots p).modPort p Port.opened =
      (((s.modPort p fun r => { r with skip := false }).reopenSlots p).modPort p fun r => { r with frameSeen := true }) := by
    show (s.reopenSlots p).modPort p Port.opened =
      (((s.reopenSlots p).modPort p fun r => { r with skip := false }).modPort p fun r => { r with frameSeen := true })
    rw [State.modPort_modPort]
    refine State.modPort_congr ?_
    exact Port.opened_of_seen h
  unfold State.openPeriod
  rw [if_pos h, State.reopenSlots_eq, hmerge]

theorem State.openPeriod_of_not_seen {p : LinkPort} {s : State} (h : (s.port p).frameSeen = false) :
    s.openPeriod p = s.modPort p Port.opened := by
  unfold State.openPeriod
  rw [if_neg (by rw [h]; exact Bool.false_ne_true)]
  refine State.modPort_congr ?_
  exact (Port.opened_of_not_seen h).symm

theorem State.openPeriod_port (p : LinkPort) (s : State) : (s.openPeriod p).port p = (s.port p).opened := by
  cases h : (s.port p).frameSeen with
  | true => rw [State.openPeriod_of_seen h, State.port_modPort_same]; rfl
  | false => rw [State.openPeriod_of_not_seen h, State.port_modPort_same]

theorem State.openPeriod_slot (p : LinkPort) (s : State) (d : Desk) :
    (s.openPeriod p).slot d = if (s.port p).frameSeen then (s.slot d).reopened p else s.slot d := by
  cases h : (s.port p).frameSeen with
  | true => rw [State.openPeriod_of_seen h]; cases d <;> rfl
  | false => rw [State.openPeriod_of_not_seen h]; rfl

theorem State.openPeriod_lane (p : LinkPort) (s : State) (d : Desk) : (s.openPeriod p).lane d = s.lane d := by
  cases h : (s.port p).frameSeen with
  | true => rw [State.openPeriod_of_seen h]; rfl
  | false => rw [State.openPeriod_of_not_seen h]; rfl

theorem State.openPeriod_port_ne {p q : LinkPort} (hq : q ≠ p) (s : State) : (s.openPeriod p).port q = s.port q := by
  cases h : (s.port p).frameSeen with
  | true => rw [State.openPeriod_of_seen h, State.port_modPort, if_neg hq]; rfl
  | false => rw [State.openPeriod_of_not_seen h, State.port_modPort, if_neg hq]

end Sys2Proof.Machine

/-!
The frame periods of SEEKING, LOCKED and ERRORED ports (R5 to R12).
-/
namespace Sys2Proof.Machine

/-! ### The parts of a frame period -/

theorem State.errorWindowComplete_of_not_due {p : LinkPort} {s : State} (h : (s.port p).windowPos < 4800) :
    s.errorWindowComplete p = s := if_neg fun hdue => absurd (hdue.2 : 4800 ≤ (s.port p).windowPos) (by omega)

theorem Port.deliver_core (own : Delivery) (r : Port) : (r.deliver own).1.core = r.core := by
  unfold Port.deliver
  split
  · rfl
  · split
    · rfl
    · split <;> rfl

/-- A port record `r` delivers, in a period that itself would deliver `own`, and the slot on the port takes what it delivers (R12, R30). -/
def State.deliverPeriod (p : LinkPort) (r : Port) (own : Delivery) (s : State) : State :=
  match (r.deliver own).2 with
  | some dl => (s.modPort p fun _ => (r.deliver own).1).takeDelivery p dl
  | none => s.modPort p fun _ => (r.deliver own).1

theorem State.PortBecomes.deliverPeriod {p : LinkPort} {x : Port} {s t : State} (h : s.PortBecomes p x t) (r : Port) (own : Delivery) :
    s.PortBecomes p r (t.deliverPeriod p r own) := by
  have hrecord : s.PortBecomes p r (t.modPort p fun _ => (r.deliver own).1) := (h.modPort _).congr (Port.deliver_core own r).symm
  unfold State.deliverPeriod
  split
  · exact hrecord.moves (.takeDelivery ..)
  · exact hrecord

theorem State.PortBecomes.openPeriod (p : LinkPort) (s : State) : s.PortBecomes p (s.port p).opened (s.openPeriod p) :=
  ⟨congrArg Port.core (State.openPeriod_port p s), fun _ hq => congrArg Port.core (State.openPeriod_port_ne hq s)⟩

/-- A frame period in which no window completes: the record is judged, the port delivers, and the slot takes the delivery. -/
theorem State.lockedPeriod_eq {p : LinkPort} {s : State} (judge : Port → Port) (own : Port → Delivery) (lost : Port → Bool) (w : Bool)
    (hpos : (s.port p).windowPos < 4800) :
    s.lockedPeriod p judge own lost w =
      if lost (judge (s.port p)).countPeriod then
        (s.deliverPeriod p (judge (s.port p)).countPeriod (own (s.port p))).loseAtPeriodEnd p w
      else s.deliverPeriod p (judge (s.port p)).countPeriod (own (s.port p)) := by
  unfold State.lockedPeriod State.deliverPeriod
  rw [State.errorWindowComplete_of_not_due hpos] <;> rfl

theorem Port.not_usable_of_seeking {r : Port} (h : r.state = .seeking) : r.usable = false := by
  simp [Port.usable, h]

theorem Port.state_of_usable {r : Port} (h : r.usable = true) : r.state = .locked ∨ r.state = .errored := by
  simpa [Port.usable] using h

/-! ### The events by port state -/

section
variable (p : LinkPort) (f : StageFrame) (w : Bool) {s : State}

/-- The record a valid frame of the identity seen leaves (R6, R7, R9). -/
def Port.afterValid (r : Port) : Port := (Port.accept f r.opened).countPeriod
/-- The record a CRC-failed frame leaves (R8). -/
def Port.afterCrc (r : Port) : Port := r.opened.crcFailed.countPeriod
/-- The record a missing frame leaves (R7). -/
def Port.afterMissing (r : Port) : Port := r.opened.missing.countPeriod
/-- The record a frame of another identity leaves (R6). -/
def Port.afterMismatch (r : Port) : Port := r.opened.mismatch.countPeriod

/-- What a period that brings no frame of its own delivers: the held samples under the expected number (R12). -/
def Port.heldOwn (r : Port) : Delivery := r.heldDelivery r.expected

variable {p f w}

theorem State.validFrame_of_usable (hu : (s.port p).usable = true) (hpos : (s.port p).windowPos < 4800)
    (hident : (s.port p).identSeen = some f.ident) :
    s.validFrame p f w = (s.openPeriod p).deliverPeriod p ((s.port p).afterValid f) (.ofFrame f) := by
  have hperiod : (s.openPeriod p).lockedPeriod p (Port.accept f) (fun _ => .ofFrame f) (fun _ => false) false =
      (s.openPeriod p).deliverPeriod p ((s.port p).afterValid f) (.ofFrame f) := by
    rw [State.lockedPeriod_eq _ _ _ _ (by rw [State.openPeriod_port]; exact hpos), State.openPeriod_port]
    exact if_neg Bool.false_ne_true
  unfold State.validFrame
  dsimp only
  rcases Port.state_of_usable hu with h | h <;> rw [h] <;> exact (if_pos hident).trans hperiod

theorem State.validFrame_of_mismatch (hu : (s.port p).usable = true) (hpos : (s.port p).windowPos < 4800)
    (hident : (s.port p).identSeen ≠ some f.ident) (hrun : (s.port p).mismatchRun < 3) :
    s.validFrame p f w = (s.openPeriod p).deliverPeriod p (s.port p).afterMismatch (s.port p).opened.heldOwn := by
  have hperiod : (s.openPeriod p).lockedPeriod p Port.mismatch (fun r => r.heldDelivery r.expected)
      (fun r => decide (lossRun ≤ r.mismatchRun)) w =
      (s.openPeriod p).deliverPeriod p (s.port p).afterMismatch (s.port p).opened.heldOwn := by
    rw [State.lockedPeriod_eq _ _ _ _ (by rw [State.openPeriod_port]; exact hpos), State.openPeriod_port]
    refine if_neg fun h => ?_
    have h4 : 4 ≤ (s.port p).mismatchRun + 1 := of_decide_eq_true h
    omega
  unfold State.validFrame
  dsimp only
  rcases Port.state_of_usable hu with h | h <;> rw [h] <;> exact (if_neg hident).trans hperiod

theorem State.crcFailedFrame_of_usable (hu : (s.port p).usable = true) (hpos : (s.port p).windowPos < 4800) :
    s.crcFailedFrame p = (s.openPeriod p).deliverPeriod p (s.port p).afterCrc (s.port p).opened.heldOwn := by
  have hperiod : (s.openPeriod p).lockedPeriod p Port.crcFailed (fun r => r.heldDelivery r.expected) (fun _ => false) false =
      (s.openPeriod p).deliverPeriod p (s.port p).afterCrc (s.port p).opened.heldOwn := by
    rw [State.lockedPeriod_eq _ _ _ _ (by rw [State.openPeriod_port]; exact hpos), State.openPeriod_port]
    exact if_neg Bool.false_ne_true
  unfold State.crcFailedFrame
  dsimp only
  rcases Port.state_of_usable hu with h | h <;> rw [h] <;> exact hperiod

theorem State.missingFrame_of_usable (hu : (s.port p).usable = true) (hpos : (s.port p).windowPos < 4800)
    (hrun : (s.port p).missingRun < 3) :
    s.missingFrame p w = (s.openPeriod p).deliverPeriod p (s.port p).afterMissing (s.port p).opened.heldOwn := by
  have hperiod : (s.openPeriod p).missingPeriod p w =
      (s.openPeriod p).deliverPeriod p (s.port p).afterMissing (s.port p).opened.heldOwn := by
    unfold State.missingPeriod
    rw [State.lockedPeriod_eq _ _ _ _ (by rw [State.openPeriod_port]; exact hpos), State.openPeriod_port]
    refine (if_pos ?_).trans (if_neg Bool.false_ne_true)
    show (s.port p).missingRun + 1 < 4
    omega
  unfold State.missingFrame
  dsimp only
  rcases Port.state_of_usable hu with h | h <;> rw [h] <;> exact hperiod

theorem State.missingFrame_of_fourth (hu : (s.port p).usable = true) (hpos : (s.port p).windowPos < 4800)
    (hrun : 3 ≤ (s.port p).missingRun) :
    s.missingFrame p w = ((s.openPeriod p).modPort p fun _ => (s.port p).afterMissing).loseAtPeriodEnd p w := by
  have hperiod : (s.openPeriod p).missingPeriod p w =
      ((s.openPeriod p).modPort p fun _ => (s.port p).afterMissing).loseAtPeriodEnd p w := by
    unfold State.missingPeriod State.fourthMissing
    rw [State.errorWindowComplete_of_not_due (by rw [State.openPeriod_port]; exact hpos), State.openPeriod_port]
    refine (if_neg ?_).trans (congrArg (State.loseAtPeriodEnd p w) (State.modPort_congr ?_))
    · show ¬(s.port p).missingRun + 1 < 4
      omega
    · rw [State.openPeriod_port]
      rfl
  unfold State.missingFrame
  dsimp only
  rcases Port.state_of_usable hu with h | h <;> rw [h] <;> exact hperiod

end

/-! ### The records they leave -/

theorem Port.afterValid_core (f : StageFrame) (r : Port) :
    (r.afterValid f).core = { r with
      expected := f.number + 1, missingRun := 0, mismatchRun := 0, windowPos := r.windowPos + 1,
      buffer := if f.number = r.expected then
          (r.buffer.filter fun (g : StageFrame) => decide ((f.number - g.number).toNat < 64 ∧ g.number ≠ f.number)) ++ [f]
        else [f],
      frameSeen := true }.core := by
  unfold Port.afterValid Port.accept
  show Port.core (Port.countPeriod { Port.store f (if f.number = r.expected then r.opened else _) with
    expected := _, missingRun := _, mismatchRun := _ }) = _
  split <;> rfl

theorem Port.afterValid_bufLast (f : StageFrame) {r : Port} (h : r.bufLast = none) : (r.afterValid f).bufLast = none := by
  show (if f.number = r.expected then r.opened else _ : Port).bufLast = none
  split
  · exact h
  · rfl

theorem Port.afterValid_captured (f : StageFrame) {r : Port} (h : r.captured = none) : (r.afterValid f).captured = none := by
  show (if f.number = r.expected then r.opened else _ : Port).captured = none
  split
  · exact h
  · rfl

/-! ### Periods that bring no switch and no message -/

namespace State.SameButLinks
variable {s t u : State}

theorem refl (s : State) : s.SameButLinks s := rfl
theorem trans (h : s.SameButLinks t) (h' : t.SameButLinks u) : s.SameButLinks u :=
  Eq.trans h' (congrArg (fun v : State => { v with ports := u.ports, slots := u.slots, lanes := u.lanes }) h)
theorem modPort (h : s.SameButLinks t) (p : LinkPort) (f : Port → Port) : s.SameButLinks (t.modPort p f) := h.trans rfl
theorem modSlot (h : s.SameButLinks t) (d : Desk) (f : Slot → Slot) : s.SameButLinks (t.modSlot d f) := h.trans rfl
theorem modLane (h : s.SameButLinks t) (d : Desk) (f : Lane → Lane) : s.SameButLinks (t.modLane d f) := h.trans rfl

theorem openPeriod (p : LinkPort) (s : State) : s.SameButLinks (s.openPeriod p) := by
  cases h : (s.port p).frameSeen with
  | true =>
    rw [State.openPeriod_of_seen h]
    exact ((((refl s).modSlot _ _).modSlot _ _).modSlot _ _).modPort _ _
  | false =>
    rw [State.openPeriod_of_not_seen h]
    exact (refl s).modPort _ _

end State.SameButLinks

/-- The end of a fade is overdue (R33, R34; log 2). -/
def Slot.FadeOver (r : Slot) : Prop := (r.conceal = .fadingOut ∨ r.conceal = .fadingIn) ∧ 64 ≤ r.step

theorem Slot.not_fadeOver_of_none {r : Slot} (h : r.conceal = .none) : ¬r.FadeOver := fun hover => by
  rcases hover.1 with h' | h' <;> rw [h] at h' <;> cases h'

section
variable {d : Desk} {s : State}

theorem State.fadeEnds_of_not_over (h : ¬(s.slot d).FadeOver) : (s.fadeOutEnd d).fadeInEnd d = s := by
  have hout : s.fadeOutEnd d = s := if_neg fun hdue => h ⟨.inl hdue.1, hdue.2⟩
  rw [hout]
  exact if_neg fun hdue => h ⟨.inr hdue.1, hdue.2⟩

/-- A delivery of a port whose slot has no fade to end. -/
theorem State.takeDelivery_of_bound {p : LinkPort} {dl : Delivery} (hbound : s.boundTo p = some d) (hfade : ¬(s.slot d).FadeOver) :
    s.takeDelivery p dl = if s.awaits d p then s.absorb d dl else s := by
  unfold State.takeDelivery
  rw [hbound]
  dsimp only
  rw [State.fadeEnds_of_not_over hfade]
  split <;> rfl

/-- Lane bytes that complete no message change the receiver alone. -/
theorem State.feedReceiver_of_no_message {lane : Option (List Byte)} {r : Option (List Byte)}
    (h : settleMessage (assemble (s.lane d).receiver lane) = (r, none)) :
    s.feedReceiver d lane = s.modLane d fun l => { l with receiver := r } := by
  unfold State.feedReceiver
  rw [h]

end

theorem assemble_idle {held : Option (List Byte)} {bytes : List Byte} (h : nth bytes 0 0 = 0x00#8) : assemble held (some bytes) = none := by
  have hcode : nth bytes 0 laneIdle = 0x00#8 := h
  unfold assemble
  dsimp only
  rw [hcode]
  rfl

/-- A delivery whose lane bytes begin and end no message (R20). -/
def Delivery.Mute (dl : Delivery) : Prop := ∀ held, assemble held dl.lane = none

theorem State.absorb_of_mute {dl : Delivery} (h : dl.Mute) (d : Desk) (s : State) :
    s.absorb d dl = (s.modSlot d (Slot.absorb dl)).modLane d fun l => { l with receiver := none } := by
  unfold State.absorb
  exact State.feedReceiver_of_no_message (by rw [h]; rfl)

section
variable {p : LinkPort} {s : State}

/-- In a period without fades a mute delivery changes a slot and its receiver, and no port. -/
theorem State.takeDelivery_of_mute {dl : Delivery} (hfade : ∀ d, (s.slot d).conceal = .none) (hmute : dl.Mute) :
    s.SameButLinks (s.takeDelivery p dl) ∧ (s.takeDelivery p dl).ports = s.ports := by
  cases hbound : s.boundTo p with
  | none =>
    unfold State.takeDelivery
    rw [hbound]
    exact ⟨.refl s, rfl⟩
  | some d =>
    rw [State.takeDelivery_of_bound hbound (Slot.not_fadeOver_of_none (hfade d)), State.absorb_of_mute hmute]
    split
    · exact ⟨((State.SameButLinks.refl s).modSlot _ _).modLane _ _, rfl⟩
    · exact ⟨.refl s, rfl⟩

theorem Slot.reopened_conceal (r : Slot) : (r.reopened p).conceal = r.conceal := by
  unfold Slot.reopened
  split <;> rfl

/-- A period of a quiet port leaves all but the links' records. -/
theorem State.QuietLinks.deliverPeriod {r : Port} {own : Delivery} (h : s.QuietLinks p) (hlast : r.bufLast = none)
    (hcaptured : r.captured = none) (hmute : own.Mute) : s.SameButLinks ((s.openPeriod p).deliverPeriod p r own).settleReturned := by
  obtain ⟨hfade, hnone, -⟩ := h
  have hopen : (s.openPeriod p).deliverPeriod p r own =
      ((s.openPeriod p).modPort p fun _ => { r with held := own.audio }).takeDelivery p own := by
    unfold State.deliverPeriod Port.deliver
    rw [hlast]
  have hfade' (d : Desk) : (((s.openPeriod p).modPort p fun _ => { r with held := own.audio }).slot d).conceal = .none := by
    rw [State.modPort_slot, State.openPeriod_slot]
    split
    · rw [Slot.reopened_conceal]
      exact hfade d
    · exact hfade d
  obtain ⟨hsame, hports⟩ := State.takeDelivery_of_mute (p := p) hfade' hmute
  have hcaptures (q : LinkPort) : (((s.openPeriod p).modPort p fun _ => { r with held := own.audio }).port q).captured = none := by
    rw [State.port_modPort]
    split
    · exact hcaptured
    next hq =>
      rw [State.openPeriod_port_ne hq]
      exact hnone q
  rw [hopen, State.settleReturned_of_none (State.NoneReturned.of_ports hcaptures hports)]
  exact ((State.SameButLinks.openPeriod p s).modPort _ _).trans hsame

end

/-! ### The statements -/

theorem Port.mute_heldOwn (r : Port) : r.heldOwn.Mute := fun _ => rfl

/-- A frame that continues the lock run (R5). -/
theorem Port.seek_of_next {f : StageFrame} {r : Port} (hrun : 0 < r.lockRun) (hnumber : f.number = r.seekNumber + 1)
    (hident : f.ident = r.seekIdent) : r.seek f = { r with lockRun := r.lockRun + 1, seekNumber := f.number } := by
  unfold Port.seek
  rw [if_pos ⟨hrun, hnumber, hident⟩, hident]

section
variable {p : LinkPort} {f : StageFrame} {w : Bool} {s t : State} (hpower : s.powered = true)
include hpower

theorem exec_validFrame_of_eq (h : s.validFrame p f w = t) : exec (.validFrame p f w) s = .next t.settleReturned :=
  (exec_of_powered rfl hpower).trans (congrArg (fun v : State => Host.Outcome.next v.settleReturned) h)

theorem exec_crcFailedFrame_of_eq (h : s.crcFailedFrame p = t) : exec (.crcFailedFrame p) s = .next t.settleReturned :=
  (exec_of_powered rfl hpower).trans (congrArg (fun v : State => Host.Outcome.next v.settleReturned) h)

theorem exec_missingFrame_of_eq (h : s.missingFrame p w = t) : exec (.missingFrame p w) s = .next t.settleReturned :=
  (exec_of_powered rfl hpower).trans (congrArg (fun v : State => Host.Outcome.next v.settleReturned) h)

end

/-- Settles O19: a port that is DARK takes nothing, and one that is SEEKING counts its run until it locks. -/
theorem seekingAndLock : Obligations.SeekingAndLock := by
  have hopened (p : LinkPort) (s : State) (f : Port → Port) :
      s.PortBecomes p (f (s.port p).opened) ((s.openPeriod p).modPort p f).settleReturned := by
    rw [← State.openPeriod_port]
    exact ((State.PortBecomes.openPeriod p s).modPort f).settled
  have hseek (p : LinkPort) (f : StageFrame) (w : Bool) (s : State) (hpower : s.powered = true) (hstate : (s.port p).state = .seeking) :
      exec (.validFrame p f w) s = .next ((s.openPeriod p).seekFrame p f).settleReturned := by
    refine exec_validFrame_of_eq hpower ?_
    unfold State.validFrame
    rw [hstate]
  have hshort (p : LinkPort) (f : StageFrame) (s : State) (hrun : ((s.port p).seek f).lockRun < 32) :
      s.PortBecomes p { (s.port p).seek f with frameSeen := true } ((s.openPeriod p).seekFrame p f).settleReturned := by
    have hseekFrame : (s.openPeriod p).seekFrame p f = (s.openPeriod p).modPort p fun _ => (s.port p).opened.seek f := by
      unfold State.seekFrame
      rw [State.openPeriod_port]
      exact if_pos hrun
    rw [hseekFrame]
    exact (hopened p s fun _ => (s.port p).opened.seek f).congr rfl
  refine ⟨fun p f w s hpower => ⟨fun hdark => ?_, fun hstate => ⟨?_, ?_, fun hrun => ?_, fun hrun => ?_⟩⟩,
    fun p f w s hpower hstate hrun hnumber hident => ?_⟩
  · refine ⟨exec_validFrame_of_eq hpower ?_, exec_crcFailedFrame_of_eq hpower ?_, exec_missingFrame_of_eq hpower ?_⟩
    · unfold State.validFrame
      rw [hdark]
    · unfold State.crcFailedFrame
      rw [hdark]
    · unfold State.missingFrame
      rw [hdark]
  · obtain ⟨hown, hothers⟩ := hopened p s fun r => { r with lockRun := 0 }
    refine ⟨_, exec_crcFailedFrame_of_eq hpower ?_, hothers, hown.trans rfl⟩
    unfold State.crcFailedFrame
    rw [hstate]
  · obtain ⟨hown, hothers⟩ := hopened p s fun r => { r with lockRun := 0 }
    refine ⟨_, exec_missingFrame_of_eq hpower ?_, hothers, hown.trans rfl⟩
    unfold State.missingFrame
    rw [hstate]
  · obtain ⟨hpos, hless, hnumber, hident⟩ := hrun
    have hseen := Port.seek_of_next hpos hnumber hident
    obtain ⟨hown, hothers⟩ := hshort p f s (by rw [hseen]; show (s.port p).lockRun + 1 < 32; omega)
    refine ⟨_, hseek p f w s hpower hstate, hothers, hown.trans ?_⟩
    rw [hseen]
  · have hseen : (s.port p).seek f = { s.port p with lockRun := 1, seekNumber := f.number, seekIdent := f.ident } := by
      unfold Port.seek
      rw [if_neg hrun]
    obtain ⟨hown, hothers⟩ := hshort p f s (by rw [hseen]; show 1 < 32; omega)
    refine ⟨_, hseek p f w s hpower hstate, hothers, hown.trans ?_⟩
    rw [hseen]
  · have hseen := Port.seek_of_next (by omega) hnumber hident
    have hlock : (s.openPeriod p).seekFrame p f =
        (((((s.openPeriod p).modPort p fun _ => ((s.port p).opened.seek f).lock f).lockEvent p f.ident (roleOfCode f.roleCode)).settleReturned).takeDelivery
          p (.ofFrame f)) := by
      unfold State.seekFrame
      rw [State.openPeriod_port]
      refine if_neg ?_
      have hrun' : ((s.port p).opened.seek f).lockRun = (s.port p).lockRun + 1 := congrArg Port.lockRun hseen
      rw [hrun']
      show ¬(s.port p).lockRun + 1 < 32
      omega
    have hbecomes : s.PortBecomes p (((s.port p).opened.seek f).lock f) ((s.openPeriod p).seekFrame p f) := by
      rw [hlock]
      have hrecord := (State.PortBecomes.openPeriod p s).modPort fun _ => ((s.port p).opened.seek f).lock f
      exact ((hrecord.sameCores (State.SameCores.lockEvent (.refl _) _ _ _)).moves (.settleReturned _)).moves (.takeDelivery ..)
    obtain ⟨hown, hothers⟩ := hbecomes.settled
    refine ⟨_, hseek p f w s hpower hstate, hothers, hown.trans ?_⟩
    have hfields : ((s.port p).opened.seek f).lock f = { ((s.port p).seek f).lock f with frameSeen := true } := rfl
    rw [hfields, hseen]
    rfl

/-- Settles O20: each period by the record it leaves, and what a quiet port leaves besides. -/
theorem lockedPeriods : Obligations.LockedPeriods := by
  intro p f w s hpower hu hpos
  have hbecomes (r : Port) (own : Delivery) : s.PortBecomes p r ((s.openPeriod p).deliverPeriod p r own).settleReturned :=
    ((State.PortBecomes.openPeriod p s).deliverPeriod r own).settled
  have hquiet {r : Port} {own : Delivery} (h : s.QuietLinks p) (hkeeps : r.bufLast = (s.port p).bufLast ∧ r.captured = (s.port p).captured)
      (hmute : own.Mute) : s.SameButLinks ((s.openPeriod p).deliverPeriod p r own).settleReturned :=
    h.deliverPeriod (hkeeps.1.trans h.2.2) (hkeeps.2.trans (h.2.1 p)) hmute
  refine ⟨fun hident => ?_, ?_, fun hrun => ?_, fun hident hrun => ?_⟩
  · obtain ⟨hown, hothers⟩ := hbecomes ((s.port p).afterValid f) (.ofFrame f)
    refine ⟨_, exec_validFrame_of_eq hpower (State.validFrame_of_usable hu hpos hident), hothers, hown.trans (Port.afterValid_core ..),
      fun h hidle => h.deliverPeriod (Port.afterValid_bufLast f h.2.2) (Port.afterValid_captured f (h.2.1 p)) fun held => assemble_idle hidle⟩
  · obtain ⟨hown, hothers⟩ := hbecomes (s.port p).afterCrc (s.port p).opened.heldOwn
    exact ⟨_, exec_crcFailedFrame_of_eq hpower (State.crcFailedFrame_of_usable hu hpos), hothers, hown.trans rfl,
      fun h => hquiet h ⟨rfl, rfl⟩ (Port.mute_heldOwn _)⟩
  · obtain ⟨hown, hothers⟩ := hbecomes (s.port p).afterMissing (s.port p).opened.heldOwn
    exact ⟨_, exec_missingFrame_of_eq hpower (State.missingFrame_of_usable hu hpos hrun), hothers, hown.trans rfl,
      fun h => hquiet h ⟨rfl, rfl⟩ (Port.mute_heldOwn _)⟩
  · obtain ⟨hown, hothers⟩ := hbecomes (s.port p).afterMismatch (s.port p).opened.heldOwn
    exact ⟨_, exec_validFrame_of_eq hpower (State.validFrame_of_mismatch hu hpos hident hrun), hothers, hown.trans rfl,
      fun h => hquiet h ⟨rfl, rfl⟩ (Port.mute_heldOwn _)⟩

end Sys2Proof.Machine

/-!
Deliveries as the slot on the port sees them (R12, R14, R30), and the frame a hitless switch returned (R32).
-/
namespace Sys2Proof.Machine

/-! ### What one slot's delivery leaves of the others -/

/-- The link records have changed at one desk slot and its bound ports alone, but for talk classes. -/
structure State.OnlyDesk (d : Desk) (s t : State) : Prop where
  slots : ∀ e, e ≠ d → (t.slot e).lessClass = (s.slot e).lessClass
  ports : ∀ q, q ∉ (s.slot d).bound → t.port q = s.port q
  bound : (t.slot d).bound = (s.slot d).bound

namespace State.OnlyDesk
variable {d : Desk} {s t u : State}

theorem refl (d : Desk) (s : State) : s.OnlyDesk d s := ⟨fun _ _ => rfl, fun _ _ => rfl, rfl⟩

theorem trans (h : s.OnlyDesk d t) (h' : t.OnlyDesk d u) : s.OnlyDesk d u :=
  ⟨fun e he => Eq.trans (h'.slots e he) (h.slots e he), fun q hq => Eq.trans (h'.ports q (by rwa [h.bound])) (h.ports q hq),
    Eq.trans h'.bound h.bound⟩

theorem sameLinks (h : s.SameLinks t) : s.OnlyDesk d t :=
  ⟨fun e _ => h.slots e, fun q _ => by rw [State.port, h.ports, State.port], eq_of_copy (h.slots d) Slot.bound fun _ => rfl⟩

theorem modSlot {f : Slot → Slot} (hf : (f (s.slot d)).bound = (s.slot d).bound) : s.OnlyDesk d (s.modSlot d f) :=
  ⟨fun e he => by rw [State.slot_modSlot, if_neg he], fun _ _ => rfl, by rw [State.slot_modSlot_same, hf]⟩

theorem modPort {q : LinkPort} (hq : q ∈ (s.slot d).bound) (f : Port → Port) : s.OnlyDesk d (s.modPort q f) :=
  ⟨fun _ _ => rfl, fun x hx => by rw [State.port_modPort, if_neg fun he : x = q => hx (he ▸ hq)], rfl⟩

theorem modLane (e : Desk) (f : Lane → Lane) : s.OnlyDesk d (s.modLane e f) := ⟨fun _ _ => rfl, fun _ _ => rfl, rfl⟩

theorem switchover {q : LinkPort} (hq : q ∈ (s.slot d).bound) : s.OnlyDesk d (s.switchover d q) := by
  have hmove : s.OnlyDesk d (s.modSlot d (Slot.moved q)) := modSlot rfl
  cases h : s.hitlessFrame d q with
  | none =>
    rw [State.switchover_concealed d q s h]
    exact (hmove.trans (modLane d _)).trans (modSlot rfl)
  | some f =>
    rw [State.switchover_hitless d q s h]
    exact hmove.trans (modPort (by rw [State.slot_modSlot_same]; exact hq) _)

end State.OnlyDesk

/-! ### A slot takes a delivery -/

/-- The state in which a slot has taken a delivery and its receiver holds what the lane bytes left. -/
def State.absorbed (d : Desk) (dl : Delivery) (s : State) : State :=
  (s.modSlot d (Slot.absorb dl)).modLane d fun l => { l with receiver := (settleMessage (assemble (s.lane d).receiver dl.lane)).1 }

theorem State.absorbed_slot (d : Desk) (dl : Delivery) (s : State) : (s.absorbed d dl).slot d = (s.slot d).absorb dl :=
  State.slot_modSlot_same ..

/-- A delivery that completes no message. -/
theorem State.absorb_of_no_message {d : Desk} {dl : Delivery} {s : State} {r : Option (List Byte)}
    (h : settleMessage (assemble (s.lane d).receiver dl.lane) = (r, none)) : s.absorb d dl = s.absorbed d dl := by
  unfold State.absorb State.absorbed
  rw [h]
  exact State.feedReceiver_of_no_message h

/-- A delivery at large: the message its lane bytes complete leaves the link records, but for talk classes, or moves the slot (R20, R37). -/
theorem State.absorb_cases (d : Desk) (dl : Delivery) (s : State) :
    (s.absorbed d dl).SameLinks (s.absorb d dl) ∨
      ∃ q, (s.absorbed d dl).Preferable d q ∧ ((s.absorbed d dl).switchover d q).SameLinks (s.absorb d dl) := by
  have hreceiver : s.absorb d dl = State.feedReceiver d dl.lane (s.modSlot d (Slot.absorb dl)) := rfl
  rw [hreceiver]
  unfold State.feedReceiver
  dsimp only
  split
  · exact State.takeRequest_desk_cases d _ _ (s.absorbed d dl)
  · exact .inl (.refl (s.absorbed d dl))

theorem Slot.absorb_bound (dl : Delivery) (r : Slot) : (r.absorb dl).bound = r.bound := Slot.seat_bound (State.Moves.seat_absorb dl r).1
theorem Slot.absorb_active (dl : Delivery) (r : Slot) : (r.absorb dl).active = r.active := (State.Moves.seat_absorb dl r).2

theorem State.OnlyDesk.absorbed (d : Desk) (dl : Delivery) (s : State) : s.OnlyDesk d (s.absorbed d dl) :=
  State.OnlyDesk.trans (.modSlot (Slot.absorb_bound ..)) (.modLane d _)

theorem State.OnlyDesk.absorb (d : Desk) (dl : Delivery) (s : State) : s.OnlyDesk d (s.absorb d dl) := by
  rcases s.absorb_cases d dl with h | ⟨q, hq, h⟩
  · exact .trans (.absorbed ..) (.sameLinks h)
  · exact .trans (.absorbed ..) (.trans (.switchover hq.1) (.sameLinks h))

/-- What stands in a slot's record when it has taken a delivery that made it `x`: a message in the lane bytes can still move the slot, if
it does not conceal (R30, R37). -/
structure State.Took (d : Desk) (x : Slot) (t : State) : Prop where
  samples : (t.slot d).samples = x.samples
  lastTaken : (t.slot d).lastTaken = x.lastTaken
  taken : (t.slot d).taken = true
  produced : (t.slot d).produced = true
  concealing : x.conceal ≠ .none → (t.slot d).lessClass = x.lessClass

section
variable {d : Desk} {x : Slot} {s t : State}

theorem State.Took.of_lessClass (h : s.Took d x) (hslot : (t.slot d).lessClass = (s.slot d).lessClass) : t.Took d x where
  samples := (eq_of_copy hslot Slot.samples fun _ => rfl).trans h.samples
  lastTaken := (eq_of_copy hslot Slot.lastTaken fun _ => rfl).trans h.lastTaken
  taken := (eq_of_copy hslot Slot.taken fun _ => rfl).trans h.taken
  produced := (eq_of_copy hslot Slot.produced fun _ => rfl).trans h.produced
  concealing hc := hslot.trans (h.concealing hc)

theorem Slot.absorb_taken (dl : Delivery) (r : Slot) : (r.absorb dl).taken = true := rfl

theorem Slot.absorb_produced (dl : Delivery) (r : Slot) : (r.absorb dl).produced = true := by
  unfold Slot.absorb
  dsimp only
  split
  · assumption
  · unfold Slot.takeAudio
    split
    · rfl
    · rfl
    · split <;> rfl
    · rfl

theorem State.Took.absorb (d : Desk) (dl : Delivery) (s : State) : (s.absorb d dl).Took d ((s.slot d).absorb dl) := by
  have habsorbed : (s.absorbed d dl).Took d ((s.slot d).absorb dl) := by
    have hslot := s.absorbed_slot d dl
    exact { samples := by rw [hslot], lastTaken := by rw [hslot], taken := by rw [hslot]; rfl,
            produced := by rw [hslot]; exact Slot.absorb_produced .., concealing := fun _ => by rw [hslot] }
  rcases s.absorb_cases d dl with h | ⟨q, hq, h⟩
  · exact habsorbed.of_lessClass (h.slots d)
  · refine State.Took.of_lessClass ?_ (h.slots d)
    have hquiet : ((s.slot d).absorb dl).conceal = .none := by rw [← s.absorbed_slot d dl]; exact hq.2.2.2
    have hslot := State.slot_switchover_same d q (s.absorbed d dl)
    rw [s.absorbed_slot d dl] at hslot
    split at hslot
    · exact { samples := by rw [hslot]; rfl, lastTaken := by rw [hslot]; rfl, taken := by rw [hslot]; rfl,
              produced := by rw [hslot]; exact Slot.absorb_produced .., concealing := fun hc => absurd hquiet hc }
    · exact { samples := by rw [hslot]; rfl, lastTaken := by rw [hslot]; rfl, taken := by rw [hslot]; rfl,
              produced := by rw [hslot]; rfl, concealing := fun hc => absurd hquiet hc }

/-- The port that a slot runs on stands when the slot takes a delivery. -/
theorem State.port_absorb {p : LinkPort} (hactive : (s.slot d).active = some p) (dl : Delivery) : (s.absorb d dl).port p = s.port p := by
  rcases s.absorb_cases d dl with h | ⟨q, ⟨-, hne, -⟩, h⟩
  · rw [State.port, h.ports]
    rfl
  · have hqp : p ≠ q := by
      rintro rfl
      rw [s.absorbed_slot d dl, Slot.absorb_active, hactive] at hne
      exact hne rfl
    rw [State.port, h.ports]
    show ((s.absorbed d dl).switchover d q).port p = _
    cases hf : (s.absorbed d dl).hitlessFrame d q with
    | none =>
      rw [State.switchover_concealed d q _ hf]
      rfl
    | some f =>
      rw [State.switchover_hitless d q _ hf, State.port_modPort, if_neg hqp]
      rfl

end

/-! ### Paths -/

/-- Every active path is bound, and no port to two slots (R22, R31). -/
structure State.Paths (s : State) : Prop where
  bound : ∀ d q, (s.slot d).active = some q → q ∈ (s.slot d).bound
  oneSlot : ∀ d e q, q ∈ (s.slot d).bound → q ∈ (s.slot e).bound → d = e

section
variable {s t : State}

theorem State.AttachLawful.paths (h : s.AttachLawful) : s.Paths where
  bound d q hactive := by
    by_cases hstate : (s.slot d).state = .active
    · obtain ⟨p, hp, hbound, -⟩ := h.activePath d hstate
      cases hactive.symm.trans hp
      exact hbound
    · rw [h.onlyActive d hstate] at hactive
      cases hactive
  oneSlot := h.oneSlot

theorem State.Paths.moves (h : s.Paths) (hmoves : s.Moves t) : t.Paths where
  bound d q hactive := by
    rw [Slot.seat_bound (hmoves.seats d)]
    rcases hmoves.active d with hsame | ⟨p, hp, -, hact⟩
    · exact h.bound d q (hsame.symm.trans hactive)
    · cases hactive.symm.trans hact
      exact hp
  oneSlot d e q hd he := by
    rw [Slot.seat_bound (hmoves.seats d)] at hd
    rw [Slot.seat_bound (hmoves.seats e)] at he
    exact h.oneSlot d e q hd he

theorem State.Paths.of_slots (h : s.Paths) (hslots : ∀ d, (t.slot d).bound = (s.slot d).bound ∧ (t.slot d).active = (s.slot d).active) :
    t.Paths where
  bound d q hactive := by
    rw [(hslots d).1]
    exact h.bound d q ((hslots d).2.symm.trans hactive)
  oneSlot d e q hd he := by
    rw [(hslots d).1] at hd
    rw [(hslots e).1] at he
    exact h.oneSlot d e q hd he

/-! ### Settled slots -/

/-- The slot has no returned frame to take. -/
def State.SettledAt (e : Desk) (s : State) : Prop := ∀ q, s.awaits e q = true → (s.port q).captured = none

theorem State.awaits_iff {e : Desk} {q : LinkPort} :
    s.awaits e q = true ↔ (s.slot e).state = .active ∧ (s.slot e).active = some q ∧ (s.slot e).taken = false := by
  simp [State.awaits]

theorem State.settledAt_of_taken {e : Desk} (h : (s.slot e).taken = true) : s.SettledAt e := fun q hq => by
  rw [(State.awaits_iff.mp hq).2.2] at h
  cases h

theorem State.takeReturned_of_settled {e : Desk} (h : s.SettledAt e) : s.takeReturned e = s := by
  unfold State.takeReturned
  split
  · rfl
  next q hactive =>
    split
    · rfl
    next f hcaptured =>
      refine if_neg fun hawaits => ?_
      rw [h q hawaits] at hcaptured
      cases hcaptured

theorem State.settleReturned_of_settled (h : ∀ e, s.SettledAt e) : s.settleReturned = s := by
  show ((s.takeReturned .d1).takeReturned .d2).takeReturned .d3 = s
  rw [State.takeReturned_of_settled (h _), State.takeReturned_of_settled (h _), State.takeReturned_of_settled (h _)]

theorem State.takeReturned_of_awaits {e : Desk} {q : LinkPort} {f : StageFrame} (hawaits : s.awaits e q = true)
    (hcaptured : (s.port q).captured = some f) : s.takeReturned e = (s.modPort q (Port.returned f)).absorb e (.ofFrame f) := by
  unfold State.takeReturned
  rw [(State.awaits_iff.mp hawaits).2.1]
  dsimp only
  rw [hcaptured]
  exact if_pos hawaits

theorem State.takeReturned_cases (e : Desk) (s : State) :
    s.SettledAt e ∧ s.takeReturned e = s ∨ ∃ q f, s.awaits e q = true ∧ (s.port q).captured = some f := by
  by_cases h : s.SettledAt e
  · exact .inl ⟨h, State.takeReturned_of_settled h⟩
  · simp only [State.SettledAt, not_forall] at h
    obtain ⟨q, hawaits, hcaptured⟩ := h
    obtain ⟨f, hf⟩ := Option.ne_none_iff_exists'.mp hcaptured
    exact .inr ⟨q, f, hawaits, hf⟩

theorem State.SettledAt.takeReturned (e : Desk) (s : State) : (s.takeReturned e).SettledAt e := by
  rcases s.takeReturned_cases e with ⟨h, heq⟩ | ⟨q, f, hawaits, hf⟩
  · rw [heq]
    exact h
  · rw [State.takeReturned_of_awaits hawaits hf]
    exact State.settledAt_of_taken (State.Took.absorb ..).taken

theorem State.OnlyDesk.takeReturned (h : s.Paths) (e : Desk) : s.OnlyDesk e (s.takeReturned e) := by
  rcases s.takeReturned_cases e with ⟨-, heq⟩ | ⟨q, f, hawaits, hf⟩
  · rw [heq]
    exact .refl e s
  · rw [State.takeReturned_of_awaits hawaits hf]
    exact .trans (.modPort (h.bound e q (State.awaits_iff.mp hawaits).2.1) _) (.absorb ..)

/-- What another desk takes leaves a slot with no returned frame without one. -/
theorem State.SettledAt.onlyDesk {d e : Desk} (h : s.SettledAt e) (hpaths : s.Paths) (he : e ≠ d) (hother : s.OnlyDesk d t) :
    t.SettledAt e := fun q hq => by
  obtain ⟨hstate, hactive, htaken⟩ := State.awaits_iff.mp hq
  have hslot := hother.slots e he
  rw [eq_of_copy hslot Slot.state fun _ => rfl] at hstate
  rw [eq_of_copy hslot Slot.active fun _ => rfl] at hactive
  rw [eq_of_copy hslot Slot.taken fun _ => rfl] at htaken
  have hport := hother.ports q fun hq => he (hpaths.oneSlot _ _ q (hpaths.bound e q hactive) hq)
  rw [hport]
  exact h q (State.awaits_iff.mpr ⟨hstate, hactive, htaken⟩)

theorem State.settleReturned_settled (h : s.Paths) (e : Desk) : s.settleReturned.SettledAt e := by
  have h1 : (s.takeReturned .d1).Paths := h.moves (.takeReturned ..)
  have h2 : ((s.takeReturned .d1).takeReturned .d2).Paths := h1.moves (.takeReturned ..)
  show (((s.takeReturned .d1).takeReturned .d2).takeReturned .d3).SettledAt e
  cases e with
  | d1 =>
    exact ((State.SettledAt.takeReturned .d1 s).onlyDesk h1 (by decide) (.takeReturned h1 .d2)).onlyDesk h2 (by decide) (.takeReturned h2 .d3)
  | d2 => exact (State.SettledAt.takeReturned .d2 _).onlyDesk h2 (by decide) (.takeReturned h2 .d3)
  | d3 => exact .takeReturned .d3 _

theorem State.settledAt_of_none (h : s.NoneReturned) (e : Desk) : s.SettledAt e := fun q _ => h q

/-- A delivery to a slot, with no returned frame about, leaves none to settle. -/
theorem State.settleReturned_absorb (hpaths : s.Paths) (h : s.NoneReturned) (d : Desk) (dl : Delivery) :
    (s.absorb d dl).settleReturned = s.absorb d dl := by
  refine State.settleReturned_of_settled fun e => ?_
  by_cases he : e = d
  · subst he
    exact State.settledAt_of_taken (State.Took.absorb ..).taken
  · exact (State.settledAt_of_none h e).onlyDesk hpaths he (.absorb ..)

end

end Sys2Proof.Machine

/-!
The delivery of a slot's active path, and the frame returned at a hitless switch: the statements (R12, R14, R30 to R34).
-/
namespace Sys2Proof.Machine

/-! ### A frame period of a port, as the slot on it sees it -/

section
variable {p : LinkPort} {d : Desk} {s : State}

theorem Slot.reopened_of_fresh {r : Slot} (htaken : r.taken = false) (hproduced : r.produced = false) : r.reopened p = r := by
  unfold Slot.reopened
  split
  · cases r
    cases htaken
    cases hproduced
    rfl
  · rfl

theorem State.openPeriod_slot_of_fresh (htaken : (s.slot d).taken = false) (hproduced : (s.slot d).produced = false) :
    (s.openPeriod p).slot d = s.slot d := by
  rw [State.openPeriod_slot, Slot.reopened_of_fresh htaken hproduced, ite_self]

theorem State.openPeriod_slot_of_not_seen (h : (s.port p).frameSeen = false) : (s.openPeriod p).slot d = s.slot d := by
  rw [State.openPeriod_slot, h]
  rfl

theorem State.openPeriod_slot_of_other (h : (s.slot d).active ≠ some p) : (s.openPeriod p).slot d = s.slot d := by
  rw [State.openPeriod_slot, Slot.reopened, if_neg h, ite_self]

theorem State.openPeriod_slot_path (p : LinkPort) (s : State) (e : Desk) :
    ((s.openPeriod p).slot e).bound = (s.slot e).bound ∧ ((s.openPeriod p).slot e).active = (s.slot e).active := by
  rw [State.openPeriod_slot, Slot.reopened]
  repeat' split
  all_goals exact ⟨rfl, rfl⟩

/-- The state in which a port has delivered and its slot has not yet taken anything. -/
def State.portDelivered (p : LinkPort) (r : Port) (s : State) : State := (s.openPeriod p).modPort p fun _ => r

theorem State.portDelivered_paths (h : s.Paths) (r : Port) : (s.portDelivered p r).Paths :=
  h.of_slots (State.openPeriod_slot_path p s)

theorem State.portDelivered_noneReturned (h : s.NoneReturned) {r : Port} (hr : r.captured = none) : (s.portDelivered p r).NoneReturned := by
  intro q
  unfold State.portDelivered
  rw [State.port_modPort]
  split
  · exact hr
  next hq =>
    rw [State.openPeriod_port_ne hq]
    exact h q

/-- The period of a port with a delivery that its slot does not wait for changes the port alone. -/
theorem State.deliverPeriod_of_not_awaiting (hnone : s.NoneReturned) {r rec : Port} {own : Delivery} {o : Option Delivery}
    (hdeliver : r.deliver own = (rec, o)) (hrec : rec.captured = none)
    (hawaits : ∀ e, p ∈ (s.slot e).bound → (s.portDelivered p rec).awaits e p = false) :
    ((s.openPeriod p).deliverPeriod p r own).settleReturned = s.portDelivered p rec := by
  have hperiod : (s.openPeriod p).deliverPeriod p r own = s.portDelivered p rec := by
    unfold State.deliverPeriod
    rw [hdeliver]
    cases o with
    | none => rfl
    | some dl =>
      show (s.portDelivered p rec).takeDelivery p dl = s.portDelivered p rec
      unfold State.takeDelivery
      split
      · rfl
      next e he =>
        have hbound : p ∈ (s.slot e).bound := by
          rw [← (State.openPeriod_slot_path p s e).1]
          exact State.mem_of_boundTo he
        rw [hawaits e hbound]
        rfl
  rw [hperiod]
  exact State.settleReturned_of_none (State.portDelivered_noneReturned hnone hrec)

/-- The period of a port with a delivery that its slot takes. -/
theorem State.deliverPeriod_of_awaiting (hpaths : s.Paths) (hnone : s.NoneReturned) {r rec : Port} {own dl : Delivery}
    (hdeliver : r.deliver own = (rec, some dl)) (hrec : rec.captured = none) (hbound : p ∈ (s.slot d).bound)
    (hfade : ¬((s.openPeriod p).slot d).FadeOver) (hawaits : (s.portDelivered p rec).awaits d p = true) :
    ((s.openPeriod p).deliverPeriod p r own).settleReturned = (s.portDelivered p rec).absorb d dl := by
  have hto : (s.portDelivered p rec).boundTo p = some d :=
    State.boundTo_eq_some (State.portDelivered_paths hpaths rec).oneSlot (by rw [← (State.openPeriod_slot_path p s d).1] at hbound; exact hbound)
  have hperiod : (s.openPeriod p).deliverPeriod p r own = (s.portDelivered p rec).absorb d dl := by
    unfold State.deliverPeriod
    rw [hdeliver]
    exact (State.takeDelivery_of_bound hto hfade).trans (if_pos hawaits)
  rw [hperiod]
  exact State.settleReturned_absorb (State.portDelivered_paths hpaths rec) (State.portDelivered_noneReturned hnone hrec) d dl

/-- The period of a port with a delivery to a slot that runs on it. -/
theorem State.RunsOn.deliverPeriod (hlaw : s.AttachLawful) (hnone : s.NoneReturned) (hruns : s.RunsOn d p)
    (hfade : ¬(s.slot d).FadeOver) {r rec : Port} {own dl : Delivery} (hdeliver : r.deliver own = (rec, some dl))
    (hrec : rec.captured = none) {t : State} (ht : ((s.openPeriod p).deliverPeriod p r own).settleReturned = t) :
    t.Took d ((s.slot d).absorb dl) ∧ t.port p = rec ∧
      ∀ x, settleMessage (assemble (s.lane d).receiver dl.lane) = (x, none) → (t.lane d).receiver = x := by
  obtain ⟨hstate, hactive, htaken, hproduced⟩ := hruns
  have hslot : (s.portDelivered p rec).slot d = s.slot d := State.openPeriod_slot_of_fresh htaken hproduced
  have hperiod := State.deliverPeriod_of_awaiting hlaw.paths hnone hdeliver hrec (hlaw.paths.bound d p hactive)
    (by rw [State.openPeriod_slot_of_fresh htaken hproduced]; exact hfade)
    (State.awaits_iff.mpr (by rw [hslot]; exact ⟨hstate, hactive, htaken⟩))
  rw [ht] at hperiod
  subst hperiod
  refine ⟨?_, ?_, fun x hx => ?_⟩
  · rw [← hslot]
    exact State.Took.absorb ..
  · rw [State.port_absorb (by rw [hslot]; exact hactive)]
    exact State.port_modPort_same ..
  · have hlane : (s.portDelivered p rec).lane d = s.lane d := State.openPeriod_lane p s d
    rw [State.absorb_of_no_message (by rw [hlane]; exact hx)]
    show (((s.portDelivered p rec).absorbed d dl).lane d).receiver = x
    unfold State.absorbed
    rw [State.lane_modLane_same, hlane, hx]

end

/-! ### What a delivery makes of a slot record -/

section
variable {r : Slot} (hproduced : r.produced = false)
include hproduced

theorem Slot.absorb_of_fresh (dl : Delivery) :
    r.absorb dl = { r.takeAudio dl.audio dl.lane.isSome with
      taken := true, lastTaken := if dl.lane.isSome then some dl.number else (r.takeAudio dl.audio dl.lane.isSome).lastTaken } := by
  unfold Slot.absorb
  rw [hproduced]
  rfl

theorem Slot.absorb_plain (hconceal : r.conceal = .none) (dl : Delivery) :
    r.absorb dl = { r with samples := dl.audio, produced := true, taken := true,
                           lastTaken := if dl.lane.isSome then some dl.number else r.lastTaken } := by
  rw [Slot.absorb_of_fresh hproduced, Slot.takeAudio, hconceal]

theorem Slot.absorb_fadingOut (hconceal : r.conceal = .fadingOut) (dl : Delivery) :
    r.absorb dl = { r with step := r.step + 1, samples := r.fadeOutSamples (r.step + 1), produced := true, taken := true,
                           lastTaken := if dl.lane.isSome then some dl.number else r.lastTaken } := by
  rw [Slot.absorb_of_fresh hproduced, Slot.takeAudio, hconceal]

theorem Slot.absorb_fadingIn (hconceal : r.conceal = .fadingIn) (dl : Delivery) :
    r.absorb dl = { r with step := r.step + 1, samples := dl.audio.map fun v => share v (r.step + 1) 64, produced := true, taken := true,
                           lastTaken := if dl.lane.isSome then some dl.number else r.lastTaken } := by
  rw [Slot.absorb_of_fresh hproduced, Slot.takeAudio, hconceal]

theorem Slot.absorb_gap_valid (hconceal : r.conceal = .silentGap) {dl : Delivery} (hlane : dl.lane.isSome = true) :
    r.absorb dl = { r with conceal := .fadingIn, step := 1, samples := dl.audio.map fun v => share v 1 64, produced := true,
                           taken := true, lastTaken := some dl.number } := by
  rw [Slot.absorb_of_fresh hproduced, Slot.takeAudio, hconceal, hlane]
  rfl

theorem Slot.absorb_gap_discarded (hconceal : r.conceal = .silentGap) {dl : Delivery} (hlane : dl.lane.isSome = false) :
    r.absorb dl = { r with samples := Audio.silent, produced := true, taken := true } := by
  rw [Slot.absorb_of_fresh hproduced, Slot.takeAudio, hconceal, hlane]
  rfl

end

end Sys2Proof.Machine

/-!
The delivery of a slot's active path, row by row (R12, R14, R30, R33, R34).
-/
namespace Sys2Proof.Machine

theorem Port.deliver_of_none {r : Port} (h : r.bufLast = none) (own : Delivery) :
    r.deliver own = ({ r with held := own.audio }, some own) := by
  unfold Port.deliver
  rw [h]

/-- What a port gives that delivers from its buffer: the frame after its last, or its held samples (R14). -/
def Port.following (r : Port) (n : Word) : Delivery :=
  match r.query (n + 1) with
  | some f => .ofFrame f
  | none => r.heldDelivery (n + 1)

theorem Port.deliver_of_some {r : Port} {n : Word} (h : r.bufLast = some n) (hskip : r.skip = false) (hcaptured : r.captured = none)
    (own : Delivery) :
    r.deliver own = ({ r with bufLast := some (n + 1), held := (r.following n).audio }, some (r.following n)) := by
  unfold Port.deliver
  rw [h]
  dsimp only
  rw [hskip, hcaptured]
  rfl

theorem Port.deliver_captured {r : Port} (own : Delivery) (h : r.captured = none) : (r.deliver own).1.captured = none := by
  unfold Port.deliver
  repeat' split
  all_goals first | exact h | rfl

theorem Port.opened_skip {r : Port} (h : r.skip = false) : r.opened.skip = false := by
  show (if r.frameSeen then false else r.skip) = false
  rw [h, ite_self]

/-- With the expected number a valid frame leaves the place in the buffer from which the port delivers (R14). -/
theorem Port.accept_of_expected {f : StageFrame} {r : Port} (h : f.number = r.expected) :
    r.accept f = { r.store f with expected := f.number + 1, missingRun := 0, mismatchRun := 0 } := by
  unfold Port.accept
  rw [if_pos h]

theorem State.Took.fade {d : Desk} {x : Slot} {t : State} (h : t.Took d x) (hc : x.conceal ≠ .none) :
    (t.slot d).conceal = x.conceal ∧ (t.slot d).step = x.step :=
  ⟨eq_of_copy (h.concealing hc) Slot.conceal fun _ => rfl, eq_of_copy (h.concealing hc) Slot.step fun _ => rfl⟩

theorem State.awaits_congr {d : Desk} {p : LinkPort} {s t : State} (h : t.slot d = s.slot d) : t.awaits d p = s.awaits d p := by
  rw [Bool.eq_iff_iff, State.awaits_iff, State.awaits_iff, h]

/-- With the expected number the buffer a period leaves is the one the frame is stored in (R13). -/
theorem Port.query_afterValid {f : StageFrame} {r : Port} (h : f.number = r.expected) (n : Word) :
    (r.afterValid f).query n = (r.store f).query n := by
  unfold Port.afterValid
  rw [Port.accept_of_expected (r := r.opened) h]
  rfl

theorem Port.held_afterValid {f : StageFrame} {r : Port} (h : f.number = r.expected) : (r.afterValid f).held = r.held := by
  unfold Port.afterValid
  rw [Port.accept_of_expected (r := r.opened) h]
  rfl

theorem Port.number_of_query {r : Port} {n : Word} {g : StageFrame} (h : r.query n = some g) : g.number = n := by
  simpa using List.find?_some h

theorem Port.following_of_some {r : Port} {n : Word} {g : StageFrame} (h : r.query (n + 1) = some g) : r.following n = .ofFrame g := by
  unfold Port.following
  rw [h]

theorem Port.following_of_none {r : Port} {n : Word} (h : r.query (n + 1) = none) : r.following n = r.heldDelivery (n + 1) := by
  unfold Port.following
  rw [h]

theorem share_one (x : Sample) : share x 1 64 = x.tdiv 64 := by
  unfold share
  rw [Nat.cast_one, mul_one]
  rfl

section
variable {p : LinkPort} {d : Desk} {f : StageFrame} {w : Bool} {s : State} (hpower : s.powered = true) (hlaw : s.AttachLawful)
  (hu : (s.port p).usable = true) (hpos : (s.port p).windowPos < 4800) (hnone : s.NoneReturned)
include hpower hlaw hu hpos hnone

/-- A valid frame of the active path, delivered as it came. -/
theorem exec_validFrame_runsOn (hident : (s.port p).identSeen = some f.ident) (hruns : s.RunsOn d p) (hlast : (s.port p).bufLast = none)
    (hfade : ¬(s.slot d).FadeOver) :
    ∃ t, exec (.validFrame p f w) s = .next t ∧ t.Took d ((s.slot d).absorb (.ofFrame f)) ∧ (t.port p).held = f.audio ∧
      ∀ x, settleMessage (assemble (s.lane d).receiver (some f.lane)) = (x, none) → (t.lane d).receiver = x := by
  obtain ⟨htook, hport, hlane⟩ := hruns.deliverPeriod hlaw hnone hfade
    (Port.deliver_of_none (Port.afterValid_bufLast f hlast) (.ofFrame f)) (Port.afterValid_captured f (hnone p)) rfl
  exact ⟨_, exec_validFrame_of_eq hpower (State.validFrame_of_usable hu hpos hident), htook, by rw [hport]; rfl, hlane⟩

/-- A CRC-failed frame of the active path: the held samples are delivered. -/
theorem exec_crcFailedFrame_runsOn (hruns : s.RunsOn d p) (hlast : (s.port p).bufLast = none) (hfade : ¬(s.slot d).FadeOver) :
    ∃ t, exec (.crcFailedFrame p) s = .next t ∧ t.Took d ((s.slot d).absorb (s.port p).heldOwn) ∧
      (t.port p).held = (s.port p).held ∧ (t.lane d).receiver = none := by
  obtain ⟨htook, hport, hlane⟩ := hruns.deliverPeriod hlaw hnone hfade
    (Port.deliver_of_none (r := (s.port p).afterCrc) hlast (s.port p).opened.heldOwn) (hnone p) rfl
  exact ⟨_, exec_crcFailedFrame_of_eq hpower (State.crcFailedFrame_of_usable hu hpos), htook, by rw [hport]; rfl, hlane none rfl⟩

/-- A missing frame of the active path: the held samples are delivered. -/
theorem exec_missingFrame_runsOn (hrun : (s.port p).missingRun < 3) (hruns : s.RunsOn d p) (hlast : (s.port p).bufLast = none)
    (hfade : ¬(s.slot d).FadeOver) :
    ∃ t, exec (.missingFrame p w) s = .next t ∧ t.Took d ((s.slot d).absorb (s.port p).heldOwn) ∧
      (t.port p).held = (s.port p).held ∧ (t.lane d).receiver = none := by
  obtain ⟨htook, hport, hlane⟩ := hruns.deliverPeriod hlaw hnone hfade
    (Port.deliver_of_none (r := (s.port p).afterMissing) hlast (s.port p).opened.heldOwn) (hnone p) rfl
  exact ⟨_, exec_missingFrame_of_eq hpower (State.missingFrame_of_usable hu hpos hrun), htook, by rw [hport]; rfl, hlane none rfl⟩

/-- A valid frame of the active path, when the port delivers from its buffer. -/
theorem exec_validFrame_buffered {n : Word} (hident : (s.port p).identSeen = some f.ident) (hruns : s.RunsOn d p)
    (hlast : (s.port p).bufLast = some n) (hskip : (s.port p).skip = false) (hnumber : f.number = (s.port p).expected)
    (hfade : ¬(s.slot d).FadeOver) :
    ∃ t, exec (.validFrame p f w) s = .next t ∧ t.Took d ((s.slot d).absorb (((s.port p).afterValid f).following n)) ∧
      (t.port p).bufLast = some (n + 1) ∧ (t.port p).held = (((s.port p).afterValid f).following n).audio := by
  have hrecord : ((s.port p).afterValid f).bufLast = some n ∧ ((s.port p).afterValid f).skip = false ∧
      ((s.port p).afterValid f).captured = none := by
    unfold Port.afterValid
    rw [Port.accept_of_expected (r := (s.port p).opened) hnumber]
    exact ⟨hlast, Port.opened_skip hskip, hnone p⟩
  obtain ⟨hbufLast, hskip', hcaptured⟩ := hrecord
  obtain ⟨htook, hport, -⟩ := hruns.deliverPeriod hlaw hnone hfade
    (Port.deliver_of_some hbufLast hskip' hcaptured (.ofFrame f)) hcaptured rfl
  exact ⟨_, exec_validFrame_of_eq hpower (State.validFrame_of_usable hu hpos hident), htook, by rw [hport], by rw [hport]⟩

omit hlaw in
/-- A valid frame of a port whose slot does not wait for it changes the port alone. -/
theorem exec_validFrame_not_awaiting (hident : (s.port p).identSeen = some f.ident)
    (hawaits : ∀ e rec, p ∈ (s.slot e).bound → (s.portDelivered p rec).awaits e p = false) :
    ∃ rec, exec (.validFrame p f w) s = .next (s.portDelivered p rec) :=
  ⟨_, (exec_validFrame_of_eq hpower (State.validFrame_of_usable hu hpos hident)).trans (congrArg _
    (State.deliverPeriod_of_not_awaiting hnone rfl (Port.deliver_captured _ (Port.afterValid_captured f (hnone p))) fun e => hawaits e _))⟩

/-- The same from the slot's side: its record and its lane stand. -/
theorem exec_validFrame_slot_stands (hident : (s.port p).identSeen = some f.ident) (hbound : p ∈ (s.slot d).bound)
    (hslot : (s.openPeriod p).slot d = s.slot d) (hawaits : s.awaits d p = false) :
    ∃ t, exec (.validFrame p f w) s = .next t ∧ t.slot d = s.slot d ∧ t.lane d = s.lane d := by
  obtain ⟨rec, hexec⟩ := exec_validFrame_not_awaiting (w := w) hpower hu hpos hnone hident fun e rec he => by
    cases hlaw.oneSlot e d p he hbound
    exact (State.awaits_congr (t := s.portDelivered p rec) hslot).trans hawaits
  exact ⟨_, hexec, hslot, State.openPeriod_lane ..⟩

/-- A valid frame whose slot's samples of the period are fixed (log 14). -/
theorem exec_validFrame_produced (hident : (s.port p).identSeen = some f.ident) (hstate : (s.slot d).state = .active)
    (hactive : (s.slot d).active = some p) (hlast : (s.port p).bufLast = none) (hseen : (s.port p).frameSeen = false)
    (htaken : (s.slot d).taken = false) (hproduced : (s.slot d).produced = true) (hfade : ¬(s.slot d).FadeOver) {x : Option (List Byte)}
    (hx : settleMessage (assemble (s.lane d).receiver (some f.lane)) = (x, none)) :
    ∃ t, exec (.validFrame p f w) s = .next t ∧ t.slot d = { s.slot d with taken := true, lastTaken := some f.number } ∧
      (t.lane d).receiver = x := by
  have hslot := State.openPeriod_slot_of_not_seen (d := d) hseen
  have hperiod := State.deliverPeriod_of_awaiting (d := d) hlaw.paths hnone
    (Port.deliver_of_none (Port.afterValid_bufLast f hlast) (.ofFrame f)) (Port.afterValid_captured f (hnone p))
    (hlaw.paths.bound d p hactive) (by rw [hslot]; exact hfade)
    (State.awaits_iff.mpr (by
      show ((s.openPeriod p).slot d).state = .active ∧ ((s.openPeriod p).slot d).active = some p ∧ ((s.openPeriod p).slot d).taken = false
      rw [hslot]
      exact ⟨hstate, hactive, htaken⟩))
  rw [State.absorb_of_no_message (r := x) (by
    show settleMessage (assemble ((s.openPeriod p).lane d).receiver (some f.lane)) = (x, none)
    rw [State.openPeriod_lane, hx])] at hperiod
  refine ⟨_, (exec_validFrame_of_eq hpower (State.validFrame_of_usable hu hpos hident)).trans (congrArg _ hperiod), ?_, ?_⟩
  · rw [State.absorbed_slot]
    show ((s.openPeriod p).slot d).absorb (.ofFrame f) = _
    rw [hslot, Slot.absorb, hproduced]
    rfl
  · unfold State.absorbed
    rw [State.lane_modLane_same]
    show (settleMessage (assemble ((s.openPeriod p).lane d).receiver (some f.lane))).1 = x
    rw [State.openPeriod_lane, hx]

end

/-- Settles O21: the rows of concealment one after another, then the buffer, a fixed period, a second delivery and a standby port. -/
theorem activePathDelivery : Obligations.ActivePathDelivery := by
  intro p d f w s hpower hlaw hu hpos hnone hident
  have hplain {r : Slot} (hc : r.conceal = .none) : ¬r.FadeOver := Slot.not_fadeOver_of_none hc
  have hshort {r : Slot} (hstep : r.step < 64) : ¬r.FadeOver := fun hover => absurd hover.2 (by omega)
  have hgap {r : Slot} (hc : r.conceal = .silentGap) : ¬r.FadeOver := fun hover => by
    rcases hover.1 with h' | h' <;> rw [hc] at h' <;> cases h'
  refine ⟨fun hruns hlast => ⟨fun hc => ⟨?_, ?_, fun hrun => ?_⟩, fun hc hstep => ?_, fun hc => ⟨?_, ?_⟩, fun hc hstep => ⟨?_, ?_⟩⟩,
    fun n hruns hlast hskip hc hnumber => ?_,
    fun r hstate hactive hlast hseen htaken hproduced hc hstep hr =>
      exec_validFrame_produced hpower hlaw hu hpos hnone hident hstate hactive hlast hseen htaken hproduced (hshort hstep) hr,
    fun hactive hlast hseen htaken => ?_, fun hbound hactive => ?_⟩
  · obtain ⟨t, ht, htook, hheld, hlane⟩ := exec_validFrame_runsOn (w := w) hpower hlaw hu hpos hnone hident hruns hlast (hplain hc)
    rw [Slot.absorb_plain hruns.2.2.2 hc] at htook
    exact ⟨t, ht, htook.samples, htook.lastTaken, htook.taken, hheld, hlane⟩
  · obtain ⟨t, ht, htook, hheld, hlane⟩ := exec_crcFailedFrame_runsOn hpower hlaw hu hpos hnone hruns hlast (hplain hc)
    rw [Slot.absorb_plain hruns.2.2.2 hc] at htook
    exact ⟨t, ht, htook.samples, htook.lastTaken, hheld, hlane⟩
  · obtain ⟨t, ht, htook, hheld, hlane⟩ := exec_missingFrame_runsOn (w := w) hpower hlaw hu hpos hnone hrun hruns hlast (hplain hc)
    rw [Slot.absorb_plain hruns.2.2.2 hc] at htook
    exact ⟨t, ht, htook.samples, htook.lastTaken, hheld, hlane⟩
  · obtain ⟨t, ht, htook, -⟩ := exec_validFrame_runsOn (w := w) hpower hlaw hu hpos hnone hident hruns hlast (hshort hstep)
    rw [Slot.absorb_fadingOut hruns.2.2.2 hc] at htook
    obtain ⟨hconceal, hsteps⟩ := htook.fade (by simp [hc])
    exact ⟨t, ht, hconceal.trans hc, hsteps, htook.samples, htook.lastTaken⟩
  · obtain ⟨t, ht, htook, -⟩ := exec_validFrame_runsOn (w := w) hpower hlaw hu hpos hnone hident hruns hlast (hgap hc)
    rw [Slot.absorb_gap_valid hruns.2.2.2 hc rfl] at htook
    obtain ⟨hconceal, hsteps⟩ := htook.fade (by simp)
    refine ⟨t, ht, hconceal, hsteps, htook.samples.trans ?_⟩
    simp only [share_one]
    rfl
  · obtain ⟨t, ht, htook, -⟩ := exec_crcFailedFrame_runsOn hpower hlaw hu hpos hnone hruns hlast (hgap hc)
    rw [Slot.absorb_gap_discarded hruns.2.2.2 hc rfl] at htook
    exact ⟨t, ht, (htook.fade (by simp [hc])).1.trans hc, htook.samples⟩
  · obtain ⟨t, ht, htook, -⟩ := exec_validFrame_runsOn (w := w) hpower hlaw hu hpos hnone hident hruns hlast (hshort hstep)
    rw [Slot.absorb_fadingIn hruns.2.2.2 hc] at htook
    obtain ⟨hconceal, hsteps⟩ := htook.fade (by simp [hc])
    exact ⟨t, ht, hconceal.trans hc, hsteps, htook.samples⟩
  · obtain ⟨t, ht, htook, -⟩ := exec_crcFailedFrame_runsOn hpower hlaw hu hpos hnone hruns hlast (hshort hstep)
    rw [Slot.absorb_fadingIn hruns.2.2.2 hc] at htook
    exact ⟨t, ht, (htook.fade (by simp [hc])).2, htook.samples⟩
  · obtain ⟨t, ht, htook, hbufLast, hheld⟩ :=
      exec_validFrame_buffered (w := w) hpower hlaw hu hpos hnone hident hruns hlast hskip hnumber (hplain hc)
    rw [Slot.absorb_plain hruns.2.2.2 hc] at htook
    refine ⟨t, _, ht, rfl, hbufLast, htook.samples.trans ?_, hheld.trans htook.samples.symm, htook.lastTaken.trans ?_⟩
    all_goals
      rw [← Port.query_afterValid hnumber]
      cases hg : ((s.port p).afterValid f).query (n + 1)
    · rw [Port.following_of_none hg]
      exact Port.held_afterValid hnumber
    · rw [Port.following_of_some hg]
      rfl
    · rw [Port.following_of_none hg]
      rfl
    · rw [Port.following_of_some hg, ← Port.number_of_query hg]
      rfl
  · have hslot := State.openPeriod_slot_of_not_seen (p := p) (d := d) hseen
    refine exec_validFrame_slot_stands hpower hlaw hu hpos hnone hident (hlaw.paths.bound d p hactive) hslot ?_
    exact decide_eq_false fun h => by rw [htaken] at h; cases h.2.2
  · have hslot := State.openPeriod_slot_of_other hactive
    exact exec_validFrame_slot_stands hpower hlaw hu hpos hnone hident hbound hslot (decide_eq_false fun h => hactive h.2.1)

end Sys2Proof.Machine

/-!
The frame returned at a hitless switch: the slot that runs on the port takes it, and the port's own event of the period delivers nothing
(R14, R32; log 15).
-/
namespace Sys2Proof.Machine

/-- A slot's record, but for its talk class, and a port's record stand. -/
structure State.StandsAt (d : Desk) (p : LinkPort) (s t : State) : Prop where
  slot : (t.slot d).lessClass = (s.slot d).lessClass
  port : t.port p = s.port p

section
variable {d : Desk} {p : LinkPort} {s t u : State}

theorem State.StandsAt.refl (d : Desk) (p : LinkPort) (s : State) : s.StandsAt d p s := ⟨rfl, rfl⟩

theorem State.StandsAt.trans (h : s.StandsAt d p t) (h' : t.StandsAt d p u) : s.StandsAt d p u :=
  ⟨h'.slot.trans h.slot, Eq.trans h'.port h.port⟩

/-- What another slot takes leaves a slot and its ports. -/
theorem State.StandsAt.takeReturned (h : s.Paths) (hbound : p ∈ (s.slot d).bound) {e : Desk} (he : e ≠ d) :
    s.StandsAt d p (s.takeReturned e) :=
  have honly := State.OnlyDesk.takeReturned h e
  ⟨honly.slots d he.symm, honly.ports p fun hp => he (h.oneSlot e d p hp hbound)⟩

theorem State.StandsAt.mem (h : s.StandsAt d p t) (hbound : p ∈ (s.slot d).bound) : p ∈ (t.slot d).bound := by
  rw [eq_of_copy h.slot Slot.bound fun _ => rfl]
  exact hbound

/-- Settling, seen from one slot: its own turn, among those of the others, which leave it as it is. -/
theorem State.settleReturned_at (h : s.Paths) (hbound : p ∈ (s.slot d).bound) :
    ∃ u, s.StandsAt d p u ∧ (u.takeReturned d).StandsAt d p s.settleReturned := by
  have step {v : State} (hv : v.Paths) : (v.takeReturned d).Paths := hv.moves (.takeReturned ..)
  have h1 : (s.takeReturned .d1).Paths := h.moves (.takeReturned ..)
  have h2 : ((s.takeReturned .d1).takeReturned .d2).Paths := h1.moves (.takeReturned ..)
  have hmem {v w : State} (hv : v.Moves w) (hp : p ∈ (v.slot d).bound) : p ∈ (w.slot d).bound := by
    rw [Slot.seat_bound (hv.seats d)]
    exact hp
  have hb1 := hmem (.takeReturned .d1 s) hbound
  have hb2 := hmem (.takeReturned .d2 _) hb1
  show ∃ u, s.StandsAt d p u ∧ (u.takeReturned d).StandsAt d p (((s.takeReturned .d1).takeReturned .d2).takeReturned .d3)
  cases d with
  | d1 => exact ⟨s, .refl .., .trans (.takeReturned h1 hb1 (by decide)) (.takeReturned h2 hb2 (by decide))⟩
  | d2 => exact ⟨s.takeReturned .d1, .takeReturned h hbound (by decide), .takeReturned h2 hb2 (by decide)⟩
  | d3 => exact ⟨_, .trans (.takeReturned h hbound (by decide)) (.takeReturned h1 hb1 (by decide)), .refl ..⟩

/-- The slot that runs on the port takes the returned frame. -/
theorem State.RunsOn.takeReturned (hruns : s.RunsOn d p) (hconceal : (s.slot d).conceal = .none) {g : StageFrame}
    (hcaptured : (s.port p).captured = some g) :
    (s.takeReturned d).Took d { s.slot d with samples := g.audio, produced := true, taken := true, lastTaken := some g.number } ∧
      (s.takeReturned d).port p = (s.port p).returned g := by
  obtain ⟨hstate, hactive, htaken, hproduced⟩ := hruns
  rw [State.takeReturned_of_awaits (State.awaits_iff.mpr ⟨hstate, hactive, htaken⟩) hcaptured]
  constructor
  · have habsorb := Slot.absorb_plain hproduced hconceal (.ofFrame g)
    have htook := State.Took.absorb d (.ofFrame g) (s.modPort p (Port.returned g))
    rw [State.modPort_slot, habsorb] at htook
    exact htook
  · rw [State.port_absorb (by exact hactive)]
    exact State.port_modPort_same ..

/-- Settled, the slot has taken the frame. -/
theorem State.RunsOn.settleReturned (hpaths : s.Paths) (hruns : s.RunsOn d p) (hconceal : (s.slot d).conceal = .none) {g : StageFrame}
    (hcaptured : (s.port p).captured = some g) :
    (s.settleReturned.slot d).samples = g.audio ∧ (s.settleReturned.slot d).lastTaken = some g.number ∧
      (s.settleReturned.slot d).produced = true ∧ (s.settleReturned.slot d).taken = true ∧
      s.settleReturned.port p = (s.port p).returned g := by
  obtain ⟨u, hbefore, hafter⟩ := State.settleReturned_at hpaths (hpaths.bound d p hruns.2.1)
  have hrunsu : u.RunsOn d p :=
    ⟨(eq_of_copy hbefore.slot Slot.state fun _ => rfl).trans hruns.1, (eq_of_copy hbefore.slot Slot.active fun _ => rfl).trans hruns.2.1,
      (eq_of_copy hbefore.slot Slot.taken fun _ => rfl).trans hruns.2.2.1,
      (eq_of_copy hbefore.slot Slot.produced fun _ => rfl).trans hruns.2.2.2⟩
  obtain ⟨htook, hport⟩ := hrunsu.takeReturned ((eq_of_copy hbefore.slot Slot.conceal fun _ => rfl).trans hconceal)
    ((congrArg Port.captured hbefore.port).trans hcaptured)
  obtain ⟨hsamples, hlast, htaken, hproduced, -⟩ := htook.of_lessClass hafter.slot
  exact ⟨hsamples, hlast, hproduced, htaken, by rw [hafter.port, hport, hbefore.port]⟩

end

/-- In a settled state a period of a port that has its delivery of the period skipped changes no slot. -/
theorem State.deliverPeriod_of_skip {p : LinkPort} {s : State} (hsettled : ∀ e, s.SettledAt e) {r : Port} {own : Delivery} {n : Word}
    (hlast : r.bufLast = some n) (hskip : r.skip = true) (hcaptured : r.captured = none) (hseen : (s.port p).frameSeen = false) :
    ((s.openPeriod p).deliverPeriod p r own).settleReturned = s.portDelivered p { r with skip := false } := by
  have hperiod : (s.openPeriod p).deliverPeriod p r own = s.portDelivered p { r with skip := false } := by
    unfold State.deliverPeriod Port.deliver
    rw [hlast]
    dsimp only
    rw [hskip]
    rfl
  rw [hperiod]
  refine State.settleReturned_of_settled fun e q hq => ?_
  have hslot : (s.portDelivered p { r with skip := false }).slot e = s.slot e := State.openPeriod_slot_of_not_seen hseen
  rw [State.awaits_congr hslot] at hq
  unfold State.portDelivered
  rw [State.port_modPort]
  split
  · exact hcaptured
  next hne =>
    rw [State.openPeriod_port_ne hne]
    exact hsettled e q hq

/-- Settles O24: the slot takes the frame when its turn to settle comes, and the port's record says that its own event is to be skipped. -/
theorem returnedFrameIsTaken : Obligations.ReturnedFrameIsTaken := by
  refine ⟨fun s hnone => State.settleReturned_of_none hnone, fun s d p g hlaw hruns hconceal hcaptured => ?_⟩
  obtain ⟨hsamples, hlast, hproduced, htaken, hport⟩ := hruns.settleReturned hlaw.paths hconceal hcaptured
  refine ⟨hsamples, hlast, hproduced, htaken, by rw [hport]; rfl, by rw [hport]; rfl, fun f w hpower hu hpos hident hexpected hseen hbufLast => ?_⟩
  have husable : (s.settleReturned.port p).usable = true := by rw [hport]; exact hu
  have hwindow : (s.settleReturned.port p).windowPos < 4800 := by rw [hport]; exact hpos
  have hidentity : (s.settleReturned.port p).identSeen = some f.ident := by rw [hport]; exact hident
  have hunseen : (s.settleReturned.port p).frameSeen = false := by rw [hport]; exact hseen
  have hrecord : ((s.settleReturned.port p).afterValid f).bufLast = some g.number ∧ ((s.settleReturned.port p).afterValid f).skip = true ∧
      ((s.settleReturned.port p).afterValid f).captured = none := by
    rw [hport]
    unfold Port.afterValid
    rw [Port.accept_of_expected (r := ((s.port p).returned g).opened) hexpected.symm, Port.opened_of_not_seen (r := (s.port p).returned g) hseen]
    exact ⟨hbufLast, by show (!(s.port p).frameSeen) = true; rw [hseen]; rfl, rfl⟩
  have hperiod := State.deliverPeriod_of_skip (own := .ofFrame f) (State.settleReturned_settled hlaw.paths) hrecord.1 hrecord.2.1
    hrecord.2.2 hunseen
  refine ⟨_, (exec_validFrame_of_eq (by simpa using hpower) (State.validFrame_of_usable husable hwindow hidentity)).trans
    (congrArg _ hperiod), ?_, State.openPeriod_slot_of_not_seen hunseen⟩
  show (((s.settleReturned.openPeriod p).modPort p _).port p).bufLast = _
  rw [State.port_modPort_same]
  exact hrecord.1

end Sys2Proof.Machine

/-!
Sources that go and come, one event each, as an output takes them (R125, R128 to R130).
-/
namespace Sys2Proof.Machine

/-! ### One event -/

/-- An output takes the loss of a source: as its primary first (R125). -/
def Output.atLoss (code : Nat) (avail : Bool) (r : Output) : Output :=
  let r1 := if r.primary = code then r.primaryLost avail else r
  if r.fallback = some code then r1.fallbackLost else r1

/-- An output takes the return of a source (R125). -/
def Output.atReturn (code revertMs : Nat) (r : Output) : Output :=
  let r1 := if r.primary = code then r.primaryRegained revertMs else r
  if r.fallback = some code then r1.fallbackRegained else r1

/-- The sources of an output (R123). -/
def Output.sources (r : Output) : Nat × Option Nat := (r.primary, r.fallback)

section
variable (r : Output)

theorem Output.sources_primaryLost (avail : Bool) : (r.primaryLost avail).sources = r.sources := by
  unfold Output.primaryLost
  split <;> rfl

theorem Output.sources_fallbackLost : r.fallbackLost.sources = r.sources := by
  unfold Output.fallbackLost
  cases r.hold <;> cases r.selection <;> rfl

theorem Output.sources_primaryRegained (ms : Nat) : (r.primaryRegained ms).sources = r.sources := by
  unfold Output.primaryRegained
  dsimp only
  split <;> (try split) <;> rfl

theorem Output.sources_fallbackRegained : r.fallbackRegained.sources = r.sources := by
  unfold Output.fallbackRegained
  split <;> rfl

theorem Output.sources_atLoss (code : Nat) (avail : Bool) : (r.atLoss code avail).sources = r.sources := by
  have hfirst : (if r.primary = code then r.primaryLost avail else r).sources = r.sources := by
    split
    · exact r.sources_primaryLost avail
    · rfl
  unfold Output.atLoss
  dsimp only
  split
  · exact (Output.sources_fallbackLost _).trans hfirst
  · exact hfirst

theorem Output.sources_atReturn (code ms : Nat) : (r.atReturn code ms).sources = r.sources := by
  have hfirst : (if r.primary = code then r.primaryRegained ms else r).sources = r.sources := by
    split
    · exact r.sources_primaryRegained ms
    · rfl
  unfold Output.atReturn
  dsimp only
  split
  · exact (Output.sources_fallbackRegained _).trans hfirst
  · exact hfirst

end

section
variable {r : Output} {code : Nat} {avail : Bool}

theorem Output.atLoss_of_untouched (hp : r.primary ≠ code) (hf : r.fallback ≠ some code) : r.atLoss code avail = r := by
  rw [Output.atLoss, if_neg hp, if_neg hf]

theorem Output.atReturn_of_untouched {ms : Nat} (hp : r.primary ≠ code) (hf : r.fallback ≠ some code) : r.atReturn code ms = r := by
  rw [Output.atReturn, if_neg hp, if_neg hf]

theorem State.output_sourceLost (hcode : 0 < code) (s : State) (o : Nat) :
    (s.sourceLost code).output o = (s.output o).atLoss code (s.fallbackAvailable (s.output o)) := by
  have hreset : Output.reset.atLoss code (s.fallbackAvailable Output.reset) = Output.reset :=
    Output.atLoss_of_untouched (by show 0 ≠ code; omega) nofun
  have hmap := List.getD_map (n := o) s.outputs Output.reset fun r : Output => r.atLoss code (s.fallbackAvailable r)
  rw [hreset] at hmap
  exact hmap

theorem State.output_sourceRegained (hcode : 0 < code) (s : State) (o : Nat) :
    (s.sourceRegained code).output o = (s.output o).atReturn code s.revertTime := by
  have hreset : Output.reset.atReturn code s.revertTime = Output.reset :=
    Output.atReturn_of_untouched (by show 0 ≠ code; omega) nofun
  have hmap := List.getD_map (n := o) s.outputs Output.reset fun r : Output => r.atReturn code s.revertTime
  rw [hreset] at hmap
  exact hmap

end

/-! ### One event after another -/

/-- An output takes losses one after another, each with whether the fallback is there at the time. -/
def Output.loses : List (Nat × Bool) → Output → Output
  | [], r => r
  | x :: l, r => Output.loses l (r.atLoss x.1 x.2)

/-- An output takes returns one after another. -/
def Output.regains (ms : Nat) : List Nat → Output → Output
  | [], r => r
  | x :: l, r => Output.regains ms l (r.atReturn x ms)

namespace Output
variable {r : Output} {ms : Nat}

theorem regains_of_untouched : ∀ {l : List Nat} {r : Output}, (∀ x ∈ l, r.primary ≠ x ∧ r.fallback ≠ some x) → r.regains ms l = r
  | [], _, _ => rfl
  | x :: l, r, h => by
    obtain ⟨hp, hf⟩ := h x (by simp)
    rw [regains, atReturn_of_untouched hp hf]
    exact regains_of_untouched fun y hy => h y (by simp [hy])

theorem regains_of_primary : ∀ {l : List Nat} {r : Output}, l.Nodup → r.primary ∈ l → (∀ x ∈ l, r.fallback ≠ some x) →
    r.regains ms l = r.primaryRegained ms
  | [], _, _, hp, _ => by cases hp
  | x :: l, r, hnodup, hp, hf => by
    obtain ⟨hx, hl⟩ := List.nodup_cons.mp hnodup
    by_cases h : r.primary = x
    · have hstep : r.atReturn x ms = r.primaryRegained ms := by rw [atReturn, if_pos h, if_neg (hf x (by simp))]
      obtain ⟨hp', hf'⟩ := Prod.mk.inj (r.sources_primaryRegained ms)
      rw [regains, hstep]
      refine regains_of_untouched fun y hy => ⟨?_, ?_⟩
      · rw [hp', h]
        rintro rfl
        exact hx hy
      · rw [hf']
        exact hf y (by simp [hy])
    · rw [regains, atReturn_of_untouched h (hf x (by simp))]
      exact regains_of_primary hl ((List.mem_cons.mp hp).resolve_left h) fun y hy => hf y (by simp [hy])

theorem regains_of_fallback : ∀ {l : List Nat} {r : Output}, l.Nodup → (∀ x ∈ l, r.primary ≠ x) → (∃ x ∈ l, r.fallback = some x) →
    r.regains ms l = r.fallbackRegained
  | [], _, _, _, ⟨_, hx, _⟩ => by cases hx
  | x :: l, r, hnodup, hp, hf => by
    obtain ⟨hx, hl⟩ := List.nodup_cons.mp hnodup
    by_cases h : r.fallback = some x
    · have hstep : r.atReturn x ms = r.fallbackRegained := by rw [atReturn, if_neg (hp x (by simp)), if_pos h]
      obtain ⟨hp', hf'⟩ := Prod.mk.inj r.sources_fallbackRegained
      rw [regains, hstep]
      refine regains_of_untouched fun y hy => ⟨?_, ?_⟩
      · rw [hp']
        exact hp y (by simp [hy])
      · rw [hf', h]
        rintro ⟨rfl⟩
        exact hx hy
    · rw [regains, atReturn_of_untouched (hp x (by simp)) h]
      obtain ⟨y, hy, hfy⟩ := hf
      refine regains_of_fallback hl (fun z hz => hp z (by simp [hz])) ⟨y, (List.mem_cons.mp hy).resolve_left ?_, hfy⟩
      rintro rfl
      exact h hfy

theorem loses_of_untouched : ∀ {l : List (Nat × Bool)} {r : Output}, (∀ x ∈ l, r.primary ≠ x.1 ∧ r.fallback ≠ some x.1) → r.loses l = r
  | [], _, _ => rfl
  | x :: l, r, h => by
    obtain ⟨hp, hf⟩ := h x (by simp)
    rw [loses, atLoss_of_untouched hp hf]
    exact loses_of_untouched fun y hy => h y (by simp [hy])

theorem loses_of_primary {a : Bool} : ∀ {l : List (Nat × Bool)} {r : Output}, (l.map Prod.fst).Nodup → (∀ x ∈ l, x.2 = a) →
    (∃ x ∈ l, r.primary = x.1) → (∀ x ∈ l, r.fallback ≠ some x.1) → r.loses l = r.primaryLost a
  | [], _, _, _, ⟨_, hx, _⟩, _ => by cases hx
  | x :: l, r, hnodup, ha, hp, hf => by
    obtain ⟨hx, hl⟩ := List.nodup_cons.mp hnodup
    by_cases h : r.primary = x.1
    · have hstep : r.atLoss x.1 x.2 = r.primaryLost a := by rw [atLoss, if_pos h, if_neg (hf x (by simp)), ha x (by simp)]
      obtain ⟨hp', hf'⟩ := Prod.mk.inj (r.sources_primaryLost a)
      rw [loses, hstep]
      refine loses_of_untouched fun y hy => ⟨?_, ?_⟩
      · rw [hp', h]
        intro he
        exact hx (he ▸ List.mem_map_of_mem hy)
      · rw [hf']
        exact hf y (by simp [hy])
    · rw [loses, atLoss_of_untouched h (hf x (by simp))]
      obtain ⟨y, hy, hpy⟩ := hp
      refine loses_of_primary hl (fun z hz => ha z (by simp [hz])) ⟨y, (List.mem_cons.mp hy).resolve_left ?_, hpy⟩
        fun z hz => hf z (by simp [hz])
      rintro rfl
      exact h hpy

theorem loses_of_fallback : ∀ {l : List (Nat × Bool)} {r : Output}, (l.map Prod.fst).Nodup → (∀ x ∈ l, r.primary ≠ x.1) →
    (∃ x ∈ l, r.fallback = some x.1) → r.loses l = r.fallbackLost
  | [], _, _, _, ⟨_, hx, _⟩ => by cases hx
  | x :: l, r, hnodup, hp, hf => by
    obtain ⟨hx, hl⟩ := List.nodup_cons.mp hnodup
    by_cases h : r.fallback = some x.1
    · have hstep : r.atLoss x.1 x.2 = r.fallbackLost := by rw [atLoss, if_neg (hp x (by simp)), if_pos h]
      obtain ⟨hp', hf'⟩ := Prod.mk.inj r.sources_fallbackLost
      rw [loses, hstep]
      refine loses_of_untouched fun y hy => ⟨?_, ?_⟩
      · rw [hp']
        exact hp y (by simp [hy])
      · rw [hf', h]
        intro he
        exact hx (Option.some.inj he ▸ List.mem_map_of_mem hy)
    · rw [loses, atLoss_of_untouched (hp x (by simp)) h]
      obtain ⟨y, hy, hfy⟩ := hf
      refine loses_of_fallback hl (fun z hz => hp z (by simp [hz])) ⟨y, (List.mem_cons.mp hy).resolve_left ?_, hfy⟩
      rintro rfl
      exact h hfy

/-! ### Both sources of an output -/

/-- The primary of the output is gone: it shows the fallback with no revert hold, or nothing. -/
def OnFallback (r : Output) : Prop :=
  r.selection = .noneAvailable ∨ (r.selection = .toFallback ∨ r.selection = .fallback) ∧ r.hold = none

/-- The fallback of the output is gone: it shows the primary, or nothing. -/
def OnPrimary (r : Output) : Prop := r.selection = .noneAvailable ∨ r.selection = .primary ∨ r.selection = .toPrimary

theorem OnFallback.primaryLost (hhold : r.hold.isSome = true → r.selection = .toFallback ∨ r.selection = .fallback) (a : Bool) :
    (r.primaryLost a).OnFallback := by
  have hnone (hsel : r.selection = .primary ∨ r.selection = .toPrimary) : r.hold = none := by
    cases h : r.hold with
    | none => rfl
    | some t => rcases hsel with hsel | hsel <;> rcases hhold (by rw [h]; rfl) with h' | h' <;> rw [hsel] at h' <;> cases h'
  unfold Output.primaryLost OnFallback
  split
  next hsel => cases a <;> simp [hnone (.inl hsel)]
  next hsel => cases a <;> simp [hnone (.inr hsel)]
  next hsel => exact .inr ⟨.inl hsel, rfl⟩
  next hsel => exact .inr ⟨.inr hsel, rfl⟩
  next hsel => exact .inl hsel

theorem OnFallback.fallbackLost (h : r.OnFallback) : r.fallbackLost.selection = .noneAvailable := by
  unfold Output.fallbackLost
  rcases h with hsel | ⟨hsel | hsel, hhold⟩
  · rw [hsel]
    exact hsel
  · rw [hsel, hhold]
  · rw [hsel, hhold]

theorem OnPrimary.fallbackLost (r : Output) : r.fallbackLost.OnPrimary := by
  unfold Output.fallbackLost OnPrimary
  cases hhold : r.hold <;> cases hsel : r.selection <;> simp [hsel]

theorem OnPrimary.primaryLost (h : r.OnPrimary) : (r.primaryLost false).selection = .noneAvailable := by
  unfold Output.primaryLost
  rcases h with hsel | hsel | hsel <;> rw [hsel]
  · exact hsel
  · rfl
  · rfl

theorem OnFallback.loses {l : List (Nat × Bool)} (h : r.OnFallback) (hnodup : (l.map Prod.fst).Nodup) (hp : ∀ x ∈ l, r.primary ≠ x.1)
    (hf : ∃ x ∈ l, r.fallback = some x.1) : (r.loses l).selection = .noneAvailable := by
  rw [loses_of_fallback hnodup hp hf]
  exact h.fallbackLost

theorem OnPrimary.loses {l : List (Nat × Bool)} (h : r.OnPrimary) (hnodup : (l.map Prod.fst).Nodup) (hgone : ∀ x ∈ l, x.2 = false)
    (hp : ∃ x ∈ l, r.primary = x.1) (hf : ∀ x ∈ l, r.fallback ≠ some x.1) : (r.loses l).selection = .noneAvailable := by
  rw [loses_of_primary hnodup hgone hp hf]
  exact h.primaryLost

/-- Primary and fallback both go, in either order: nothing is left. After the loss of the fallback it is not there any more. -/
theorem loses_of_both : ∀ {l : List (Nat × Bool)} {r : Output}, (l.map Prod.fst).Nodup →
    l.Pairwise (fun x y => r.fallback = some x.1 → y.2 = false) → (∃ x ∈ l, r.primary = x.1) → (∃ x ∈ l, r.fallback = some x.1) →
    (r.hold.isSome = true → r.selection = .toFallback ∨ r.selection = .fallback) → (r.loses l).selection = .noneAvailable
  | [], _, _, _, ⟨_, hx, _⟩, _, _ => by cases hx
  | x :: l, r, hnodup, hgone, ⟨y, hy, hp⟩, ⟨z, hz, hf⟩, hhold => by
    obtain ⟨hx, hl⟩ := List.nodup_cons.mp hnodup
    obtain ⟨hgoneX, hgoneL⟩ := List.pairwise_cons.mp hgone
    have hother {w : Nat × Bool} (hw : w ∈ l) : x.1 ≠ w.1 := fun he => hx (he ▸ List.mem_map_of_mem hw)
    by_cases hpx : r.primary = x.1
    · obtain ⟨hp', hf'⟩ := Prod.mk.inj (r.sources_primaryLost x.2)
      by_cases hfx : r.fallback = some x.1
      · have hstep : r.atLoss x.1 x.2 = (r.primaryLost x.2).fallbackLost := by rw [atLoss, if_pos hpx, if_pos hfx]
        obtain ⟨hp'', hf''⟩ := Prod.mk.inj (r.primaryLost x.2).sources_fallbackLost
        rw [loses, hstep, loses_of_untouched]
        · exact (OnFallback.primaryLost hhold x.2).fallbackLost
        · intro w hw
          rw [hp'', hf'', hp', hf', hpx, hfx]
          exact ⟨hother hw, fun he => hother hw (Option.some.inj he)⟩
      · have hstep : r.atLoss x.1 x.2 = r.primaryLost x.2 := by rw [atLoss, if_pos hpx, if_neg hfx]
        rw [loses, hstep]
        refine (OnFallback.primaryLost hhold x.2).loses hl (fun w hw => ?_) ⟨z, (List.mem_cons.mp hz).resolve_left ?_, hf'.trans hf⟩
        · rw [hp', hpx]
          exact hother hw
        · rintro rfl
          exact hfx hf
    · have hy' : y ∈ l := (List.mem_cons.mp hy).resolve_left (by rintro rfl; exact hpx hp)
      by_cases hfx : r.fallback = some x.1
      · have hstep : r.atLoss x.1 x.2 = r.fallbackLost := by rw [atLoss, if_neg hpx, if_pos hfx]
        obtain ⟨hp', hf'⟩ := Prod.mk.inj r.sources_fallbackLost
        rw [loses, hstep]
        refine (OnPrimary.fallbackLost r).loses hl (fun w hw => hgoneX w hw hfx) ⟨y, hy', hp'.trans hp⟩ fun w hw => ?_
        rw [hf', hfx]
        exact fun he => hother hw (Option.some.inj he)
      · rw [loses, atLoss_of_untouched hpx hfx]
        exact loses_of_both hl hgoneL ⟨y, hy', hp⟩ ⟨z, (List.mem_cons.mp hz).resolve_left (by rintro rfl; exact hfx hf), hf⟩ hhold

end Output

end Sys2Proof.Machine

/-!
A desk slot's returns and a card's inputs go or come one after another: what becomes of the outputs (R125, R128 to R130).
-/
namespace Sys2Proof.Machine

/-! ### Runs of events over the state -/

theorem State.output_foldOver_regains {α : Type} {f : α → State → State} {code : α → Nat} {ms : Nat}
    (hstep : ∀ x s, s.revertTime = ms → (f x s).revertTime = ms ∧ ∀ o, (f x s).output o = (s.output o).atReturn (code x) ms) :
    ∀ (l : List α) {s : State}, s.revertTime = ms → ∀ o, (State.foldOver f l s).output o = (s.output o).regains ms (l.map code)
  | [], _, _, _ => rfl
  | x :: l, s, hs, o => by
    obtain ⟨htime, hout⟩ := hstep x s hs
    rw [State.foldOver, State.output_foldOver_regains hstep l htime, hout]
    rfl

/-- Every output has taken a run of returns. -/
theorem State.sourcesBack_of_regains {back : Nat → Prop} {codes : List Nat} {s t : State} (hnodup : codes.Nodup)
    (hback : ∀ c, back c ↔ c ∈ codes) (h : ∀ o, t.output o = (s.output o).regains s.revertTime codes) : s.SourcesBack back t := by
  intro o _
  dsimp only
  have hsecond : (∃ c, (s.output o).fallback = some c ∧ back c) ↔ ∃ x ∈ codes, (s.output o).fallback = some x := by
    simp only [hback, and_comm]
  rw [h o, hsecond]
  simp only [hback]
  refine ⟨fun hp hf => ?_, fun hp hf => ?_, fun hp hf => ?_⟩
  · refine Output.regains_of_untouched fun x hx => ⟨fun he => hp (he ▸ hx), fun he => hf ⟨x, hx, he⟩⟩
  · exact Output.regains_of_primary hnodup hp fun x hx he => hf ⟨x, hx, he⟩
  · exact Output.regains_of_fallback hnodup (fun x hx he => hp (he ▸ hx)) hf

/-- What holds of a run of losses: each gives every output its event, with the fallback as it then is; a source is unavailable from its
own event on, and the others stand. `g` is the state in which the event finds the part. -/
structure Losing {α : Type} (inv : State → Prop) (ok : α → Prop) (f g : α → State → State) (code : α → Nat) : Prop where
  keepsInv : ∀ x s, ok x → inv s → inv (f x s)
  output : ∀ x s, ok x → inv s → ∀ o, (f x s).output o = (s.output o).atLoss (code x) ((g x s).fallbackAvailable (s.output o))
  stands : ∀ x s c, ok x → inv s → c ≠ code x → (f x s).available c = s.available c ∧ (g x s).available c = s.available c
  drops : ∀ x s, ok x → inv s → (f x s).available (code x) = false
  stays : ∀ x s c, ok x → inv s → s.available c = false → (f x s).available c = false ∧ (g x s).available c = false

/-- The events of a run of losses as one output takes them. -/
def lossEvents {α : Type} (f g : α → State → State) (code : α → Nat) (r : Output) : List α → State → List (Nat × Bool)
  | [], _ => []
  | x :: l, s => (code x, (g x s).fallbackAvailable r) :: lossEvents f g code r l (f x s)

theorem State.fallbackAvailable_of_some {r : Output} {c : Nat} (h : r.fallback = some c) (s : State) :
    s.fallbackAvailable r = s.available c := by
  unfold State.fallbackAvailable
  rw [h]

theorem State.fallbackAvailable_of_none {r : Output} (h : r.fallback = none) (s : State) : s.fallbackAvailable r = false := by
  unfold State.fallbackAvailable
  rw [h]

theorem State.fallbackAvailable_congr {r x : Output} (h : x.fallback = r.fallback) (s : State) :
    s.fallbackAvailable x = s.fallbackAvailable r := by
  unfold State.fallbackAvailable
  rw [h]

section
variable {α : Type} {inv : State → Prop} {ok : α → Prop} {f g : α → State → State} {code : α → Nat} (h : Losing inv ok f g code)

theorem lossEvents_codes (r : Output) : ∀ (l : List α) (s : State), (lossEvents f g code r l s).map Prod.fst = l.map code
  | [], _ => rfl
  | x :: l, s => congrArg (code x :: ·) (lossEvents_codes r l (f x s))

include h

theorem Losing.output_foldOver : ∀ {l : List α} {s : State} {r : Output} (o : Nat), (∀ x ∈ l, ok x) → inv s →
    (s.output o).sources = r.sources → (State.foldOver f l s).output o = (s.output o).loses (lossEvents f g code r l s)
  | [], _, _, _, _, _, _ => rfl
  | x :: l, s, r, o, hok, hinv, hr => by
    have hout := h.output x s (hok x (by simp)) hinv o
    rw [State.fallbackAvailable_congr (Prod.mk.inj hr).2] at hout
    rw [State.foldOver, Losing.output_foldOver (r := r) o (fun y hy => hok y (by simp [hy])) (h.keepsInv x s (hok x (by simp)) hinv), hout]
    · rfl
    · rw [hout, Output.sources_atLoss]
      exact hr

/-- A fallback that is not there stays away. -/
theorem Losing.events_gone {r : Output} : ∀ {l : List α} {s : State}, (∀ x ∈ l, ok x) → inv s → s.fallbackAvailable r = false →
    ∀ y ∈ lossEvents f g code r l s, y.2 = false
  | [], _, _, _, _ => fun _ hy => by cases hy
  | x :: l, s, hok, hinv, hgone => by
    have hstays : (f x s).fallbackAvailable r = false ∧ (g x s).fallbackAvailable r = false := by
      cases hf : r.fallback with
      | none => exact ⟨State.fallbackAvailable_of_none hf _, State.fallbackAvailable_of_none hf _⟩
      | some c =>
        rw [State.fallbackAvailable_of_some hf] at hgone ⊢
        rw [State.fallbackAvailable_of_some hf]
        exact h.stays x s c (hok x (by simp)) hinv hgone
    intro y hy
    rcases List.mem_cons.mp hy with rfl | hy
    · exact hstays.2
    · exact Losing.events_gone (fun z hz => hok z (by simp [hz])) (h.keepsInv x s (hok x (by simp)) hinv) hstays.1 y hy

/-- A fallback that is not among those that go is there, or not, as before the run. -/
theorem Losing.events_stand {r : Output} : ∀ {l : List α} {s : State}, (∀ x ∈ l, ok x) → inv s → (∀ x ∈ l, r.fallback ≠ some (code x)) →
    ∀ y ∈ lossEvents f g code r l s, y.2 = s.fallbackAvailable r
  | [], _, _, _, _ => fun _ hy => by cases hy
  | x :: l, s, hok, hinv, hother => by
    have hstands : (f x s).fallbackAvailable r = s.fallbackAvailable r ∧ (g x s).fallbackAvailable r = s.fallbackAvailable r := by
      cases hf : r.fallback with
      | none => simp only [State.fallbackAvailable_of_none hf, and_self]
      | some c =>
        simp only [State.fallbackAvailable_of_some hf]
        refine h.stands x s c (hok x (by simp)) hinv ?_
        rintro rfl
        exact hother x (by simp) hf
    intro y hy
    rcases List.mem_cons.mp hy with rfl | hy
    · exact hstands.2
    · rw [← hstands.1]
      exact Losing.events_stand (fun z hz => hok z (by simp [hz])) (h.keepsInv x s (hok x (by simp)) hinv)
        (fun z hz => hother z (by simp [hz])) y hy

theorem Losing.events_after {r : Output} : ∀ {l : List α} {s : State}, (∀ x ∈ l, ok x) → inv s →
    (lossEvents f g code r l s).Pairwise fun x y => r.fallback = some x.1 → y.2 = false
  | [], _, _, _ => .nil
  | x :: l, s, hok, hinv => by
    have hinv' := h.keepsInv x s (hok x (by simp)) hinv
    have hok' : ∀ z ∈ l, ok z := fun z hz => hok z (by simp [hz])
    refine .cons (fun y hy hf => ?_) (Losing.events_after hok' hinv')
    refine Losing.events_gone h hok' hinv' ?_ y hy
    rw [State.fallbackAvailable_of_some hf]
    exact h.drops x s (hok x (by simp)) hinv

/-- Every output has taken a run of losses. -/
theorem Losing.sourcesGone {gone : Nat → Prop} {l : List α} {s : State} (hok : ∀ x ∈ l, ok x) (hinv : inv s)
    (hnodup : (l.map code).Nodup) (hgone : ∀ c, gone c ↔ c ∈ l.map code) : s.SourcesGone gone (State.foldOver f l s) := by
  intro o _
  dsimp only
  have hout := h.output_foldOver (r := s.output o) o hok hinv rfl
  have hcodes := lossEvents_codes (f := f) (g := g) (code := code) (s.output o) l s
  have hmem (c : Nat) : c ∈ l.map code ↔ ∃ x ∈ lossEvents f g code (s.output o) l s, c = x.1 := by
    rw [← hcodes]
    simp [eq_comm]
  have hsecond : (∃ c, (s.output o).fallback = some c ∧ gone c) ↔
      ∃ x ∈ lossEvents f g code (s.output o) l s, (s.output o).fallback = some x.1 := by
    simp only [hgone, hmem]
    constructor
    · rintro ⟨c, hc, x, hx, rfl⟩
      exact ⟨x, hx, hc⟩
    · rintro ⟨x, hx, hc⟩
      exact ⟨x.1, hc, x, hx, rfl⟩
  rw [hout, hsecond]
  simp only [hgone]
  simp only [hmem]
  rw [← hcodes] at hnodup
  refine ⟨fun hp hf => ?_, fun hp hf => ?_, fun hp hf => ?_, fun hp hf hhold => ?_⟩
  · exact Output.loses_of_untouched fun x hx => ⟨fun he => hp ⟨x, hx, he⟩, fun he => hf ⟨x, hx, he⟩⟩
  · refine Output.loses_of_primary hnodup (h.events_stand hok hinv fun x hx he => hf ?_) hp fun x hx he => hf ⟨x, hx, he⟩
    obtain ⟨y, hy, hxy⟩ := (hmem (code x)).mp (List.mem_map_of_mem hx)
    exact ⟨y, hy, he.trans (congrArg some hxy)⟩
  · exact Output.loses_of_fallback hnodup (fun x hx he => hp ⟨x, hx, he⟩) hf
  · exact Output.loses_of_both hnodup (h.events_after hok hinv) hp hf hhold

end

/-! ### The returns of a desk slot -/

theorem isReturn_iff (d : Desk) (c : Nat) : IsReturn d c ↔ c ∈ (List.range 16).map fun n => returnBase d + n := by
  unfold IsReturn
  simp only [List.mem_map, List.mem_range]
  constructor
  · rintro ⟨hlow, hhigh⟩
    exact ⟨c - returnBase d, by cases d <;> simp only [returnBase, Desk.number] at * <;> omega,
      by cases d <;> simp only [returnBase, Desk.number] at * <;> omega⟩
  · rintro ⟨n, hn, rfl⟩
    cases d <;> simp only [returnBase, Desk.number] <;> omega

theorem returnCodes_nodup (d : Desk) : ((List.range 16).map fun n => returnBase d + n).Nodup :=
  List.nodup_range.map fun _ _ h => Nat.add_left_cancel h

theorem State.sourcesBack_returnsRegained (d : Desk) (s : State) : s.SourcesBack (IsReturn d) (s.returnsRegained d) :=
  State.sourcesBack_of_regains (returnCodes_nodup d) (isReturn_iff d) fun o =>
    State.output_foldOver_regains (f := fun n s => s.sourceRegained (returnBase d + n))
      (fun n u hu => ⟨hu, fun o => by rw [State.output_sourceRegained (by cases d <;> simp [returnBase]), hu]⟩) _ rfl o

theorem sourceOf_return (d : Desk) {n : Nat} (hn : n < 16) : sourceOf (returnBase d + n) = some (.ret d n) := by
  cases d <;> simp only [returnBase] <;> interval_cases n <;> rfl

theorem losing_returns (d : Desk) :
    Losing (fun s => (s.slot d).state ≠ .active) (fun n : Nat => n < 16) (fun n s => s.sourceLost (returnBase d + n)) (fun _ s => s)
      (fun n => returnBase d + n) where
  keepsInv _ _ _ hs := hs
  output n s _ _ o := State.output_sourceLost (by cases d <;> simp [returnBase]) s o
  stands _ _ _ _ _ _ := ⟨rfl, rfl⟩
  drops n s hn hs := by
    unfold State.available
    rw [sourceOf_return d hn]
    exact decide_eq_false hs
  stays _ _ _ _ _ hgone := ⟨hgone, hgone⟩

theorem State.sourcesGone_returnsLost {d : Desk} {s : State} (h : (s.slot d).state ≠ .active) :
    s.SourcesGone (IsReturn d) (s.returnsLost d) :=
  (losing_returns d).sourcesGone (fun _ hn => List.mem_range.mp hn) h (returnCodes_nodup d) (isReturn_iff d)

end Sys2Proof.Machine

/-!
The loss of a port (R11, R28, R31), and the slot that becomes SILENT for it (R38, R42, R119, R168, R174).
-/
namespace Sys2Proof.Machine

/-! ### Port records, slot records and the wait list alone -/

/-- Nothing but the ports, the desk slots and the wait list has changed. -/
def State.SameButTable (s t : State) : Prop := t = { s with ports := t.ports, slots := t.slots, waitList := t.waitList }

namespace State.SameButTable
variable {s t u : State}

theorem refl (s : State) : s.SameButTable s := rfl
theorem trans (h : s.SameButTable t) (h' : t.SameButTable u) : s.SameButTable u :=
  Eq.trans h' (congrArg (fun v : State => { v with ports := u.ports, slots := u.slots, waitList := u.waitList }) h)
theorem modPort (h : s.SameButTable t) (p : LinkPort) (f : Port → Port) : s.SameButTable (t.modPort p f) := h.trans rfl
theorem modSlot (h : s.SameButTable t) (d : Desk) (f : Slot → Slot) : s.SameButTable (t.modSlot d f) := h.trans rfl

theorem openPeriod (p : LinkPort) (s : State) : s.SameButTable (s.openPeriod p) := by
  cases h : (s.port p).frameSeen with
  | true =>
    rw [State.openPeriod_of_seen h]
    exact ((((refl s).modSlot _ _).modSlot _ _).modSlot _ _).modPort _ _
  | false =>
    rw [State.openPeriod_of_not_seen h]
    exact (refl s).modPort _ _

theorem portDelivered (p : LinkPort) (r : Port) (s : State) : s.SameButTable (s.portDelivered p r) := (openPeriod p s).modPort p _

end State.SameButTable

/-! ### The end of a fade -/

/-- A slot record at the end of its fade, if it is overdue (R33 to R35). -/
def Slot.fadeEnded (r : Slot) : Slot :=
  if r.conceal = .fadingOut ∧ 64 ≤ r.step then { r with conceal := .silentGap, step := 0 }
  else if r.conceal = .fadingIn ∧ 64 ≤ r.step then { r with conceal := .none, step := 0 }
  else r

/-- The fields of a slot record but for those of its concealment. -/
def Slot.lessFade (r : Slot) : Slot := { r with conceal := .none, step := 0 }

theorem Slot.lessFade_fadeEnded (r : Slot) : r.fadeEnded.lessFade = r.lessFade := by
  unfold Slot.fadeEnded
  split
  · rfl
  · split <;> rfl

theorem State.fadeEnds_eq (d : Desk) (s : State) :
    (s.fadeOutEnd d).fadeInEnd d =
      if (s.slot d).conceal = .fadingIn ∧ 64 ≤ (s.slot d).step then (s.modSlot d Slot.fadeEnded).recheck d
      else s.modSlot d Slot.fadeEnded := by
  by_cases hout : (s.slot d).conceal = .fadingOut ∧ 64 ≤ (s.slot d).step
  · have hslot := State.slot_modSlot_same s d fun r => { r with conceal := .silentGap, step := 0 }
    have hin : ¬((s.slot d).conceal = .fadingIn ∧ 64 ≤ (s.slot d).step) := fun h => by
      rw [hout.1] at h
      cases h.1
    rw [State.fadeOutEnd, if_pos hout, State.fadeInEnd, if_neg (by rw [hslot]; exact fun h => by cases h.1), if_neg hin]
    exact State.modSlot_congr (if_pos hout).symm
  · rw [State.fadeOutEnd, if_neg hout, State.fadeInEnd]
    split
    next hin => exact congrArg (State.recheck d) (State.modSlot_congr ((if_neg hout).trans (if_pos hin)).symm)
    next hin =>
      have hfixed : (s.slot d).fadeEnded = s.slot d := by rw [Slot.fadeEnded, if_neg hout, if_neg hin]
      exact (State.modSlot_of_fixed hfixed).symm

section
variable {d : Desk} {p : LinkPort} {s : State}

/-- The end of a fade on a slot that has nowhere to go. -/
theorem State.fadeEndsOn_of_no_other (hbound : s.boundTo p = some d) (hactive : (s.slot d).active = some p)
    (hother : ∀ q, q ∈ (s.slot d).bound → q ≠ p → (s.port q).state ≠ .locked) : s.fadeEndsOn p = s.modSlot d Slot.fadeEnded := by
  unfold State.fadeEndsOn
  rw [hbound]
  refine (if_pos hactive).trans ((State.fadeEnds_eq d s).trans ?_)
  split
  · refine State.recheck_of_not_due ?_
    rintro ⟨x, q, hx, hq, -, -, -, hlocked⟩
    have hcopy : (s.slot d).fadeEnded.lessFade = (s.slot d).lessFade := Slot.lessFade_fadeEnded _
    rw [State.slot_modSlot_same] at hx hq
    rw [eq_of_copy hcopy Slot.active fun _ => rfl, hactive] at hx
    cases hx
    obtain ⟨hmem, hne⟩ := State.Moves.mem_of_otherThan hq
    rw [eq_of_copy hcopy Slot.bound fun _ => rfl] at hmem
    exact hother q hmem hne hlocked
  · rfl

/-! ### The loss event -/

/-- A surplus port takes a bound port's place, if there is one (R28). -/
def State.rebound (d : Desk) (p : LinkPort) (surplus : Option LinkPort) (s : State) : State :=
  surplus.elim s fun q => s.modSlot d (Slot.replaceBound p q)

/-- The wait list without a port. -/
def State.unlisted (p : LinkPort) (s : State) : State := { s with waitList := s.waitList.filter (· ≠ p) }

theorem State.lossEvent_of_unbound (hbound : s.boundTo p = none) : s.lossEvent p = s.unlisted p := by
  have hbound' : ({ s with waitList := s.waitList.filter (· ≠ p) } : State).boundTo p = none := hbound
  unfold State.lossEvent
  dsimp only
  rw [hbound']
  rfl

theorem State.lossEvent_of_bound (hbound : s.boundTo p = some d) :
    s.lossEvent p =
      if (s.slot d).state = .active ∧ (s.slot d).active = some p then
        ((s.unlisted p).rebound d p (s.surplusPort (s.slot d).ident)).loseActive d ((s.slot d).otherThan p)
      else if (s.surplusPort (s.slot d).ident).isSome then
        ((s.unlisted p).rebound d p (s.surplusPort (s.slot d).ident)).recheck d
      else (s.unlisted p).rebound d p (s.surplusPort (s.slot d).ident) := by
  have hbound' : ({ s with waitList := s.waitList.filter (· ≠ p) } : State).boundTo p = some d := hbound
  have hsurplus (i : Option DeskId) :
      ({ s with waitList := s.waitList.filter (· ≠ p) } : State).surplusPort i = s.surplusPort i := rfl
  have hslot : ({ s with waitList := s.waitList.filter (· ≠ p) } : State).slot d = s.slot d := rfl
  unfold State.lossEvent
  dsimp only
  rw [hbound']
  dsimp only
  rw [hslot, hsurplus]
  cases s.surplusPort (s.slot d).ident <;> rfl

theorem State.surplusPort_eq_none {i : Option DeskId}
    (h : ∀ x, (∀ e, x ∉ (s.slot e).bound) → (s.port x).usable = true → (s.port x).identSeen ≠ i) : s.surplusPort i = none := by
  refine List.find?_eq_none.mpr fun x _ hx => ?_
  obtain ⟨hfree, husable, hseen⟩ := of_decide_eq_true hx
  have hnone := List.find?_eq_none.mp (Option.isNone_iff_eq_none.mp hfree)
  exact h x (fun e he => hnone e (by cases e <;> decide) (decide_eq_true he)) husable hseen

end

/-! ### A slot becomes SILENT -/

/-- A slot record as the slot becomes SILENT (R38, R39). -/
def Slot.silenced (graceTime : Nat) (r : Slot) : Slot :=
  { (if r.conceal = .silentGap then r else r.startFade) with
    state := .silent, active := none, grace := some { count := 0, limit := graceTime * 48 } }

/-- The slot, its lane and the buses as the slot becomes SILENT (R38, R119, R174). -/
def State.fallSilent (d : Desk) (s : State) : State :=
  ((s.modSlot d (Slot.silenced s.graceTime)).modLane d Lane.silence).leaveBuses (.desk d)

theorem State.becomeSilent_eq (d : Desk) (s : State) :
    s.becomeSilent d = ((s.fallSilent d).discardBatch (.desk d)).returnsLost d := rfl

theorem State.foldOver_outputs_only {α : Type} {f : α → State → State} (h : ∀ x s, ∃ outs, f x s = { s with outputs := outs }) :
    ∀ (l : List α) (s : State), ∃ outs, State.foldOver f l s = { s with outputs := outs }
  | [], s => ⟨s.outputs, rfl⟩
  | x :: l, s => by
    obtain ⟨outs, hx⟩ := h x s
    obtain ⟨outs', hl⟩ := State.foldOver_outputs_only h l (f x s)
    exact ⟨outs', by rw [State.foldOver, hl, hx]⟩

/-- The events of lost returns change the outputs alone. -/
theorem State.returnsLost_only (d : Desk) (s : State) : ∃ outs, s.returnsLost d = { s with outputs := outs } :=
  State.foldOver_outputs_only (fun _ _ => ⟨_, rfl⟩) _ s

theorem State.returnsRegained_only (d : Desk) (s : State) : ∃ outs, s.returnsRegained d = { s with outputs := outs } :=
  State.foldOver_outputs_only (fun _ _ => ⟨_, rfl⟩) _ s

/-! ### What a discarded batch leaves -/

section
variable (d : Desk) (s : State)

/-- A discarded batch of a desk slot touches the batches and the slot's answers (R165, R168). -/
theorem State.discardBatch_only : ∃ bs ls, s.discardBatch (.desk d) = { s with batches := bs, lanes := ls } := by
  unfold State.discardBatch
  split
  · exact ⟨s.batches, s.lanes, rfl⟩
  · exact ⟨_, s.lanes, rfl⟩
  · exact ⟨_, _, rfl⟩

theorem State.batch_discardBatch :
    ((s.discardBatch (.desk d)).batch (.desk d)).state = .none ∧
      ((s.batch (.desk d)).state ≠ .none → ((s.discardBatch (.desk d)).batch (.desk d)).staged = []) := by
  unfold State.discardBatch
  split
  next h => exact ⟨h, fun hne => absurd h hne⟩
  · rw [State.batch_setBatch_same]
    exact ⟨rfl, fun _ => rfl⟩
  · rw [State.batch_setBatch_same]
    exact ⟨rfl, fun _ => rfl⟩

theorem State.lane_completeApply (r : Result) (applied dropped : Nat) :
    (s.completeApply (.desk d) r applied dropped).lane d =
      { s.lane d with answers := completeIn r applied dropped (s.lane d).answers } := State.lane_modLane_same ..

/-- The lane but for its answers. -/
def Lane.lessAnswers (l : Lane) : Lane := { l with answers := [] }

theorem State.lane_discardBatch : ((s.discardBatch (.desk d)).lane d).lessAnswers = (s.lane d).lessAnswers := by
  unfold State.discardBatch
  split
  · rfl
  · rfl
  · rw [State.setBatch_lane, State.lane_completeApply]
    rfl

theorem State.answers_discardBatch (h : (s.batch (.desk d)).state ≠ .sealed) :
    ((s.discardBatch (.desk d)).lane d).answers = (s.lane d).answers := by
  unfold State.discardBatch
  split
  · rfl
  · rfl
  next hsealed => exact absurd hsealed h

theorem State.answers_discardBatch_sealed (h : (s.batch (.desk d)).state = .sealed) :
    ((s.discardBatch (.desk d)).lane d).answers =
      completeIn .failed 0 (satAdd 65535 (s.batch (.desk d)).staged.length (s.batch (.desk d)).dropped) (s.lane d).answers := by
  unfold State.discardBatch
  rw [h]
  dsimp only
  rw [State.setBatch_lane, State.lane_completeApply]

end

/-! ### Leaving a bus -/

theorem BusRec.remove_of_lawful {act : SlotId → Prop} {cls : SlotId → Nat} {b : BusRec} (h : b.Lawful act cls) (limit : Nat) (sl : SlotId) :
    (b.remove limit sl).talker ≠ some sl ∧ sl ∉ (b.remove limit sl).waiting ∧ (b.remove limit sl).waiting.Sublist b.waiting ∧
      (b.remove limit sl).notices.get sl = false ∧ (b.talker = some sl → (b.remove limit sl).talker = b.waiting.head?) := by
  have hnotice (c : BusRec) : ({ c with notices := b.notices.set sl false } : BusRec).notices.get sl = false := by
    show (b.notices.set sl false).get sl = false
    rw [PerSlot.get_set, if_pos rfl]
  unfold BusRec.remove
  by_cases htalker : b.talker = some sl
  · have hapart := h.apart sl htalker
    rw [BusRec.release_of_talker htalker]
    unfold BusRec.handOn
    cases hw : b.waiting with
    | nil => exact ⟨nofun, nofun, .slnil, hnotice _, fun _ => rfl⟩
    | cons x xs =>
      rw [hw] at hapart
      obtain ⟨hne, hxs⟩ := not_or.mp (fun hmem => hapart (List.mem_cons.mpr hmem))
      exact ⟨fun he => hne (Option.some.inj he).symm, hxs, List.sublist_cons_self .., hnotice _, fun _ => rfl⟩
  · by_cases hwaiting : sl ∈ b.waiting
    · rw [BusRec.release_of_waiting htalker hwaiting]
      exact ⟨htalker, fun hmem => by simpa using (List.mem_filter.mp hmem).2, List.filter_sublist, hnotice _, fun he => absurd he htalker⟩
    · rw [BusRec.release_of_neither htalker hwaiting]
      exact ⟨htalker, hwaiting, .refl _, hnotice _, fun he => absurd he htalker⟩

end Sys2Proof.Machine

/-!
The slot that becomes SILENT at the loss of its last usable port (R38, R39, R42, R119, R168, R174).
-/
namespace Sys2Proof.Machine

/-! ### Sources that go, seen from before -/

theorem State.SourcesGone.of_before {gone : Nat → Prop} {s u t : State} (h : u.SourcesGone gone t) (houtputs : u.outputs = s.outputs)
    (havailable : ∀ c, ¬gone c → u.available c = s.available c) : s.SourcesGone gone t := by
  intro o ho
  have hu := h o ho
  have hout : u.output o = s.output o := by rw [State.output, houtputs, State.output]
  rw [hout] at hu
  obtain ⟨hstands, hprimary, hrest⟩ := hu
  refine ⟨hstands, fun hp hf => ?_, hrest⟩
  rw [hprimary hp hf]
  congr 1
  cases hc : (s.output o).fallback with
  | none => rw [State.fallbackAvailable_of_none hc, State.fallbackAvailable_of_none hc]
  | some c =>
    rw [State.fallbackAvailable_of_some hc, State.fallbackAvailable_of_some hc]
    exact havailable c fun hg => hf ⟨c, hc, hg⟩

theorem isReturn_of_sourceOf {c : Nat} {d : Desk} {n : Nat} (h : sourceOf c = some (.ret d n)) : IsReturn d c := by
  unfold sourceOf at h
  unfold IsReturn
  split_ifs at h
  all_goals cases h
  all_goals
    simp only [Desk.number]
    omega

/-- Availability of a source that is no return of a slot does not see the slot (R125). -/
theorem State.available_of_slot {d : Desk} {s u : State} (hchannels : u.channels = s.channels) (hslots : ∀ e, e ≠ d → u.slot e = s.slot e)
    {c : Nat} (hc : ¬IsReturn d c) : u.available c = s.available c := by
  unfold State.available
  have hreturn {e : Desk} {n : Nat} (h : sourceOf c = some (.ret e n)) : e ≠ d := by
    rintro rfl
    exact hc (isReturn_of_sourceOf h)
  cases h : sourceOf c with
  | none => rfl
  | some src =>
    cases src with
    | ret e n =>
      show decide ((u.slot e).state = .active) = decide ((s.slot e).state = .active)
      rw [hslots e (hreturn h)]
    | input n =>
      show decide ((u.channel n).link ≠ .absent) = decide ((s.channel n).link ≠ .absent)
      rw [State.channel, hchannels, State.channel]
    | _ => rfl

/-! ### Becoming SILENT -/

section
variable (d : Desk) (s : State)

/-- The parts of a becoming SILENT that batches, answers and outputs do not see. -/
theorem State.becomeSilent_only : ∃ bs ls outs, s.becomeSilent d =
    { ((s.modSlot d (Slot.silenced s.graceTime)).leaveBuses (.desk d)) with batches := bs, lanes := ls, outputs := outs } := by
  rw [State.becomeSilent_eq]
  obtain ⟨bs, ls, hbatch⟩ := (s.fallSilent d).discardBatch_only d
  obtain ⟨outs, hout⟩ := ((s.fallSilent d).discardBatch (.desk d)).returnsLost_only d
  exact ⟨bs, ls, outs, by rw [hout, hbatch]; rfl⟩

theorem State.becomeSilent_slot : (s.becomeSilent d).slot d = (s.slot d).silenced s.graceTime := by
  obtain ⟨bs, ls, outs, h⟩ := s.becomeSilent_only d
  rw [h]
  exact State.slot_modSlot_same ..

theorem State.becomeSilent_slot_ne {e : Desk} (he : e ≠ d) : (s.becomeSilent d).slot e = s.slot e := by
  obtain ⟨bs, ls, outs, h⟩ := s.becomeSilent_only d
  rw [h]
  exact (State.slot_modSlot ..).trans (if_neg he)

theorem State.becomeSilent_bus (b : Bus) : (s.becomeSilent d).bus b = (s.bus b).remove s.grantLimit (.desk d) := by
  obtain ⟨bs, ls, outs, h⟩ := s.becomeSilent_only d
  rw [h]
  cases b <;> rfl

theorem State.lane_fallSilent : (s.fallSilent d).lane d = (s.lane d).silence := State.lane_modLane_same (s.modSlot d _) ..

theorem State.becomeSilent_batch :
    ((s.becomeSilent d).batch (.desk d)).state = .none ∧
      ((s.batch (.desk d)).state ≠ .none → ((s.becomeSilent d).batch (.desk d)).staged = []) := by
  have hbatch := (s.fallSilent d).batch_discardBatch d
  obtain ⟨outs, hout⟩ := ((s.fallSilent d).discardBatch (.desk d)).returnsLost_only d
  rw [State.becomeSilent_eq, hout]
  exact hbatch

theorem State.becomeSilent_lane : ((s.becomeSilent d).lane d).lessAnswers = (s.lane d).silence.lessAnswers := by
  have hlane := (s.fallSilent d).lane_discardBatch d
  obtain ⟨outs, hout⟩ := ((s.fallSilent d).discardBatch (.desk d)).returnsLost_only d
  rw [State.becomeSilent_eq, hout]
  exact hlane.trans (congrArg Lane.lessAnswers (s.lane_fallSilent d))

theorem State.becomeSilent_answers (h : (s.batch (.desk d)).state ≠ .sealed) : ((s.becomeSilent d).lane d).answers = (s.lane d).answers := by
  have hanswers := State.answers_discardBatch d (s.fallSilent d) h
  obtain ⟨outs, hout⟩ := ((s.fallSilent d).discardBatch (.desk d)).returnsLost_only d
  rw [State.becomeSilent_eq, hout]
  exact hanswers.trans (congrArg Lane.answers (s.lane_fallSilent d) :)

theorem State.becomeSilent_answers_sealed (h : (s.batch (.desk d)).state = .sealed) :
    ((s.becomeSilent d).lane d).answers =
      completeIn .failed 0 (satAdd 65535 (s.batch (.desk d)).staged.length (s.batch (.desk d)).dropped) (s.lane d).answers := by
  have hanswers := State.answers_discardBatch_sealed d (s.fallSilent d) h
  obtain ⟨outs, hout⟩ := ((s.fallSilent d).discardBatch (.desk d)).returnsLost_only d
  rw [State.becomeSilent_eq, hout]
  rw [s.lane_fallSilent d] at hanswers
  exact hanswers

theorem State.becomeSilent_sources : s.SourcesGone (IsReturn d) (s.becomeSilent d) := by
  obtain ⟨bs, ls, hbatch⟩ := (s.fallSilent d).discardBatch_only d
  have hsilent : ((s.fallSilent d).slot d).state = .silent := by
    show ((s.modSlot d (Slot.silenced s.graceTime)).slot d).state = .silent
    rw [State.slot_modSlot_same]
    rfl
  have hstate : ((({ s.fallSilent d with batches := bs, lanes := ls } : State)).slot d).state ≠ .active := by
    show ((s.fallSilent d).slot d).state ≠ .active
    rw [hsilent]
    exact nofun
  rw [State.becomeSilent_eq, hbatch]
  refine (State.sourcesGone_returnsLost hstate).of_before rfl fun c hc => ?_
  refine State.available_of_slot (d := d) (by rfl) (fun e he => ?_) hc
  show (s.modSlot d (Slot.silenced s.graceTime)).slot e = s.slot e
  rw [State.slot_modSlot, if_neg he]

end

end Sys2Proof.Machine

/-!
SILENT at the fourth missing period of a slot's last usable port: the statement.
-/
namespace Sys2Proof.Machine

/-! ### The slot record on the way -/

/-- The fields of a slot record that neither a new period nor the end of a fade nor the fall to SILENT writes. -/
def Slot.kept (r : Slot) : Slot :=
  { r with state := .vacant, active := none, grace := none, conceal := .none, step := 0, origin := Audio.silent, produced := false,
           taken := false }

theorem Slot.kept_reopened (p : LinkPort) (r : Slot) : (r.reopened p).kept = r.kept := by
  unfold Slot.reopened
  split <;> rfl

theorem Slot.kept_fadeEnded (r : Slot) : r.fadeEnded.kept = r.kept := by
  unfold Slot.fadeEnded
  split
  · rfl
  · split <;> rfl

theorem Slot.kept_silenced (g : Nat) (r : Slot) : (r.silenced g).kept = r.kept := by
  unfold Slot.silenced
  split <;> rfl

/-- The fields of a slot record but for those that say what has been delivered in the period. -/
def Slot.lessPeriod (r : Slot) : Slot := { r with produced := false, taken := false }

theorem Slot.lessPeriod_reopened (p : LinkPort) (r : Slot) : (r.reopened p).lessPeriod = r.lessPeriod := by
  unfold Slot.reopened
  split <;> rfl

theorem State.openPeriod_slot_lessPeriod (p : LinkPort) (s : State) (e : Desk) :
    ((s.openPeriod p).slot e).lessPeriod = (s.slot e).lessPeriod := by
  rw [State.openPeriod_slot]
  split
  · exact Slot.lessPeriod_reopened ..
  · rfl

/-- The fields of a slot record but for those of its concealment and of the period. -/
def Slot.lessCourse (r : Slot) : Slot := { r with conceal := .none, step := 0, produced := false, taken := false }

theorem Slot.lessCourse_fadeEnded (r : Slot) : r.fadeEnded.lessCourse = r.lessCourse :=
  congrArg Slot.lessPeriod r.lessFade_fadeEnded

theorem Slot.kept_of_lessPeriod {r x : Slot} (h : x.lessPeriod = r.lessPeriod) : x.kept = r.kept := eq_of_copy h Slot.kept fun _ => rfl

section
variable (r : Slot)

theorem Slot.fadeEnded_conceal_gap (h : r.conceal = .silentGap ∨ (r.conceal = .fadingOut ∧ 64 ≤ r.step)) :
    r.fadeEnded.conceal = .silentGap := by
  unfold Slot.fadeEnded
  rcases h with hgap | hover
  · rw [if_neg (by rw [hgap]; exact fun h => nomatch h.1), if_neg (by rw [hgap]; exact fun h => nomatch h.1), hgap]
  · rw [if_pos hover]

theorem Slot.fadeEnded_conceal_ne_gap (hgap : r.conceal ≠ .silentGap) (hover : ¬(r.conceal = .fadingOut ∧ 64 ≤ r.step)) :
    r.fadeEnded.conceal ≠ .silentGap := by
  unfold Slot.fadeEnded
  rw [if_neg hover]
  split
  · exact nofun
  · exact hgap

theorem Slot.silenced_of_gap (g : Nat) (h : r.conceal = .silentGap) : (r.silenced g).conceal = .silentGap := by
  unfold Slot.silenced
  rw [if_pos h]
  exact h

theorem Slot.silenced_of_not_gap (g : Nat) (h : r.conceal ≠ .silentGap) :
    (r.silenced g).conceal = .fadingOut ∧ (r.silenced g).step = 0 ∧ (r.silenced g).origin = r.samples := by
  unfold Slot.silenced
  rw [if_neg h]
  exact ⟨rfl, rfl, rfl⟩

end

/-! ### The loss of the last usable port -/

theorem exists_ne_of_two {l : List LinkPort} (hlen : l.length = 2) (hnodup : l.Nodup) (p : LinkPort) : ∃ q, q ∈ l ∧ q ≠ p := by
  obtain ⟨x, y, rfl⟩ := List.length_eq_two.mp hlen
  by_cases hx : x = p
  · exact ⟨y, by simp, fun hy => by simp [hx, hy] at hnodup⟩
  · exact ⟨x, by simp, hx⟩

section
variable {p : LinkPort} {d : Desk} {s : State}

/-- The port lost, the fade of the slot that runs on it ended if it was overdue. -/
def State.portLost (d : Desk) (p : LinkPort) (s : State) : State :=
  ((s.portDelivered p (s.port p).afterMissing).modSlot d Slot.fadeEnded).modPort p (Port.lose .seeking)

/-- The same with the port off the wait list: the state in which its loss finds the slot. -/
def State.lastLost (d : Desk) (p : LinkPort) (s : State) : State := (s.portLost d p).unlisted p

theorem State.lastLost_sameButTable : s.SameButTable (s.lastLost d p) :=
  ((((State.SameButTable.portDelivered p _ s).modSlot d _).modPort p _).trans rfl)

theorem State.lastLost_slot : (s.lastLost d p).slot d = ((s.openPeriod p).slot d).fadeEnded := State.slot_modSlot_same ..

theorem State.lastLost_slot_ne (hpaths : s.Paths) (hactive : (s.slot d).active = some p) {e : Desk} (he : e ≠ d) :
    (s.lastLost d p).slot e = s.slot e := by
  have hslot : (s.lastLost d p).slot e = (s.openPeriod p).slot e := (State.slot_modSlot ..).trans (if_neg he)
  rw [hslot, State.openPeriod_slot_of_other]
  intro h
  exact he (hpaths.oneSlot e d p (hpaths.bound e p h) (hpaths.bound d p hactive))

theorem State.lastLost_noneReturned (h : s.NoneReturned) : (s.lastLost d p).NoneReturned := by
  intro q
  show (((s.portDelivered p (s.port p).afterMissing).modPort p (Port.lose .seeking)).port q).captured = none
  rw [State.port_modPort]
  split
  · rfl
  · exact State.portDelivered_noneReturned (p := p) h (r := (s.port p).afterMissing) (h p) q

section
variable (hlaw : s.AttachLawful) (hactive : (s.slot d).active = some p)

theorem State.portDelivered_port_ne {q : LinkPort} (hq : q ≠ p) (r : Port) : (s.portDelivered p r).port q = s.port q := by
  unfold State.portDelivered
  rw [State.port_modPort, if_neg hq, State.openPeriod_port_ne hq]

theorem State.portLost_port_ne {q : LinkPort} (hq : q ≠ p) : (s.portLost d p).port q = s.port q :=
  (State.port_modPort ..).trans ((if_neg hq).trans (State.portDelivered_port_ne hq _))

theorem State.portLost_slot : (s.portLost d p).slot d = ((s.openPeriod p).slot d).fadeEnded := State.slot_modSlot_same ..

theorem State.portLost_course : ((s.portLost d p).slot d).lessCourse = (s.slot d).lessCourse := by
  rw [State.portLost_slot, Slot.lessCourse_fadeEnded]
  exact eq_of_copy (State.openPeriod_slot_lessPeriod p s d) Slot.lessCourse fun _ => rfl

theorem State.portLost_bound (e : Desk) : ((s.portLost d p).slot e).bound = (s.slot e).bound := by
  by_cases he : e = d
  · subst he
    exact eq_of_copy State.portLost_course Slot.bound fun _ => rfl
  · exact (congrArg Slot.bound ((State.slot_modSlot ..).trans (if_neg he))).trans (State.openPeriod_slot_path p s e).1

include hlaw hactive

theorem State.portDelivered_boundTo (r : Port) : (s.portDelivered p r).boundTo p = some d :=
  State.boundTo_eq_some (State.portDelivered_paths hlaw.paths _).oneSlot (by
    show p ∈ ((s.openPeriod p).slot d).bound
    rw [(State.openPeriod_slot_path p s d).1]
    exact hlaw.paths.bound d p hactive)

theorem State.portLost_boundTo : (s.portLost d p).boundTo p = some d :=
  State.boundTo_eq_some (fun e e' q => by rw [State.portLost_bound, State.portLost_bound]; exact hlaw.oneSlot e e' q)
    (by rw [State.portLost_bound]; exact hlaw.paths.bound d p hactive)

end

theorem State.missingFrame_of_last (hlaw : s.AttachLawful) (hu : (s.port p).usable = true) (hpos : (s.port p).windowPos < 4800)
    (hrun : 3 ≤ (s.port p).missingRun) (hstate : (s.slot d).state = .active) (hactive : (s.slot d).active = some p)
    (hother : ∀ q, q ∈ (s.slot d).bound → q ≠ p → (s.port q).usable = false) :
    s.missingFrame p false = (s.lastLost d p).becomeSilent d := by
  have hpath := State.openPeriod_slot_path p s
  have hfade := State.fadeEndsOn_of_no_other (State.portDelivered_boundTo hlaw hactive (s.port p).afterMissing)
    ((hpath d).2.trans hactive) fun q hq hne hlocked => by
      rw [State.portDelivered_port_ne hne] at hlocked
      have hunusable := hother q (by rw [← (hpath d).1]; exact hq) hne
      rw [Port.usable, hlocked] at hunusable
      exact absurd hunusable (by decide)
  have hident : ((s.portLost d p).slot d).ident = (s.slot d).ident := eq_of_copy State.portLost_course Slot.ident fun _ => rfl
  have hsurplus : (s.portLost d p).surplusPort ((s.portLost d p).slot d).ident = none := by
    refine State.surplusPort_eq_none fun x hfree husable hseen => ?_
    simp only [State.portLost_bound] at hfree
    have hxp : x ≠ p := fun he => hfree d (he ▸ hlaw.paths.bound d p hactive)
    rw [State.portLost_port_ne hxp] at husable hseen
    rw [hident] at hseen
    obtain ⟨htwo, hall⟩ := hlaw.both x d husable hfree (by rw [hstate]; exact nofun) hseen.symm
    obtain ⟨q, hq, hne⟩ := exists_ne_of_two htwo (hlaw.twoPorts d).2 p
    exact absurd (hall q hq) (by rw [hother q hq hne]; exact Bool.false_ne_true)
  rw [State.missingFrame_of_fourth hu hpos hrun]
  show (((s.portDelivered p (s.port p).afterMissing).fadeEndsOn p).modPort p (Port.lose .seeking)).lossEvent p = _
  rw [hfade]
  show (s.portLost d p).lossEvent p = _
  rw [State.lossEvent_of_bound (State.portLost_boundTo hlaw hactive), hsurplus]
  refine (if_pos ⟨(eq_of_copy State.portLost_course Slot.state fun _ => rfl).trans hstate,
    (eq_of_copy State.portLost_course Slot.active fun _ => rfl).trans hactive⟩).trans ?_
  unfold State.loseActive
  split
  next q hq =>
    obtain ⟨hmem, hne⟩ := State.Moves.mem_of_otherThan hq
    rw [State.portLost_bound] at hmem
    refine if_neg ?_
    have hport : (State.rebound d p none (State.unlisted p (s.portLost d p))).port q = s.port q := State.portLost_port_ne hne
    rw [hport, hother q hmem hne]
    exact Bool.false_ne_true
  · rfl

end

/-- Settles O28: the loss is the SILENT of the slot as the period and the end of its fade left it. -/
theorem silentEffect : Obligations.SilentEffect := by
  intro p d s hpower hlaw htalk hnone hu hpos hrun hstate hactive hother
  have hexec := exec_missingFrame_of_eq (w := false) hpower (State.missingFrame_of_last hlaw hu hpos hrun hstate hactive hother)
  have hports : ((s.lastLost d p).becomeSilent d).ports = (s.lastLost d p).ports := by simp
  rw [State.settleReturned_of_none ((State.lastLost_noneReturned hnone).of_ports hports)] at hexec
  have hsame := State.lastLost_sameButTable (s := s) (d := d) (p := p)
  have hgrace : (s.lastLost d p).graceTime = s.graceTime := by rw [hsame]
  have hslot := (s.lastLost d p).becomeSilent_slot d
  rw [State.lastLost_slot, hgrace] at hslot
  have hperiod := State.openPeriod_slot_lessPeriod p s d
  have hconceal : ((s.openPeriod p).slot d).conceal = (s.slot d).conceal := eq_of_copy hperiod Slot.conceal fun _ => rfl
  have hstep : ((s.openPeriod p).slot d).step = (s.slot d).step := eq_of_copy hperiod Slot.step fun _ => rfl
  have hkept : (((s.lastLost d p).becomeSilent d).slot d).kept = (s.slot d).kept := by
    rw [hslot, Slot.kept_silenced, Slot.kept_fadeEnded]
    exact Slot.kept_of_lessPeriod hperiod
  have hlane := (s.lastLost d p).becomeSilent_lane d
  have hlaneS : (s.lastLost d p).lane d = s.lane d := by rw [hsame]; rfl
  rw [hlaneS] at hlane
  have hbatchS : (s.lastLost d p).batch (.desk d) = s.batch (.desk d) := by rw [hsame]; rfl
  have hbatch := (s.lastLost d p).becomeSilent_batch d
  rw [hbatchS] at hbatch
  obtain ⟨bs, ls, outs, honly⟩ := (s.lastLost d p).becomeSilent_only d
  refine ⟨_, hexec, by rw [hslot]; rfl, by rw [hslot]; rfl, by rw [hslot]; rfl, fun hgap => ?_, fun hgap hover => ?_,
    eq_of_copy hkept Slot.samples fun _ => rfl, eq_of_copy hkept Slot.ident fun _ => rfl, eq_of_copy hkept Slot.role fun _ => rfl,
    eq_of_copy hkept Slot.bound fun _ => rfl, eq_of_copy hkept Slot.talkClass fun _ => rfl,
    eq_of_copy hkept Slot.switchovers fun _ => rfl, eq_of_copy hkept Slot.lastTaken fun _ => rfl,
    eq_of_copy hlane Lane.receiver fun _ => rfl, eq_of_copy hlane (fun l => l.tx.sending) fun _ => rfl,
    eq_of_copy hlane (fun l => l.tx.pendingMeter) fun _ => rfl, eq_of_copy hlane (fun l => l.tx.pendingDigest) fun _ => rfl,
    fun b => ?_, hbatch.1, hbatch.2, fun hsealed => ?_, fun before after a hsealed hanswers hcomplete hopen => ?_, ?_, ?_, ?_, ?_, ?_, ?_,
    fun e he => ?_⟩
  · rw [hslot]
    rw [← hconceal, ← hstep] at hgap
    exact Slot.silenced_of_gap _ _ (Slot.fadeEnded_conceal_gap _ hgap)
  · rw [hslot]
    rw [← hconceal] at hgap hover
    rw [← hstep] at hover
    obtain ⟨h1, h2, h3⟩ := Slot.silenced_of_not_gap _ s.graceTime (Slot.fadeEnded_conceal_ne_gap _ hgap hover)
    refine ⟨h1, h2, h3.trans ?_⟩
    exact (eq_of_copy (Slot.kept_fadeEnded _) Slot.samples fun _ => rfl).trans (eq_of_copy hperiod Slot.samples fun _ => rfl)
  · have hbus : (s.lastLost d p).bus b = s.bus b := by rw [hsame]; rfl
    rw [State.becomeSilent_bus, hbus]
    cases b with
    | tb1 => exact BusRec.remove_of_lawful htalk.tb1 _ _
    | tb2 => exact BusRec.remove_of_lawful htalk.tb2 _ _
  · rw [State.becomeSilent_answers _ _ (by rw [hbatchS]; exact hsealed), hlaneS]
  · rw [State.becomeSilent_answers_sealed _ _ (by rw [hbatchS]; exact hsealed), hbatchS, hlaneS, hanswers, completeIn_append hopen _ hcomplete]
    rfl
  · refine ((s.lastLost d p).becomeSilent_sources d).of_before (by rw [hsame]) fun c hc => ?_
    exact State.available_of_slot (d := d) (by rw [hsame]) (fun e he => State.lastLost_slot_ne hlaw.paths hactive he) hc
  · rw [honly, hsame]; rfl
  · rw [honly, hsame]; rfl
  · rw [honly, hsame]; rfl
  · rw [honly, hsame]; rfl
  · rw [honly, hsame]; rfl
  · rw [State.becomeSilent_slot_ne _ _ he, State.lastLost_slot_ne hlaw.paths hactive he]

end Sys2Proof.Machine

/-!
The switchover at the loss of the active path (R31 to R33, R35, R36).
-/
namespace Sys2Proof.Machine

/-! ### What commutes with a switchover -/

section
variable {d : Desk} {p q : LinkPort} {s t : State}

theorem State.hitlessFrame_congr (hconceal : (t.slot d).conceal = (s.slot d).conceal) (hlast : (t.slot d).lastTaken = (s.slot d).lastTaken)
    (hport : t.port q = s.port q) : t.hitlessFrame d q = s.hitlessFrame d q := by
  unfold State.hitlessFrame
  rw [hconceal, hlast, hport]

theorem State.modPort_comm (hpq : p ≠ q) (f g : Port → Port) : (s.modPort p f).modPort q g = (s.modPort q g).modPort p f := by
  have hset {α : Type} (x : PerPort α) (y z : α) : (x.set p y).set q z = (x.set q z).set p y := by
    cases p <;> cases q <;> first | rfl | exact absurd rfl hpq
  show { s with ports := (s.ports.set p (f (s.port p))).set q (g ((s.modPort p f).port q)) } =
    { s with ports := (s.ports.set q (g (s.port q))).set p (f ((s.modPort q g).port p)) }
  rw [State.port_modPort, if_neg hpq.symm, State.port_modPort, if_neg hpq, hset]

theorem State.modSlot_modSlot (d : Desk) (f g : Slot → Slot) : (s.modSlot d f).modSlot d g = s.modSlot d fun r => g (f r) := by
  show { s with slots := (s.slots.set d _).set d (g ((s.modSlot d f).slot d)) } = { s with slots := s.slots.set d _ }
  rw [State.slot_modSlot_same]
  cases d <;> rfl

/-- A concealed switchover as one change of the slot and one of its receiver. -/
theorem State.switchover_fades (h : s.hitlessFrame d q = none) :
    s.switchover d q = (s.modSlot d fun r => (r.moved q).startFade).modLane d fun l => { l with receiver := none } := by
  rw [State.switchover_concealed d q s h]
  show (((s.modSlot d (Slot.moved q)).modSlot d Slot.startFade).modLane d fun l => { l with receiver := none }) = _
  rw [State.modSlot_modSlot]

theorem State.switchover_modPort (hpq : p ≠ q) (f : Port → Port) : (s.modPort p f).switchover d q = (s.switchover d q).modPort p f := by
  have hframe : (s.modPort p f).hitlessFrame d q = s.hitlessFrame d q :=
    State.hitlessFrame_congr rfl rfl ((State.port_modPort ..).trans (if_neg hpq.symm))
  cases h : s.hitlessFrame d q with
  | none => rw [State.switchover_concealed d q _ (hframe.trans h), State.switchover_concealed d q s h]; rfl
  | some g =>
    rw [State.switchover_hitless d q _ (hframe.trans h), State.switchover_hitless d q s h]
    exact State.modPort_comm (s := s.modSlot d (Slot.moved q)) hpq _ _

theorem State.switchover_unlisted : (s.unlisted p).switchover d q = (s.switchover d q).unlisted p := by
  have hframe : (s.unlisted p).hitlessFrame d q = s.hitlessFrame d q := rfl
  cases h : s.hitlessFrame d q with
  | none => rw [State.switchover_concealed d q _ (hframe.trans h), State.switchover_concealed d q s h]; rfl
  | some g => rw [State.switchover_hitless d q _ (hframe.trans h), State.switchover_hitless d q s h]; rfl

theorem State.switchover_rebound (o : Option LinkPort) : (s.rebound d p o).switchover d q = (s.switchover d q).rebound d p o := by
  cases o with
  | none => rfl
  | some x =>
    show (s.modSlot d (Slot.replaceBound p x)).switchover d q = (s.switchover d q).modSlot d (Slot.replaceBound p x)
    have hslot := State.slot_modSlot_same s d (Slot.replaceBound p x)
    have hframe : (s.modSlot d (Slot.replaceBound p x)).hitlessFrame d q = s.hitlessFrame d q :=
      State.hitlessFrame_congr (by rw [hslot]; rfl) (by rw [hslot]; rfl) rfl
    cases h : s.hitlessFrame d q with
    | none =>
      rw [State.switchover_fades (hframe.trans h), State.switchover_fades h]
      show (((s.modSlot d (Slot.replaceBound p x)).modSlot d fun r => (r.moved q).startFade).modLane d fun l => { l with receiver := none }) =
        (((s.modSlot d fun r => (r.moved q).startFade).modSlot d (Slot.replaceBound p x)).modLane d fun l => { l with receiver := none })
      rw [State.modSlot_modSlot, State.modSlot_modSlot]
      rfl
    | some g =>
      rw [State.switchover_hitless d q _ (hframe.trans h), State.switchover_hitless d q s h]
      show ((s.modSlot d _).modSlot d _).modPort q _ = ((s.modSlot d _).modSlot d _).modPort q _
      rw [State.modSlot_modSlot, State.modSlot_modSlot]
      rfl

end

/-! ### The switchover at the fourth missing period -/

section
variable {p q : LinkPort} {d : Desk} {s : State}

/-- The state in which the switchover finds the slot: the port lost, and a surplus port, if there was one, bound in its place. -/
def State.pathLost (d : Desk) (p : LinkPort) (o : Option LinkPort) (s : State) : State := ((s.portLost d p).unlisted p).rebound d p o

theorem State.pathLost_copy (o : Option LinkPort) {α : Type} (f : Slot → α)
    (hf : ∀ r : Slot, f { r with conceal := .none, step := 0, produced := false, taken := false, bound := [] } = f r) :
    f ((s.pathLost d p o).slot d) = f (s.slot d) := by
  have hcourse := State.portLost_course (s := s) (d := d) (p := p)
  have hbound : f ((s.pathLost d p o).slot d) = f ((s.portLost d p).slot d) := by
    cases o with
    | none => rfl
    | some x =>
      show f (((s.portLost d p).unlisted p).modSlot d (Slot.replaceBound p x) |>.slot d) = _
      rw [State.slot_modSlot_same, ← hf, ← hf ((s.portLost d p).slot d)]
      rfl
  rw [hbound, ← hf, ← hf (s.slot d)]
  exact congrArg (fun r : Slot => f { r with bound := [] }) hcourse

theorem State.pathLost_port (o : Option LinkPort) (hq : q ≠ p) : (s.pathLost d p o).port q = s.port q := by
  have hport : (s.pathLost d p o).port q = (s.portLost d p).port q := by cases o <;> rfl
  exact hport.trans (State.portLost_port_ne hq)

theorem State.pathLost_slot_ne (hpaths : s.Paths) (hactive : (s.slot d).active = some p) (o : Option LinkPort) {e : Desk} (he : e ≠ d) :
    (s.pathLost d p o).slot e = s.slot e := by
  have hslot : (s.pathLost d p o).slot e = (s.lastLost d p).slot e := by
    cases o with
    | none => rfl
    | some x => exact (State.slot_modSlot ..).trans (if_neg he)
  exact hslot.trans (State.lastLost_slot_ne hpaths hactive he)

theorem State.pathLost_noneReturned (h : s.NoneReturned) (o : Option LinkPort) : (s.pathLost d p o).NoneReturned :=
  (State.lastLost_noneReturned (d := d) (p := p) h).of_ports (by cases o <;> rfl)

/-- The end of a fade on a slot whose other bound port is given: a switch to it, if that is due, and the fade ended. -/
theorem State.fadeEndsOn_of_other (hbound : s.boundTo p = some d) (hactive : (s.slot d).active = some p)
    (hother : (s.slot d).otherThan p = some q) :
    s.fadeEndsOn p = s.modSlot d Slot.fadeEnded ∨
      (s.port q).state = .locked ∧ s.fadeEndsOn p = (s.modSlot d Slot.fadeEnded).switchover d q := by
  have hcopy : ((s.modSlot d Slot.fadeEnded).slot d).lessFade = (s.slot d).lessFade := by
    rw [State.slot_modSlot_same]
    exact Slot.lessFade_fadeEnded _
  have hactive' : ((s.modSlot d Slot.fadeEnded).slot d).active = some p := (eq_of_copy hcopy Slot.active fun _ => rfl).trans hactive
  have hother' : ((s.modSlot d Slot.fadeEnded).slot d).otherThan p = some q :=
    (eq_of_copy hcopy (fun r => Slot.otherThan r p) fun _ => rfl).trans hother
  have hends : s.fadeEndsOn p = (s.fadeOutEnd d).fadeInEnd d := by
    unfold State.fadeEndsOn
    rw [hbound]
    exact if_pos hactive
  rw [hends, State.fadeEnds_eq]
  split
  · unfold State.recheck
    dsimp only
    rw [hactive']
    dsimp only
    rw [hother']
    dsimp only
    split
    next hdue => exact .inr ⟨hdue.2.2.2, rfl⟩
    · exact .inl rfl
  · exact .inl rfl

/-- The loss of a port that its slot has just left for its other port, which is LOCKED, moves the slot no more. -/
theorem State.lossEvent_of_switched {u : State} (hne : q ≠ p) (hq : q ∈ (u.slot d).bound) (hlocked : (u.port q).state = .locked)
    (hone : ∀ e e' x, x ∈ (u.slot e).bound → x ∈ (u.slot e').bound → e = e') (hp : p ∈ (u.slot d).bound) :
    ∃ o, (u.switchover d q).lossEvent p = ((u.unlisted p).rebound d p o).switchover d q := by
  have hmoves := State.Moves.switchover d hq hlocked
  have hbound (e : Desk) : ((u.switchover d q).slot e).bound = (u.slot e).bound := Slot.seat_bound (hmoves.seats e)
  have hto : (u.switchover d q).boundTo p = some d :=
    State.boundTo_eq_some (fun e e' x => by rw [hbound, hbound]; exact hone e e' x) (by rw [hbound]; exact hp)
  have hactive := State.active_switchover d q u
  have hcommute (o : Option LinkPort) :
      ((u.switchover d q).unlisted p).rebound d p o = ((u.unlisted p).rebound d p o).switchover d q := by
    rw [State.switchover_rebound, State.switchover_unlisted]
  refine ⟨(u.switchover d q).surplusPort ((u.switchover d q).slot d).ident, ?_⟩
  rw [State.lossEvent_of_bound hto, if_neg (by rw [hactive]; exact fun h => hne (Option.some.inj h.2)), ← hcommute]
  split
  · refine State.recheck_of_not_due ?_
    rintro ⟨x, y, hx, -, -, -, herrored, -⟩
    have hkept (o : Option LinkPort) : ((((u.switchover d q).unlisted p).rebound d p o).slot d).active = some q ∧
        (((u.switchover d q).unlisted p).rebound d p o).port q = (u.switchover d q).port q := by
      cases o with
      | none => exact ⟨hactive, rfl⟩
      | some z =>
        refine ⟨?_, rfl⟩
        show ((((u.switchover d q).unlisted p).modSlot d (Slot.replaceBound p z)).slot d).active = some q
        rw [State.slot_modSlot_same]
        exact hactive
    obtain ⟨hact, hport⟩ := hkept ((u.switchover d q).surplusPort ((u.switchover d q).slot d).ident)
    cases hact.symm.trans hx
    rw [hport, Port.core_state (hmoves.ports q), hlocked] at herrored
    cases herrored
  · rfl

/-- The fourth missing period of an active path with a usable port beside it is a switchover to that port. -/
theorem State.missingFrame_of_other (hlaw : s.AttachLawful) (hu : (s.port p).usable = true) (hpos : (s.port p).windowPos < 4800)
    (hrun : 3 ≤ (s.port p).missingRun) (hstate : (s.slot d).state = .active) (hactive : (s.slot d).active = some p)
    (hq : q ∈ (s.slot d).bound) (hne : q ≠ p) (husable : (s.port q).usable = true) :
    ∃ o, s.missingFrame p false = (s.pathLost d p o).switchover d q := by
  have hbound := hlaw.paths.bound d p hactive
  have hpath := State.openPeriod_slot_path p s
  have hother {r : Slot} (hr : r.bound = (s.slot d).bound) : r.otherThan p = some q :=
    Slot.otherThan_eq (by rw [hr]; exact (hlaw.twoPorts d).1) (by rw [hr]; exact hbound) (by rw [hr]; exact hq) hne
  rw [State.missingFrame_of_fourth hu hpos hrun]
  show ∃ o, (((s.portDelivered p (s.port p).afterMissing).fadeEndsOn p).modPort p (Port.lose .seeking)).lossEvent p = _
  rcases State.fadeEndsOn_of_other (State.portDelivered_boundTo hlaw hactive (s.port p).afterMissing) ((hpath d).2.trans hactive)
    (hother (hpath d).1) with hfade | ⟨hlocked, hfade⟩
  · refine ⟨(s.portLost d p).surplusPort ((s.portLost d p).slot d).ident, ?_⟩
    rw [hfade]
    show (s.portLost d p).lossEvent p = _
    rw [State.lossEvent_of_bound (State.portLost_boundTo hlaw hactive)]
    refine (if_pos ⟨(eq_of_copy State.portLost_course Slot.state fun _ => rfl).trans hstate,
      (eq_of_copy State.portLost_course Slot.active fun _ => rfl).trans hactive⟩).trans ?_
    rw [hother (State.portLost_bound d)]
    refine if_pos ?_
    show ((s.pathLost d p _).port q).usable = true
    rw [State.pathLost_port _ hne]
    exact husable
  · have hlockedS : (s.port q).state = .locked := by rw [← State.portDelivered_port_ne hne (s.port p).afterMissing]; exact hlocked
    rw [hfade, ← State.switchover_modPort hne.symm]
    exact State.lossEvent_of_switched (u := s.portLost d p) hne (by rw [State.portLost_bound]; exact hq)
      (by rw [State.portLost_port_ne hne]; exact hlockedS)
      (fun e e' x => by rw [State.portLost_bound, State.portLost_bound]; exact hlaw.oneSlot e e' x)
      (by rw [State.portLost_bound]; exact hbound)

end

end Sys2Proof.Machine

/-!
The switchover at the loss of the active path: the statement.
-/
namespace Sys2Proof.Machine

/-- A hitless switch: no concealment, a last number, and the frame after it in the port's buffer (R32). -/
theorem State.hitlessFrame_eq_some {d : Desk} {q : LinkPort} {g : StageFrame} {s : State} (h : s.hitlessFrame d q = some g) :
    (s.slot d).conceal = .none ∧ ∃ n, (s.slot d).lastTaken = some n ∧ (s.port q).query (n + 1) = some g := by
  unfold State.hitlessFrame at h
  split at h
  next hc =>
    split at h
    next n hn => exact ⟨hc, n, hn, h⟩
    · cases h
  · cases h

/-- A slot that does not conceal takes the audio of a delivery, unless its samples of the period are fixed (R30; log 14). -/
theorem Slot.absorb_quiet {r : Slot} (hconceal : r.conceal = .none) (dl : Delivery) :
    r.absorb dl = { r with samples := if r.produced then r.samples else dl.audio, produced := true, taken := true,
                           lastTaken := if dl.lane.isSome then some dl.number else r.lastTaken } := by
  cases hproduced : r.produced with
  | false => exact Slot.absorb_plain hproduced hconceal dl
  | true =>
    cases r
    cases hproduced
    rfl

/-! ### Settling one slot -/

section
variable {p q : LinkPort} {d : Desk} {s : State}

theorem State.settleReturned_of_only (hbefore : ∀ e, e ≠ d → s.SettledAt e) (hafter : ∀ e, (s.takeReturned d).SettledAt e) :
    s.settleReturned = s.takeReturned d := by
  have hother {e : Desk} (he : e ≠ d) : s.takeReturned e = s := State.takeReturned_of_settled (hbefore e he)
  have hdone (e : Desk) : (s.takeReturned d).takeReturned e = s.takeReturned d := State.takeReturned_of_settled (hafter e)
  show ((s.takeReturned .d1).takeReturned .d2).takeReturned .d3 = s.takeReturned d
  cases d with
  | d1 => rw [hdone, hdone]
  | d2 => rw [hother (e := .d1) (by decide), hdone]
  | d3 => rw [hother (e := .d1) (by decide), hother (e := .d2) (by decide)]

/-! ### The slot that the switchover finds -/

theorem Slot.fadeEnded_conceal_none (r : Slot) :
    r.fadeEnded.conceal = .none ↔ r.conceal = .none ∨ (r.conceal = .fadingIn ∧ 64 ≤ r.step) := by
  unfold Slot.fadeEnded
  split
  next h => simp [h.1]
  · split
    next h => simp [h]
    next h => simp [h]

theorem State.pathLost_slot (o : Option LinkPort) :
    ∃ b, (s.pathLost d p o).slot d = { ((s.openPeriod p).slot d).fadeEnded with bound := b } := by
  cases o with
  | none => exact ⟨_, State.lastLost_slot⟩
  | some x =>
    refine ⟨(((s.openPeriod p).slot d).fadeEnded.replaceBound p x).bound, ?_⟩
    show (((s.lastLost d p).modSlot d (Slot.replaceBound p x)).slot d) = _
    rw [State.slot_modSlot_same, State.lastLost_slot]
    rfl

theorem State.pathLost_conceal_none (o : Option LinkPort) :
    ((s.pathLost d p o).slot d).conceal = .none ↔
      (s.slot d).conceal = .none ∨ ((s.slot d).conceal = .fadingIn ∧ 64 ≤ (s.slot d).step) := by
  obtain ⟨b, hslot⟩ := State.pathLost_slot (s := s) (d := d) (p := p) o
  have hcopy := State.openPeriod_slot_lessPeriod p s d
  rw [hslot]
  show ((s.openPeriod p).slot d).fadeEnded.conceal = .none ↔ _
  rw [Slot.fadeEnded_conceal_none, eq_of_copy hcopy Slot.conceal fun _ => rfl, eq_of_copy hcopy Slot.step fun _ => rfl]

/-- The fields of a slot record but for those of its concealment and its bound ports. -/
def Slot.lessFadeBound (r : Slot) : Slot := { r with conceal := .none, step := 0, bound := [] }

theorem State.pathLost_lessFadeBound (o : Option LinkPort) :
    ((s.pathLost d p o).slot d).lessFadeBound = ((s.openPeriod p).slot d).lessFadeBound := by
  obtain ⟨b, hslot⟩ := State.pathLost_slot (s := s) (d := d) (p := p) o
  rw [hslot]
  exact eq_of_copy (Slot.lessFade_fadeEnded ((s.openPeriod p).slot d)) Slot.lessFadeBound fun _ => rfl

end

theorem satAdd_one (n : Nat) : satAdd 65535 n 1 = if n < 65535 then n + 1 else 65535 := by
  unfold satAdd
  split <;> split <;> omega

/-! ### A hitless switch that finds nothing else to settle -/

section
variable {q : LinkPort} {d : Desk} {g : StageFrame} {u : State} (hnone : u.NoneReturned) (hframe : u.hitlessFrame d q = some g)
  (hothers : ∀ e, e ≠ d → (u.slot e).active ≠ some q)
include hnone hframe hothers

theorem State.switchover_settledAt {e : Desk} (he : e ≠ d) : (u.switchover d q).SettledAt e := by
  intro x hx
  obtain ⟨-, hactive, -⟩ := State.awaits_iff.mp hx
  rw [State.slot_switchover_ne d q u he] at hactive
  have hxq : x ≠ q := by
    rintro rfl
    exact hothers e he hactive
  rw [State.switchover_hitless d q u hframe, State.port_modPort, if_neg hxq]
  exact hnone x

/-- A slot that has its delivery of the period leaves the frame for the next. -/
theorem State.settle_switchover_taken (htaken : (u.slot d).taken = true) : (u.switchover d q).settleReturned = u.switchover d q := by
  refine State.settleReturned_of_settled fun e => ?_
  by_cases he : e = d
  · subst he
    refine State.settledAt_of_taken ?_
    rw [State.slot_switchover_same, hframe]
    exact htaken
  · exact State.switchover_settledAt hnone hframe hothers he

/-- A slot that waits for its delivery takes the frame; one with idle lane bytes brings no message. -/
theorem State.settle_switchover_awaiting (hstate : (u.slot d).state = .active) (htaken : (u.slot d).taken = false)
    (hidle : nth g.lane 0 0 = 0x00#8) :
    (u.switchover d q).settleReturned =
      (((u.switchover d q).modPort q (Port.returned g)).modSlot d (Slot.absorb (.ofFrame g))).modLane d fun l => { l with receiver := none } := by
  have hslot : (u.switchover d q).slot d = (u.slot d).moved q := by
    rw [State.slot_switchover_same, hframe]
    rfl
  have hport : ((u.switchover d q).port q).captured = some g := by
    rw [State.switchover_hitless d q u hframe, State.port_modPort_same]
    rfl
  have htakes : (u.switchover d q).takeReturned d =
      (((u.switchover d q).modPort q (Port.returned g)).modSlot d (Slot.absorb (.ofFrame g))).modLane d fun l => { l with receiver := none } := by
    rw [State.takeReturned_of_awaits (State.awaits_iff.mpr (by rw [hslot]; exact ⟨hstate, rfl, htaken⟩)) hport]
    exact State.absorb_of_mute (fun held => assemble_idle hidle) d _
  rw [State.settleReturned_of_only (fun e he => State.switchover_settledAt hnone hframe hothers he), htakes]
  rw [htakes]
  refine State.settledAt_of_none fun x => ?_
  show (((u.switchover d q).modPort q (Port.returned g)).port x).captured = none
  rw [State.port_modPort]
  split
  · rfl
  next hx =>
    rw [State.switchover_hitless d q u hframe, State.port_modPort, if_neg hx]
    exact hnone x

end

/-! ### The statement -/

section
variable {p q : LinkPort} {d : Desk} {s : State} (o : Option LinkPort)

theorem State.pathLost_kept (o : Option LinkPort) {α : Type} (f : Slot → α)
    (hf : ∀ r : Slot, f { r with conceal := .none, step := 0, bound := [], produced := false, taken := false } = f r) :
    f ((s.pathLost d p o).slot d) = f (s.slot d) := by
  have hsteps := (congrArg Slot.lessPeriod (State.pathLost_lessFadeBound (s := s) (d := d) (p := p) o)).trans
    (congrArg Slot.lessFadeBound (State.openPeriod_slot_lessPeriod p s d))
  exact eq_of_copy (copy := fun r => r.lessFadeBound.lessPeriod) hsteps f hf

/-- What the slot has of the period when the switchover finds it: a second event of the lost port begins a new one (log 13). -/
theorem State.pathLost_period (hactive : (s.slot d).active = some p) (o : Option LinkPort) :
    ((s.pathLost d p o).slot d).produced = (if (s.port p).frameSeen then false else (s.slot d).produced) ∧
      ((s.pathLost d p o).slot d).taken = (if (s.port p).frameSeen then false else (s.slot d).taken) := by
  have hcopy := State.pathLost_lessFadeBound (s := s) (d := d) (p := p) o
  rw [eq_of_copy hcopy Slot.produced fun _ => rfl, eq_of_copy hcopy Slot.taken fun _ => rfl, State.openPeriod_slot, Slot.reopened,
    if_pos hactive]
  split <;> exact ⟨rfl, rfl⟩

end

/-- Settles O29: the switchover finds the slot with its fade ended and the lost port replaced, and only it has a frame to settle. -/
theorem switchoverEffect : Obligations.SwitchoverEffect := by
  intro p q d s hpower hlaw hnone hu hpos hrun hstate hactive hq hne husable hmute quiet
  obtain ⟨o, hmissing⟩ := State.missingFrame_of_other hlaw hu hpos hrun hstate hactive hq hne husable
  have hexec := exec_missingFrame_of_eq (w := false) hpower hmissing
  have hquiet : ((s.pathLost d p o).slot d).conceal = .none ↔ quiet := State.pathLost_conceal_none o
  have hport := State.pathLost_port (s := s) (d := d) o hne
  have hlast : ((s.pathLost d p o).slot d).lastTaken = (s.slot d).lastTaken := State.pathLost_kept o _ fun _ => rfl
  have hsamples : ((s.pathLost d p o).slot d).samples = (s.slot d).samples := State.pathLost_kept o _ fun _ => rfl
  have hcount : ((s.pathLost d p o).slot d).switchovers = (s.slot d).switchovers := State.pathLost_kept o _ fun _ => rfl
  have hstateL : ((s.pathLost d p o).slot d).state = .active := (State.pathLost_kept o Slot.state fun _ => rfl).trans hstate
  obtain ⟨hproduced, htaken⟩ := State.pathLost_period hactive o
  have hnoneL : (s.pathLost d p o).NoneReturned := State.pathLost_noneReturned hnone o
  have hslots {e : Desk} (he : e ≠ d) : (s.pathLost d p o).slot e = s.slot e := State.pathLost_slot_ne hlaw.paths hactive o he
  have hothers (e : Desk) (he : e ≠ d) : ((s.pathLost d p o).slot e).active ≠ some q := by
    rw [hslots he]
    exact fun h => he (hlaw.oneSlot e d q (hlaw.paths.bound e q h) hq)
  have hadd (n : Nat) (h : n = (s.slot d).switchovers) :
      satAdd 65535 n 1 = if (s.slot d).switchovers < 65535 then (s.slot d).switchovers + 1 else 65535 := by rw [h, satAdd_one]
  generalize hgen : s.pathLost d p o = u at hexec hquiet hport hlast hsamples hcount hstateL hproduced htaken hnoneL hslots hothers
  clear hgen hmissing
  have hframeOf {n : Word} {g : StageFrame} (hc : (u.slot d).conceal = .none) (hn : (s.slot d).lastTaken = some n)
      (hg : (s.port q).query (n + 1) = some g) : u.hitlessFrame d q = some g := by
    unfold State.hitlessFrame
    rw [if_pos hc, hlast, hn]
    dsimp only
    rw [hport, hg]
  cases hframe : u.hitlessFrame d q with
  | none =>
    have hsettle : (u.switchover d q).settleReturned = u.switchover d q := by
      refine State.settleReturned_of_none (hnoneL.of_ports ?_)
      rw [State.switchover_concealed d q u hframe]
      rfl
    rw [hsettle] at hexec
    have hslot : (u.switchover d q).slot d = ((u.slot d).moved q).startFade := by
      rw [State.slot_switchover_same, hframe]
      rfl
    refine ⟨_, hexec, by rw [hslot]; exact hstateL, by rw [hslot]; rfl, by rw [hslot]; exact hadd _ hcount, fun n g hquiet' hn hg => ?_,
      fun _ => ⟨by rw [hslot]; rfl, by rw [hslot]; rfl, by rw [hslot]; exact hsamples, by rw [hslot]; exact hsamples, ?_,
        by rw [hslot]; exact hlast⟩, fun e he => by rw [State.slot_switchover_ne d q u he, hslots he]⟩
    · rw [hframeOf (hquiet.mpr hquiet') hn hg] at hframe
      cases hframe
    · rw [State.switchover_fades hframe, State.lane_modLane_same]
  | some g =>
    obtain ⟨hc, m, hm, hquery⟩ := State.hitlessFrame_eq_some hframe
    rw [hlast] at hm
    rw [hport] at hquery
    have hnumber : g.number = m + 1 := Port.number_of_query hquery
    have hidle : nth g.lane 0 0 = 0x00#8 := hmute g (List.mem_of_find?_eq_some hquery)
    have hslot : (u.switchover d q).slot d = (u.slot d).moved q := by
      rw [State.slot_switchover_same, hframe]
      rfl
    have hportQ : (u.switchover d q).port q = (s.port q).captures g := by
      rw [State.switchover_hitless d q u hframe, State.port_modPort_same]
      exact congrArg (Port.captures g) hport
    have hnotConcealed : ¬(¬quiet ∨ ∀ n, (s.slot d).lastTaken = some n → (s.port q).query (n + 1) = none) := by
      rintro (hnot | hnot)
      · exact hnot (hquiet.mp hc)
      · rw [hnot m hm] at hquery
        cases hquery
    cases htakenU : (u.slot d).taken with
    | true =>
      rw [State.settle_switchover_taken hnoneL hframe hothers htakenU] at hexec
      refine ⟨_, hexec, by rw [hslot]; exact hstateL, by rw [hslot]; rfl, by rw [hslot]; exact hadd _ hcount, fun n g' _ hn hg => ?_,
        fun h => absurd h hnotConcealed, fun e he => by rw [State.slot_switchover_ne d q u he, hslots he]⟩
      cases hn.symm.trans hm
      cases hg.symm.trans hquery
      refine ⟨by rw [hslot]; exact hc, by rw [hportQ, ← hnumber]; rfl, fun _ hnew => ?_, fun _ _ =>
        ⟨by rw [hslot]; exact hsamples, by rw [hslot]; exact hlast.trans hm, by rw [hportQ]; rfl⟩⟩
      exfalso
      rw [htaken] at htakenU
      rcases hnew with h | h
      · rw [h, ite_self] at htakenU
        cases htakenU
      · rw [h] at htakenU
        cases htakenU
    | false =>
      rw [State.settle_switchover_awaiting hnoneL hframe hothers hstateL htakenU hidle] at hexec
      have htook : ((((u.switchover d q).modPort q (Port.returned g)).modSlot d (Slot.absorb (.ofFrame g))).slot d) =
          ((u.slot d).moved q).absorb (.ofFrame g) := by
        rw [State.slot_modSlot_same]
        exact congrArg (Slot.absorb (.ofFrame g)) hslot
      rw [Slot.absorb_quiet (show ((u.slot d).moved q).conceal = .none from hc)] at htook
      have hportT : (((u.switchover d q).modPort q (Port.returned g)).port q) = ((s.port q).captures g).returned g := by
        rw [State.port_modPort_same, hportQ]
      refine ⟨_, hexec, (congrArg Slot.state htook).trans hstateL, (congrArg Slot.active htook).trans rfl,
        (congrArg Slot.switchovers htook).trans (hadd _ hcount), fun n g' _ hn hg => ?_, fun h => absurd h hnotConcealed, fun e he => ?_⟩
      · cases hn.symm.trans hm
        cases hg.symm.trans hquery
        refine ⟨(congrArg Slot.conceal htook).trans hc, (congrArg Port.bufLast hportT).trans (congrArg some hnumber), fun hfresh _ => ?_,
          fun hold hseen => ?_⟩
        · refine ⟨(congrArg Slot.samples htook).trans ?_, (congrArg Slot.lastTaken htook).trans (congrArg some hnumber),
            congrArg Port.held hportT⟩
          refine if_neg ?_
          show ¬(u.slot d).produced = true
          rw [hproduced, hfresh, ite_self]
          exact Bool.false_ne_true
        · exfalso
          rw [htaken, hseen, hold] at htakenU
          cases htakenU
      · exact ((State.slot_modSlot ..).trans (if_neg he)).trans ((State.slot_switchover_ne d q u he).trans (hslots he))

end Sys2Proof.Machine

/-!
GRACE_EXPIRY: the slot becomes VACANT, and the oldest waiting port is admitted to it (R26, R39, R41).
-/
namespace Sys2Proof.Machine

/-! ### Admission -/

theorem State.SourcesBack.congr {back : Nat → Prop} {s t s' t' : State} (h : s.SourcesBack back t) (hs : s'.outputs = s.outputs)
    (hms : s'.revertTime = s.revertTime) (ht : t'.outputs = t.outputs) : s'.SourcesBack back t' := by
  intro o ho
  have hout : s'.output o = s.output o := by rw [State.output, hs, State.output]
  have hout' : t'.output o = t.output o := by rw [State.output, ht, State.output]
  have := h o ho
  rw [hout, hout', hms]
  exact this

theorem State.olderLoss_or (s : State) (p q : LinkPort) : s.olderLoss p q = p ∨ s.olderLoss p q = q := by
  unfold State.olderLoss
  repeat' split
  all_goals simp

theorem State.foldl_olderLoss_mem (s : State) : ∀ (l : List LinkPort) (q : LinkPort), l.foldl s.olderLoss q ∈ q :: l
  | [], q => by simp
  | x :: l, q => by
    have hrest := s.foldl_olderLoss_mem l (s.olderLoss q x)
    rw [List.foldl_cons]
    rcases s.olderLoss_or q x with h | h <;> rw [h] at hrest ⊢ <;> simp only [List.mem_cons] at hrest ⊢ <;> tauto

/-- The port that gives up its place is a bound one that carries no frames (R25). -/
theorem State.mem_of_toUnbind {s : State} {r : Slot} {q : LinkPort} (h : s.toUnbind r = some q) :
    q ∈ r.bound ∧ (s.port q).usable = false := by
  have hmem : q ∈ r.bound.filter fun q => !(s.port q).usable := by
    unfold State.toUnbind at h
    split at h
    · cases h
    next x rest hl =>
      rw [hl, ← Option.some.inj h]
      exact s.foldl_olderLoss_mem rest x
  simpa using List.mem_filter.mp hmem

/-- What stands of an admission while waiting ports of the same identity are bound: slot `d` is a console's with port `p` as its main
port, and the other slots, the wait list, the outputs and the port's state are as they were. -/
structure State.Admitted (d : Desk) (p : LinkPort) (x : DeskId) (s t : State) : Prop where
  state : (t.slot d).state = .active
  ident : (t.slot d).ident = some x
  main : (t.slot d).bound.head? = some p
  usable : (t.port p).usable = true
  others : ∀ e, e ≠ d → t.slot e = s.slot e
  waitList : t.waitList = s.waitList
  outputs : t.outputs = s.outputs

namespace State.Admitted
variable {d : Desk} {p q : LinkPort} {x : DeskId} {s t : State}

theorem modBound (h : s.Admitted d p x t) {f : Slot → Slot} (hstate : (f (t.slot d)).state = (t.slot d).state)
    (hident : (f (t.slot d)).ident = (t.slot d).ident) (hmain : (f (t.slot d)).bound.head? = some p) : s.Admitted d p x (t.modSlot d f) where
  state := by rw [State.slot_modSlot_same, hstate]; exact h.state
  ident := by rw [State.slot_modSlot_same, hident]; exact h.ident
  main := by rw [State.slot_modSlot_same, hmain]
  usable := h.usable
  others e he := by rw [State.slot_modSlot, if_neg he]; exact h.others e he
  waitList := h.waitList
  outputs := h.outputs

theorem recheck (h : s.Admitted d p x t) : s.Admitted d p x (t.recheck d) := by
  have hmoves := State.Moves.recheck d t
  have hslots (e : Desk) (he : e ≠ d) : (t.recheck d).slot e = t.slot e := by
    unfold State.recheck
    dsimp only
    repeat' split
    all_goals first | exact State.slot_switchover_ne _ _ _ he | rfl
  exact { state := (Slot.seat_state (hmoves.seats d)).trans h.state
          ident := (Slot.seat_ident (hmoves.seats d)).trans h.ident
          main := by rw [Slot.seat_bound (hmoves.seats d)]; exact h.main
          usable := (Port.core_usable (hmoves.ports p)).trans h.usable
          others := fun e he => (hslots e he).trans (h.others e he)
          waitList := hmoves.waitList.trans h.waitList
          outputs := by simpa using h.outputs }

theorem bindStep1 (h : s.Admitted d p x t) (q : LinkPort) : s.Admitted d p x (t.bindStep1 d q) := by
  have after {u : State} (hu : s.Admitted d p x u) :
      s.Admitted d p x (if (t.slot d).state = .silent then u.revive d q else u.recheck d) := by
    rw [h.state]
    exact hu.recheck
  unfold State.bindStep1
  dsimp only
  split
  · refine after (h.modBound rfl rfl ?_)
    show ((t.slot d).bound ++ [q]).head? = some p
    rw [List.head?_append, h.main]
    rfl
  · split
    next r hr =>
      refine after (h.modBound rfl rfl ?_)
      have hrp : p ≠ r := by
        rintro rfl
        exact absurd h.usable (by rw [(State.mem_of_toUnbind hr).2]; exact Bool.false_ne_true)
      show ((t.slot d).bound.map fun y => if y = r then q else y).head? = some p
      rw [List.head?_map, h.main, Option.map_some, if_neg hrp]
    · exact h

theorem foldBind : ∀ (l : List LinkPort) {t : State}, s.Admitted d p x t → s.Admitted d p x (State.foldOver (State.bindStep1 d) l t)
  | [], _, h => h
  | q :: l, _, h => foldBind l (h.bindStep1 q)

end State.Admitted

/-- The record of a slot that admits a port (R26). -/
def Slot.admitted (p : LinkPort) (x : DeskId) (role : Role) : Slot :=
  { Slot.reset with state := .active, ident := some x, role := some role, bound := [p], active := some p, talkClass := role.talkClass }

/-- The role a console is given: MONITOR to one slot only (R26). -/
def State.roleGiven (d : Desk) (asked : Role) (s : State) : Role := if asked = .monitor ∧ s.monitorHeld d then .general else asked

/-- The waiting ports of the same identity (R26). -/
def State.sameIdentity (p : LinkPort) (x : DeskId) (s : State) : List LinkPort :=
  s.waitList.filter fun q => decide (q ≠ p ∧ (s.port q).identSeen = some x)

/-- The slot and the wait list as the slot admits a port (R26). -/
def State.seated (d : Desk) (p : LinkPort) (x : DeskId) (asked : Role) (s : State) : State :=
  { s.modSlot d fun _ => Slot.admitted p x (s.roleGiven d asked) with
    waitList := s.waitList.filter fun q => decide (q ≠ p ∧ (s.port q).identSeen ≠ some x) }

/-- What the lane, the meters and the outputs hear of an admission (R42, R140, R145, R173). -/
def State.welcomed (d : Desk) (s : State) : State := ((s.modLane d fun l => { l with dropped := false }).meterAdmission d).returnsRegained d

theorem State.enroll_eq (d : Desk) (p : LinkPort) (x : DeskId) (asked : Role) (s : State) :
    s.enroll d p x asked =
      (State.foldOver (State.bindStep1 d) (s.sameIdentity p x) ((s.seated d p x asked).welcomed d)).buildDigest (.desk d) := rfl

theorem State.welcomed_only (d : Desk) (s : State) :
    ∃ ls m os outs, s.welcomed d = { s with lanes := ls, meter := m, overs := os, outputs := outs } := by
  obtain ⟨outs, h⟩ := State.returnsRegained_only d ((s.modLane d fun l => { l with dropped := false }).meterAdmission d)
  exact ⟨_, _, _, outs, h⟩

section
variable {d : Desk} {p : LinkPort} {s : State}

/-- Step 2 of R26 for a port that carries frames. -/
theorem State.enroll_admits (husable : (s.port p).usable = true) (x : DeskId) (asked : Role) :
    ((s.enroll d p x asked).slot d).state = .active ∧ ((s.enroll d p x asked).slot d).ident = some x ∧
      ((s.enroll d p x asked).slot d).bound.head? = some p ∧ (∀ e, e ≠ d → (s.enroll d p x asked).slot e = s.slot e) ∧
      (s.enroll d p x asked).waitList = (s.waitList.filter fun q => decide (q ≠ p ∧ (s.port q).identSeen ≠ some x)) ∧
      s.SourcesBack (IsReturn d) (s.enroll d p x asked) := by
  obtain ⟨ls, m, os, outs, hwelcome⟩ := (s.seated d p x asked).welcomed_only d
  have hslot (e : Desk) : ((s.seated d p x asked).welcomed d).slot e = (s.seated d p x asked).slot e := by rw [hwelcome]; rfl
  have hseat : (s.seated d p x asked).slot d = Slot.admitted p x (s.roleGiven d asked) :=
    State.slot_modSlot_same s d fun _ => Slot.admitted p x (s.roleGiven d asked)
  have hbase : State.Admitted d p x ((s.seated d p x asked).welcomed d) ((s.seated d p x asked).welcomed d) :=
    { state := by rw [hslot, hseat]; rfl
      ident := by rw [hslot, hseat]; rfl
      main := by rw [hslot, hseat]; rfl
      usable := by rw [hwelcome]; exact husable
      others := fun _ _ => rfl
      waitList := rfl
      outputs := rfl }
  have hadmitted := State.Admitted.foldBind (s.sameIdentity p x) hbase
  rw [State.enroll_eq]
  generalize State.foldOver (State.bindStep1 d) (s.sameIdentity p x) ((s.seated d p x asked).welcomed d) = u at hadmitted ⊢
  have hdigest (e : Desk) : (u.buildDigest (.desk d)).slot e = u.slot e := rfl
  refine ⟨hadmitted.state, hadmitted.ident, hadmitted.main, fun e he => ?_, ?_, ?_⟩
  · rw [hdigest, hadmitted.others e he, hslot]
    exact (State.slot_modSlot s d e fun _ => Slot.admitted p x (s.roleGiven d asked)).trans (if_neg he)
  · refine Eq.trans (by simp) (hadmitted.waitList.trans ?_)
    rw [hwelcome]
    rfl
  · exact (State.sourcesBack_returnsRegained d _).congr rfl rfl (Eq.trans (by simp) hadmitted.outputs)

end

/-! ### Vacancy -/

/-- Everything a slot held released, before the oldest waiting port is admitted (R41, R80, R160, R172). -/
def State.released (d : Desk) (s : State) : State :=
  (((s.modSlot d fun _ => Slot.reset).modLane d Lane.vacate).freeDomainsOf (.desk d)).resetColumn d.column

theorem State.vacate_eq (d : Desk) (s : State) : s.vacate d = (s.released d).admitWaiting d := rfl

/-- Settles O31: the slot releases what it held, and the head of the wait list, if there is one, is admitted to it. -/
theorem graceExpiryEffect : Obligations.GraceExpiryEffect := by
  intro d s hpower
  have hexec : exec (.graceExpiry d) s = .next (s.graceExpiry d) := exec_of_powered rfl hpower
  have hslot : (s.released d).slot d = Slot.reset := State.slot_modSlot_same s d fun _ => Slot.reset
  have hslotNe {e : Desk} (he : e ≠ d) : (s.released d).slot e = s.slot e :=
    (State.slot_modSlot s d e fun _ => Slot.reset).trans (if_neg he)
  refine ⟨fun g hg hstate hover => ?_, fun hnot => ?_⟩
  · have hvacate : s.graceExpiry d = s.vacate d := by
      unfold State.graceExpiry
      rw [hg]
      exact if_pos ⟨hstate, hover⟩
    rw [hvacate, State.vacate_eq] at hexec
    refine ⟨fun hwait => ?_, fun p rest x role hlaw hwait hseen hasked => ?_⟩
    · have hstands : (s.released d).admitWaiting d = s.released d := by
        have hwait' : (s.released d).waitList = [] := hwait
        unfold State.admitWaiting
        rw [hwait']
      rw [hstands] at hexec
      have hlane : (s.released d).lane d = (s.lane d).vacate :=
        State.lane_modLane_same (s.modSlot d fun _ => Slot.reset) d Lane.vacate
      refine ⟨_, hexec, ?_⟩
      rw [hslot, hlane]
      refine ⟨rfl, rfl, rfl, rfl, rfl, rfl, rfl, rfl, rfl, rfl, rfl, rfl, rfl, fun e he => ⟨hslotNe he, ?_⟩, rfl, rfl, rfl, rfl, rfl, rfl,
        rfl, rfl, rfl, rfl, rfl, rfl, rfl⟩
      exact (State.lane_modLane (s.modSlot d fun _ => Slot.reset) d e Lane.vacate).trans (if_neg he)
    · have hadmits : (s.released d).admitWaiting d = (s.released d).enroll d p x role := by
        have hwait' : (s.released d).waitList = p :: rest := hwait
        have hseen' : ((s.released d).port p).identSeen = some x := hseen
        have hasked' : ((s.released d).port p).roleSeen = some role := hasked
        unfold State.admitWaiting
        rw [hwait']
        dsimp only
        rw [hseen', hasked']
      rw [hadmits] at hexec
      have husable : ((s.released d).port p).usable = true := (hlaw.waiting.2 p (by rw [hwait]; simp)).1
      obtain ⟨hactive, hident, hmain, hothers, hlist, hback⟩ := State.enroll_admits (d := d) husable x role
      have hlist' : ((s.released d).enroll d p x role).waitList =
          ((p :: rest).filter fun q => decide (q ≠ p ∧ (s.port q).identSeen ≠ some x)) := by
        rw [← hwait]
        exact hlist
      rw [List.filter_cons_of_neg (by simp)] at hlist'
      refine ⟨_, hexec, hactive, hident, hmain, ?_, ?_, hback.congr rfl rfl rfl, fun e he => (hothers e he).trans (hslotNe he)⟩
      · rw [hlist']
        exact fun hmem => by simpa using (List.mem_filter.mp hmem).2
      · rw [hlist']
        exact List.filter_sublist
  · rw [hexec]
    congr 1
    unfold State.graceExpiry
    split
    next g hg =>
      refine if_neg fun hdue => ?_
      rcases hnot with hstate | hless
      · exact hstate hdue.1
      · exact absurd (hless g hg) (by omega)
    · rfl

end Sys2Proof.Machine

/-!
The attachment table by itself (R22 to R31): which identity each port carries, who sits in each slot, and the wait list. Its law is the
attachment law with a list of pending ports, which carry frames and have not yet been given a place; an event binds them one by one.
-/
namespace Sys2Proof.Machine

/-- A desk slot as the attachment table shows it. -/
structure Seat where
  state : SlotState
  ident : Option DeskId
  bound : List LinkPort
  active : Option LinkPort

/-- The attachment table: the identity a port carries, if it carries frames, the slots and the wait list. -/
structure Table where
  carries : LinkPort → Option DeskId
  seat : Desk → Seat
  waits : List LinkPort

namespace Table

/-- The port carries frames and is bound to no slot. -/
def Free (T : Table) (p : LinkPort) : Prop := T.carries p ≠ none ∧ ∀ d, p ∉ (T.seat d).bound

/-- A port is free of the table with another wait list if it is free of the table. -/
theorem free_waits {T : Table} {w : List LinkPort} {p : LinkPort} : Free { T with waits := w } p ↔ T.Free p := Iff.rfl

/-- The attachment law, but for ports that are pending. -/
structure Lawful (X : List LinkPort) (T : Table) : Prop where
  activePath : ∀ d, (T.seat d).state = .active →
    ∃ p, (T.seat d).active = some p ∧ p ∈ (T.seat d).bound ∧ T.carries p ≠ none
  onlyActive : ∀ d, (T.seat d).state ≠ .active → (T.seat d).active = none
  silent : ∀ d, (T.seat d).state = .silent → ∀ p, p ∈ (T.seat d).bound → T.carries p = none
  vacant : ∀ d, (T.seat d).state = .vacant → (T.seat d).bound = []
  twoPorts : ∀ d, (T.seat d).bound.length ≤ 2 ∧ (T.seat d).bound.Nodup
  oneSlot : ∀ d e p, p ∈ (T.seat d).bound → p ∈ (T.seat e).bound → d = e
  oneIdentity : ∀ d e, (T.seat d).state ≠ .vacant → (T.seat e).state ≠ .vacant → (T.seat d).ident = (T.seat e).ident → d = e
  identity : ∀ d p, p ∈ (T.seat d).bound → T.carries p ≠ none → T.carries p = (T.seat d).ident
  waiting : T.waits.Nodup ∧ ∀ p, p ∈ T.waits → T.Free p
  pending : X.Nodup ∧ ∀ p, p ∈ X → T.Free p ∧ p ∉ T.waits
  strangers : ∀ p d, p ∈ T.waits → (T.seat d).state ≠ .vacant → (T.seat d).ident ≠ T.carries p
  surplus : ∀ p, T.Free p → p ∉ T.waits → p ∉ X → ∃ d, (T.seat d).state ≠ .vacant ∧ (T.seat d).ident = T.carries p
  both : ∀ p d, T.Free p → p ∉ X → (T.seat d).state ≠ .vacant → (T.seat d).ident = T.carries p →
    (T.seat d).bound.length = 2 ∧ ∀ q, q ∈ (T.seat d).bound → T.carries q ≠ none

/-- The wait list is empty while a slot is VACANT (R27). -/
def NoVacancy (T : Table) : Prop := ∀ d, (T.seat d).state = .vacant → T.waits = []

end Table

/-! ### The table of a state -/

/-- The identity a port carries, if it carries frames. -/
def Port.carries (r : Port) : Option DeskId := if r.usable then r.identSeen else none

/-- What the table shows of a slot record. -/
def Slot.tableSeat (r : Slot) : Seat := { state := r.state, ident := r.ident, bound := r.bound, active := r.active }

/-- The attachment table of a state. -/
def State.table (s : State) : Table :=
  { carries := fun p => (s.port p).carries, seat := fun d => (s.slot d).tableSeat, waits := s.waitList }

/-- A port that carries frames has seen an identity and a role (R5). -/
def State.Carried (s : State) : Prop :=
  ∀ p, (s.port p).usable = true → (s.port p).identSeen.isSome = true ∧ (s.port p).roleSeen.isSome = true

@[simp] theorem Slot.tableSeat_state (r : Slot) : r.tableSeat.state = r.state := rfl
@[simp] theorem Slot.tableSeat_ident (r : Slot) : r.tableSeat.ident = r.ident := rfl
@[simp] theorem Slot.tableSeat_bound (r : Slot) : r.tableSeat.bound = r.bound := rfl
@[simp] theorem Slot.tableSeat_active (r : Slot) : r.tableSeat.active = r.active := rfl
@[simp] theorem State.table_seat (s : State) (d : Desk) : s.table.seat d = (s.slot d).tableSeat := rfl
@[simp] theorem State.table_carries (s : State) (p : LinkPort) : s.table.carries p = (s.port p).carries := rfl
@[simp] theorem State.table_waits (s : State) : s.table.waits = s.waitList := rfl

theorem Port.carries_of_usable {r : Port} (h : r.usable = true) : r.carries = r.identSeen := if_pos h

theorem Port.carries_of_not_usable {r : Port} (h : r.usable = false) : r.carries = none := if_neg (by rw [h]; exact Bool.false_ne_true)

section
variable {s : State}

theorem State.Carried.usable_iff (h : s.Carried) (p : LinkPort) : (s.port p).usable = true ↔ (s.port p).carries ≠ none := by
  cases hu : (s.port p).usable with
  | false => simp [Port.carries_of_not_usable hu]
  | true => simpa [Port.carries_of_usable hu, Option.isSome_iff_ne_none] using (h p hu).1

theorem State.Carried.not_usable_iff (h : s.Carried) (p : LinkPort) : (s.port p).usable = false ↔ (s.port p).carries = none := by
  rw [← Bool.not_eq_true, h.usable_iff p, not_not]

/-- The attachment law is the law of the table with no port pending. -/
theorem State.attachLawful_iff : s.AttachLawful ↔ s.Carried ∧ s.table.Lawful [] ∧ s.table.NoVacancy := by
  constructor
  · intro h
    have hu := State.Carried.usable_iff h.carried
    have hn := State.Carried.not_usable_iff h.carried
    have hc {p : LinkPort} (hp : (s.port p).carries ≠ none) : (s.port p).identSeen = (s.port p).carries :=
      (Port.carries_of_usable ((hu p).mpr hp)).symm
    refine ⟨h.carried, ?_, fun d hd => h.noVacancy ⟨d, hd⟩⟩
    exact {
      activePath := fun d hd => by
        obtain ⟨p, hp, hbound, husable⟩ := h.activePath d hd
        exact ⟨p, hp, hbound, (hu p).mp husable⟩
      onlyActive := h.onlyActive
      silent := fun d hd p hp => (hn p).mp (h.silent d hd p hp)
      vacant := h.vacant
      twoPorts := h.twoPorts
      oneSlot := h.oneSlot
      oneIdentity := h.oneIdentity
      identity := fun d p hp hcarries => (hc hcarries).symm.trans (h.identity d p hp ((hu p).mpr hcarries))
      waiting := ⟨h.waiting.1, fun p hp => ⟨(hu p).mp (h.waiting.2 p hp).1, (h.waiting.2 p hp).2⟩⟩
      pending := ⟨List.nodup_nil, nofun⟩
      strangers := fun p d hp hd => by
        rw [State.table_carries, ← hc ((hu p).mp (h.waiting.2 p hp).1)]
        exact h.strangers p d hp hd
      surplus := fun p hfree hwait _ => by
        obtain ⟨d, hd, hident⟩ := h.surplus p ((hu p).mpr hfree.1) hfree.2 hwait
        exact ⟨d, hd, hident.trans (hc hfree.1)⟩
      both := fun p d hfree _ hd hident => by
        obtain ⟨htwo, hall⟩ := h.both p d ((hu p).mpr hfree.1) hfree.2 hd (hident.trans (hc hfree.1).symm)
        exact ⟨htwo, fun q hq => (hu q).mp (hall q hq)⟩ }
  · rintro ⟨hcarried, h, hvacancy⟩
    have hu := hcarried.usable_iff
    have hn := hcarried.not_usable_iff
    have hc {p : LinkPort} (hp : (s.port p).usable = true) : (s.port p).carries = (s.port p).identSeen := Port.carries_of_usable hp
    exact {
      activePath := fun d hd => by
        obtain ⟨p, hp, hbound, hcarries⟩ := h.activePath d hd
        exact ⟨p, hp, hbound, (hu p).mpr hcarries⟩
      onlyActive := h.onlyActive
      silent := fun d hd p hp => (hn p).mpr (h.silent d hd p hp)
      vacant := h.vacant
      twoPorts := h.twoPorts
      oneSlot := h.oneSlot
      oneIdentity := h.oneIdentity
      identity := fun d p hp husable => (hc husable).symm.trans (h.identity d p hp ((hu p).mp husable))
      carried := hcarried
      waiting := ⟨h.waiting.1, fun p hp => ⟨(hu p).mpr (h.waiting.2 p hp).1, (h.waiting.2 p hp).2⟩⟩
      strangers := fun p d hp hd => by
        rw [← hc ((hu p).mpr (h.waiting.2 p hp).1)]
        exact h.strangers p d hp hd
      noVacancy := fun ⟨d, hd⟩ => hvacancy d hd
      surplus := fun p husable hfree hwait => by
        obtain ⟨d, hd, hident⟩ := h.surplus p ⟨(hu p).mp husable, hfree⟩ hwait (by simp)
        exact ⟨d, hd, hident.trans (hc husable)⟩
      both := fun p d husable hfree hd hident => by
        obtain ⟨htwo, hall⟩ := h.both p d ⟨(hu p).mp husable, hfree⟩ (by simp) hd (hident.trans (hc husable).symm)
        exact ⟨htwo, fun q hq => (hu q).mpr (hall q hq)⟩ }

end

/-! ### Changes of the table -/

namespace Table

/-- Another seat in a slot. -/
def setSeat (d : Desk) (x : Seat) (T : Table) : Table := { T with seat := Function.update T.seat d x }

/-- The port carries no frames any more, and waits no longer (R27, R28). -/
def dim (p : LinkPort) (T : Table) : Table :=
  { T with carries := Function.update T.carries p none, waits := T.waits.filter (· ≠ p) }

/-- The port carries frames of an identity (R5, R24). -/
def light (p : LinkPort) (x : DeskId) (T : Table) : Table := { T with carries := Function.update T.carries p (some x) }

@[simp] theorem setSeat_same (d : Desk) (x : Seat) (T : Table) : (T.setSeat d x).seat d = x := Function.update_self ..

theorem setSeat_ne {d e : Desk} (h : e ≠ d) (x : Seat) (T : Table) : (T.setSeat d x).seat e = T.seat e := Function.update_of_ne h ..

@[simp] theorem setSeat_carries (d : Desk) (x : Seat) (T : Table) : (T.setSeat d x).carries = T.carries := rfl
@[simp] theorem setSeat_waits (d : Desk) (x : Seat) (T : Table) : (T.setSeat d x).waits = T.waits := rfl

@[simp] theorem setSeat_setSeat (d : Desk) (x y : Seat) (T : Table) : (T.setSeat d x).setSeat d y = T.setSeat d y := by
  unfold setSeat
  rw [Function.update_idem]

/-- The seat a slot is given fits: it obeys what the law says of the slot, it takes its ports from those it had, from the pending ones
or from those that carry no frames and are unbound, and a port it gives up that carries frames is pending from then on. -/
structure Fits (T : Table) (X X' : List LinkPort) (d : Desk) (x : Seat) : Prop where
  path : x.state = .active → ∃ p, x.active = some p ∧ p ∈ x.bound ∧ T.carries p ≠ none
  onlyActive : x.state ≠ .active → x.active = none
  silent : x.state = .silent → ∀ p, p ∈ x.bound → T.carries p = none
  vacant : x.state = .vacant → x.bound = []
  twoPorts : x.bound.length ≤ 2 ∧ x.bound.Nodup
  taken : ∀ p, p ∈ x.bound → p ∈ (T.seat d).bound ∨ p ∈ X ∨ T.carries p = none ∧ ∀ e, p ∉ (T.seat e).bound
  identity : ∀ p, p ∈ x.bound → T.carries p ≠ none → T.carries p = x.ident
  own : x.state ≠ .vacant →
    (∀ e, e ≠ d → (T.seat e).state ≠ .vacant → (T.seat e).ident ≠ x.ident) ∧ ∀ p, p ∈ T.waits → x.ident ≠ T.carries p
  pending : X'.Nodup ∧ ∀ p, p ∈ X' → (p ∈ X ∨ p ∈ (T.seat d).bound ∧ T.carries p ≠ none) ∧ p ∉ x.bound
  given : ∀ p, p ∈ X → p ∈ X' ∨ p ∈ x.bound
  freed : ∀ p, p ∈ (T.seat d).bound → p ∈ x.bound ∨ p ∈ X' ∨ T.carries p = none
  stays : (T.seat d).state ≠ .vacant →
    x.state ≠ .vacant ∧ x.ident = (T.seat d).ident ∨ ∀ p, T.Free p → p ∉ X → (T.seat d).ident ≠ T.carries p
  both : ∀ p, T.Free p → p ∉ X → x.state ≠ .vacant → x.ident = T.carries p →
    x.bound.length = 2 ∧ ∀ q, q ∈ x.bound → T.carries q ≠ none

section
variable {T : Table} {X X' : List LinkPort} {d : Desk} {x : Seat}

/-- A port that is free under the new seat and not pending was free and not pending. -/
theorem Fits.free (hfits : T.Fits X X' d x) {p : LinkPort} (h : (T.setSeat d x).Free p) (hp : p ∉ X') : T.Free p ∧ p ∉ X := by
  have hx : p ∉ x.bound := by simpa using h.2 d
  refine ⟨⟨h.1, fun e he => ?_⟩, fun hX => (hfits.given p hX).elim hp hx⟩
  by_cases hed : e = d
  · subst hed
    rcases hfits.freed p he with hb | hX | hdark
    · exact hx hb
    · exact hp hX
    · exact h.1 hdark
  · have := h.2 e
    rw [setSeat_ne hed] at this
    exact this he

/-- No port of another slot is among those of the new seat. -/
theorem Fits.apart (h : T.Lawful X) (hfits : T.Fits X X' d x) {e : Desk} (he : e ≠ d) {p : LinkPort} (hp : p ∈ x.bound) :
    p ∉ (T.seat e).bound := by
  intro hpe
  rcases hfits.taken p hp with hold | hX | hdark
  · exact he (h.oneSlot e d p hpe hold)
  · exact (h.pending.2 p hX).1.2 e hpe
  · exact hdark.2 e hpe

/-- The law with a seat that fits. -/
theorem Lawful.reseat (h : T.Lawful X) (hfits : T.Fits X X' d x) : (T.setSeat d x).Lawful X' := by
  have free_of {p : LinkPort} (hp : T.Free p) (hx : p ∉ x.bound) : (T.setSeat d x).Free p :=
    ⟨hp.1, fun e => by
      by_cases he : e = d
      · subst he; rwa [setSeat_same]
      · rw [setSeat_ne he]; exact hp.2 e⟩
  have not_bound {p : LinkPort} (hp : T.Free p) (hX : p ∉ X) : p ∉ x.bound := fun hx => by
    rcases hfits.taken p hx with hold | hX' | hdark
    · exact hp.2 d hold
    · exact hX hX'
    · exact hp.1 hdark.1
  have hwaitX {p : LinkPort} (hp : p ∈ T.waits) : p ∉ X := fun hX => (h.pending.2 p hX).2 hp
  refine ⟨fun e => ?_, fun e => ?_, fun e => ?_, fun e => ?_, fun e => ?_, fun e f p hp hp' => ?_, fun e f he hf hef => ?_, fun e p => ?_,
    ⟨h.waiting.1, fun p hp => ?_⟩, ⟨hfits.pending.1, fun p hp => ?_⟩, fun p e hp he => ?_, fun p hfree hwait hX => ?_,
    fun p e hfree hX he hident => ?_⟩
  · by_cases he : e = d
    · subst he; rw [setSeat_same]; exact hfits.path
    · rw [setSeat_ne he]; exact h.activePath e
  · by_cases he : e = d
    · subst he; rw [setSeat_same]; exact hfits.onlyActive
    · rw [setSeat_ne he]; exact h.onlyActive e
  · by_cases he : e = d
    · subst he; rw [setSeat_same]; exact hfits.silent
    · rw [setSeat_ne he]; exact h.silent e
  · by_cases he : e = d
    · subst he; rw [setSeat_same]; exact hfits.vacant
    · rw [setSeat_ne he]; exact h.vacant e
  · by_cases he : e = d
    · subst he; rw [setSeat_same]; exact hfits.twoPorts
    · rw [setSeat_ne he]; exact h.twoPorts e
  · by_cases he : e = d <;> by_cases hf : f = d
    · rw [he, hf]
    · subst he
      rw [setSeat_same] at hp
      rw [setSeat_ne hf] at hp'
      exact absurd hp' (hfits.apart h hf hp)
    · subst hf
      rw [setSeat_ne he] at hp
      rw [setSeat_same] at hp'
      exact absurd hp (hfits.apart h he hp')
    · rw [setSeat_ne he] at hp
      rw [setSeat_ne hf] at hp'
      exact h.oneSlot e f p hp hp'
  · by_cases hed : e = d <;> by_cases hfd : f = d
    · rw [hed, hfd]
    · subst hed
      rw [setSeat_same] at he hef
      rw [setSeat_ne hfd] at hf hef
      exact absurd hef.symm ((hfits.own he).1 f hfd hf)
    · subst hfd
      rw [setSeat_ne hed] at he hef
      rw [setSeat_same] at hf hef
      exact absurd hef ((hfits.own hf).1 e hed he)
    · rw [setSeat_ne hed] at he hef
      rw [setSeat_ne hfd] at hf hef
      exact h.oneIdentity e f he hf hef
  · by_cases he : e = d
    · subst he; rw [setSeat_same]; exact hfits.identity p
    · rw [setSeat_ne he]; exact h.identity e p
  · exact free_of (h.waiting.2 p hp) (not_bound (h.waiting.2 p hp) (hwaitX hp))
  · obtain ⟨hold, hx⟩ := hfits.pending.2 p hp
    rcases hold with hX | ⟨hbound, hcarries⟩
    · exact ⟨free_of (h.pending.2 p hX).1 hx, (h.pending.2 p hX).2⟩
    · refine ⟨⟨hcarries, fun e he => ?_⟩, fun hwait => (h.waiting.2 p hwait).2 d hbound⟩
      by_cases hed : e = d
      · subst hed
        rw [setSeat_same] at he
        exact hx he
      · rw [setSeat_ne hed] at he
        exact hed (h.oneSlot e d p he hbound)
  · by_cases hed : e = d
    · subst hed
      rw [setSeat_same] at he ⊢
      exact (hfits.own he).2 p hp
    · rw [setSeat_ne hed] at he ⊢
      exact h.strangers p e hp he
  · obtain ⟨hold, hXold⟩ := hfits.free hfree hX
    obtain ⟨e, he, hident⟩ := h.surplus p hold hwait hXold
    by_cases hed : e = d
    · subst hed
      rcases hfits.stays he with ⟨hstate, hsame⟩ | hnone
      · exact ⟨e, by rwa [setSeat_same], by rw [setSeat_same]; exact hsame.trans hident⟩
      · exact absurd hident (hnone p hold hXold)
    · exact ⟨e, by rwa [setSeat_ne hed], by rwa [setSeat_ne hed]⟩
  · obtain ⟨hold, hXold⟩ := hfits.free hfree hX
    by_cases hed : e = d
    · subst hed
      rw [setSeat_same] at he hident ⊢
      exact hfits.both p hold hXold he hident
    · rw [setSeat_ne hed] at he hident ⊢
      exact h.both p e hold hXold he hident

/-! ### Ports that light up, go dark or leave the wait list -/

/-- A pending port goes dark and is forgotten. -/
theorem Lawful.dim {p : LinkPort} (h : T.Lawful [p]) : (T.dim p).Lawful [] := by
  obtain ⟨⟨hcarries, hunbound⟩, hwait⟩ := h.pending.2 p (by simp)
  have hne {d : Desk} {q : LinkPort} (hq : q ∈ (T.seat d).bound) : q ≠ p := fun e => hunbound d (e ▸ hq)
  have same {q : LinkPort} (hq : q ≠ p) : (T.dim p).carries q = T.carries q := Function.update_of_ne hq ..
  have hlist : (T.dim p).waits = T.waits := List.filter_eq_self.mpr fun q hq => by simpa using fun e : q = p => hwait (e ▸ hq)
  have hfree {q : LinkPort} (hq : (T.dim p).Free q) : q ≠ p ∧ T.Free q := by
    have hqp : q ≠ p := by
      rintro rfl
      exact hq.1 (Function.update_self ..)
    exact ⟨hqp, same hqp ▸ hq.1, hq.2⟩
  have hwaits {q : LinkPort} (hq : q ∈ T.waits) : q ≠ p := fun e => hwait (e ▸ hq)
  refine ⟨fun d hd => ?_, h.onlyActive, fun d hd q hq => ?_, h.vacant, h.twoPorts, h.oneSlot, h.oneIdentity, fun d q hq hc => ?_,
    ⟨hlist ▸ h.waiting.1, fun q hq => ?_⟩, ⟨List.nodup_nil, nofun⟩, fun q d hq hd => ?_, fun q hq hw _ => ?_, fun q d hq _ hd hident => ?_⟩
  · obtain ⟨q, hq, hbound, hc⟩ := h.activePath d hd
    exact ⟨q, hq, hbound, same (hne hbound) ▸ hc⟩
  · rw [same (hne hq)]
    exact h.silent d hd q hq
  · rw [same (hne hq)] at hc ⊢
    exact h.identity d q hq hc
  · rw [hlist] at hq
    exact ⟨by rw [same (hwaits hq)]; exact (h.waiting.2 q hq).1, (h.waiting.2 q hq).2⟩
  · rw [hlist] at hq
    rw [same (hwaits hq)]
    exact h.strangers q d hq hd
  · obtain ⟨hqp, hq⟩ := hfree hq
    rw [hlist] at hw
    obtain ⟨d, hd, hident⟩ := h.surplus q hq hw (by simpa using hqp)
    exact ⟨d, hd, by rw [same hqp]; exact hident⟩
  · obtain ⟨hqp, hq⟩ := hfree hq
    rw [same hqp] at hident
    obtain ⟨htwo, hall⟩ := h.both q d hq (by simpa using hqp) hd hident
    exact ⟨htwo, fun r hr => by rw [same (hne hr)]; exact hall r hr⟩

/-- An unbound port that carries no frames lights up and is pending. -/
theorem Lawful.light {p : LinkPort} (h : T.Lawful []) (hdark : T.carries p = none) (hunbound : ∀ d, p ∉ (T.seat d).bound)
    (y : DeskId) : (T.light p y).Lawful [p] := by
  have hne {d : Desk} {q : LinkPort} (hq : q ∈ (T.seat d).bound) : q ≠ p := fun e => hunbound d (e ▸ hq)
  have same {q : LinkPort} (hq : q ≠ p) : (T.light p y).carries q = T.carries q := Function.update_of_ne hq ..
  have hfree {q : LinkPort} (hqp : q ∉ [p]) (hq : (T.light p y).Free q) : T.Free q := ⟨same (by simpa using hqp) ▸ hq.1, hq.2⟩
  have hwaits {q : LinkPort} (hq : q ∈ T.waits) : q ≠ p := fun e => (h.waiting.2 q hq).1 (e ▸ hdark)
  refine ⟨fun d hd => ?_, h.onlyActive, fun d hd q hq => ?_, h.vacant, h.twoPorts, h.oneSlot, h.oneIdentity, fun d q hq hc => ?_,
    ⟨h.waiting.1, fun q hq => ?_⟩, ⟨List.nodup_singleton p, fun q hq => ?_⟩, fun q d hq hd => ?_, fun q hq hw hX => ?_,
    fun q d hq hX hd hident => ?_⟩
  · obtain ⟨q, hq, hbound, hc⟩ := h.activePath d hd
    exact ⟨q, hq, hbound, same (hne hbound) ▸ hc⟩
  · rw [same (hne hq)]
    exact h.silent d hd q hq
  · rw [same (hne hq)] at hc ⊢
    exact h.identity d q hq hc
  · exact ⟨by rw [same (hwaits hq)]; exact (h.waiting.2 q hq).1, (h.waiting.2 q hq).2⟩
  · rw [List.mem_singleton.mp hq]
    refine ⟨⟨?_, hunbound⟩, fun hw => hwaits hw rfl⟩
    show Function.update T.carries p (some y) p ≠ none
    rw [Function.update_self]
    exact Option.some_ne_none y
  · rw [same (hwaits hq)]
    exact h.strangers q d hq hd
  · obtain ⟨d, hd, hident⟩ := h.surplus q (hfree hX hq) hw (by simp)
    exact ⟨d, hd, by rw [same (by simpa using hX)]; exact hident⟩
  · rw [same (by simpa using hX)] at hident
    obtain ⟨htwo, hall⟩ := h.both q d (hfree hX hq) (by simp) hd hident
    exact ⟨htwo, fun r hr => by rw [same (hne hr)]; exact hall r hr⟩

/-- A port surplus to a slot may be treated as pending. -/
theorem Lawful.pend {q : LinkPort} (h : T.Lawful []) (hfree : T.Free q) (hwait : q ∉ T.waits) : T.Lawful [q] :=
  { h with
    pending := ⟨List.nodup_singleton q, fun p hp => by rw [List.mem_singleton.mp hp]; exact ⟨hfree, hwait⟩⟩
    surplus := fun p hp hw _ => h.surplus p hp hw (by simp)
    both := fun p d hp _ => h.both p d hp (by simp) }

/-- A pending port is surplus to a slot with two ports that carry frames (R28). -/
theorem Lawful.settle {p : LinkPort} (h : T.Lawful X) (hp : p ∈ X) {d : Desk} (hd : (T.seat d).state ≠ .vacant)
    (hident : (T.seat d).ident = T.carries p)
    (hfull : (T.seat d).bound.length = 2 ∧ ∀ q, q ∈ (T.seat d).bound → T.carries q ≠ none) : T.Lawful (X.erase p) := by
  have hX {q : LinkPort} (hq : q ∉ X.erase p) (hqp : q ≠ p) : q ∉ X := fun hmem => hq ((List.mem_erase_of_ne hqp).mpr hmem)
  exact { h with
    pending := ⟨h.pending.1.erase p, fun q hq => h.pending.2 q (List.mem_of_mem_erase hq)⟩
    surplus := fun q hfree hw hq => by
      by_cases hqp : q = p
      · exact ⟨d, hd, hqp ▸ hident⟩
      · exact h.surplus q hfree hw (hX hq hqp)
    both := fun q e hfree hq he hqident => by
      by_cases hqp : q = p
      · subst hqp
        rw [h.oneIdentity e d he hd (hqident.trans hident.symm)]
        exact hfull
      · exact h.both q e hfree (hX hq hqp) he hqident }

/-- A pending port of a console that has no slot waits (R27). -/
theorem Lawful.wait {p : LinkPort} (h : T.Lawful [p]) (hnone : ∀ d, (T.seat d).state ≠ .vacant → (T.seat d).ident ≠ T.carries p) :
    Lawful [] { T with waits := T.waits ++ [p] } := by
  obtain ⟨hfree, hwait⟩ := h.pending.2 p (by simp)
  have hor {q : LinkPort} (hq : q ∈ T.waits ++ [p]) : q ∈ T.waits ∨ q = p := by simpa using hq
  exact { h with
    waiting := ⟨List.Nodup.append h.waiting.1 (List.nodup_singleton p) (by simpa using hwait), fun q hq => by
      rcases hor hq with hq | rfl
      · exact h.waiting.2 q hq
      · exact hfree⟩
    pending := ⟨List.nodup_nil, nofun⟩
    strangers := fun q d hq hd => by
      rcases hor hq with hq | rfl
      · exact h.strangers q d hq hd
      · exact hnone d hd
    surplus := fun q hq hw _ => by
      have hw : ¬(q ∈ T.waits ∨ q = p) := by simpa using hw
      exact h.surplus q hq (fun hmem => hw (.inl hmem)) (by simpa using fun e : q = p => hw (.inr e))
    both := fun q d hq _ hd hident => by
      by_cases hqp : q = p
      · exact absurd (hqp ▸ hident) (hnone d hd)
      · exact h.both q d hq (by simpa using hqp) hd hident }

/-- The waiting ports of a console that is being admitted are pending (R26). -/
theorem Lawful.call (h : T.Lawful []) (keep : LinkPort → Bool) (called : List LinkPort) (hnodup : called.Nodup)
    (hcalled : ∀ q, q ∈ called ↔ q ∈ T.waits ∧ keep q = false) : Lawful called { T with waits := T.waits.filter keep } := by
  have hold {q : LinkPort} (hw : q ∉ T.waits.filter keep) (hq : q ∉ called) : q ∉ T.waits := fun hmem => by
    rw [hcalled] at hq
    rw [List.mem_filter] at hw
    cases hk : keep q with
    | false => exact hq ⟨hmem, hk⟩
    | true => exact hw ⟨hmem, hk⟩
  exact { h with
    waiting := ⟨h.waiting.1.filter _, fun q hq => h.waiting.2 q (List.mem_of_mem_filter hq)⟩
    pending := ⟨hnodup, fun q hq => by
      obtain ⟨hmem, hk⟩ := (hcalled q).mp hq
      exact ⟨h.waiting.2 q hmem, fun hf => by rw [(List.mem_filter.mp hf).2] at hk; cases hk⟩⟩
    strangers := fun q d hq => h.strangers q d (List.mem_of_mem_filter hq)
    surplus := fun q hq hw hc => h.surplus q hq (hold hw hc) (by simp)
    both := fun q d hq _ => h.both q d hq (by simp) }

end
end Table
end Sys2Proof.Machine

/-!
What the attachment unit's events make of the table (R25 to R31, R38, R41): a port is bound, released, lost or admitted, a slot falls
silent or becomes vacant.
-/
namespace Sys2Proof.Machine
namespace Table

section
variable {T : Table} {X : List LinkPort} {d : Desk} {p : LinkPort}

/-- Another slot holds no identity that a slot in use holds, and no waiting port carries it. -/
theorem Lawful.own (h : T.Lawful X) (hd : (T.seat d).state ≠ .vacant) :
    (∀ e, e ≠ d → (T.seat e).state ≠ .vacant → (T.seat e).ident ≠ (T.seat d).ident) ∧
      ∀ q, q ∈ T.waits → (T.seat d).ident ≠ T.carries q :=
  ⟨fun e he hstate hident => he (h.oneIdentity e d hstate hd hident), fun q hq => h.strangers q d hq hd⟩

theorem Lawful.inUse (h : T.Lawful X) (hp : p ∈ (T.seat d).bound) : (T.seat d).state ≠ .vacant := fun hstate => by
  rw [h.vacant d hstate] at hp
  cases hp

/-- No port is surplus to a slot with a place or with a port that carries no frames. -/
theorem Lawful.no_surplus (h : T.Lawful X) (hd : (T.seat d).state ≠ .vacant)
    (hroom : (T.seat d).bound.length < 2 ∨ ∃ q, q ∈ (T.seat d).bound ∧ T.carries q = none) {q : LinkPort} (hfree : T.Free q) (hX : q ∉ X) :
    (T.seat d).ident ≠ T.carries q := fun hident => by
  obtain ⟨htwo, hall⟩ := h.both q d hfree hX hd hident
  rcases hroom with hless | ⟨r, hr, hdark⟩
  · omega
  · exact hall r hr hdark

/-- A pending port is bound to its console's slot, which runs on a bound port that carries frames (R25, R40). -/
theorem Lawful.bind (h : T.Lawful X) (hp : p ∈ X) (hd : (T.seat d).state ≠ .vacant) (hident : (T.seat d).ident = T.carries p)
    (hroom : (T.seat d).bound.length < 2 ∨ ∃ q, q ∈ (T.seat d).bound ∧ T.carries q = none) {b : List LinkPort} (hpb : p ∈ b)
    (hb : ∀ q, q ∈ b → q ∈ (T.seat d).bound ∨ q = p) (hkeep : ∀ q, q ∈ (T.seat d).bound → q ∈ b ∨ T.carries q = none)
    (htwo : b.length ≤ 2 ∧ b.Nodup) {run : LinkPort} (hab : run ∈ b) (ha : T.carries run ≠ none) :
    (T.setSeat d { state := .active, ident := (T.seat d).ident, bound := b, active := some run }).Lawful (X.erase p) := by
  have hnot {q : LinkPort} (hq : q ∈ X) (hqp : q ≠ p) : q ∉ b := fun hqb =>
    (hb q hqb).elim ((h.pending.2 q hq).1.2 d) hqp
  exact h.reseat
    { path := fun _ => ⟨run, rfl, hab, ha⟩
      onlyActive := fun hne => absurd rfl hne
      silent := nofun
      vacant := nofun
      twoPorts := htwo
      taken := fun q hq => (hb q hq).imp_right fun hqp : q = p => .inl (hqp ▸ hp)
      identity := fun q hq hc => by
        rcases hb q hq with hold | rfl
        · exact h.identity d q hold hc
        · exact hident.symm
      own := fun _ => h.own hd
      pending := ⟨h.pending.1.erase p, fun q hq => by
        obtain ⟨hqp, hqX⟩ := (h.pending.1.mem_erase_iff).mp hq
        exact ⟨.inl hqX, hnot hqX hqp⟩⟩
      given := fun q hq => by
        by_cases hqp : q = p
        · exact .inr (hqp ▸ hpb)
        · exact .inl ((List.mem_erase_of_ne hqp).mpr hq)
      freed := fun q hq => (hkeep q hq).imp_right .inr
      stays := fun _ => .inl ⟨nofun, rfl⟩
      both := fun q hfree hX _ hq => absurd hq (h.no_surplus hd hroom hfree hX) }

/-- A slot gives up a port that carries no frames (R24). -/
theorem Lawful.release (h : T.Lawful []) (hp : p ∈ (T.seat d).bound) (hdark : T.carries p = none) :
    (T.setSeat d { T.seat d with bound := (T.seat d).bound.filter (· ≠ p) }).Lawful [] := by
  have hd := h.inUse hp
  have hmem {q : LinkPort} : q ∈ (T.seat d).bound.filter (· ≠ p) ↔ q ∈ (T.seat d).bound ∧ q ≠ p := by simp
  exact h.reseat
    { path := fun hstate => by
        obtain ⟨run, ha, hab, hac⟩ := h.activePath d hstate
        exact ⟨run, ha, hmem.mpr ⟨hab, fun e => hac (e ▸ hdark)⟩, hac⟩
      onlyActive := h.onlyActive d
      silent := fun hstate q hq => h.silent d hstate q (hmem.mp hq).1
      vacant := fun hstate => absurd hstate hd
      twoPorts := ⟨(List.length_filter_le ..).trans (h.twoPorts d).1, (h.twoPorts d).2.filter _⟩
      taken := fun q hq => .inl (hmem.mp hq).1
      identity := fun q hq => h.identity d q (hmem.mp hq).1
      own := fun _ => h.own hd
      pending := ⟨List.nodup_nil, nofun⟩
      given := nofun
      freed := fun q hq => by
        by_cases hqp : q = p
        · exact .inr (.inr (hqp ▸ hdark))
        · exact .inl (hmem.mpr ⟨hq, hqp⟩)
      stays := fun _ => .inl ⟨hd, rfl⟩
      both := fun q hfree hX _ hq => absurd hq (h.no_surplus hd (.inr ⟨p, hp, hdark⟩) hfree hX) }

/-- A SILENT slot becomes VACANT (R41). -/
theorem Lawful.vacate (h : T.Lawful []) (hsilent : (T.seat d).state = .silent) :
    (T.setSeat d { state := .vacant, ident := none, bound := [], active := none }).Lawful [] := by
  have hd : (T.seat d).state ≠ .vacant := by rw [hsilent]; nofun
  have hroom : (T.seat d).bound.length < 2 ∨ ∃ q, q ∈ (T.seat d).bound ∧ T.carries q = none := by
    cases hb : (T.seat d).bound with
    | nil => exact .inl (by decide)
    | cons q rest => exact .inr ⟨q, by simp, h.silent d hsilent q (by rw [hb]; simp)⟩
  exact h.reseat
    { path := nofun
      onlyActive := fun _ => rfl
      silent := nofun
      vacant := fun _ => rfl
      twoPorts := by decide
      taken := nofun
      identity := nofun
      own := fun hne => absurd rfl hne
      pending := ⟨List.nodup_nil, nofun⟩
      given := nofun
      freed := fun q hq => .inr (.inr (h.silent d hsilent q hq))
      stays := fun _ => .inr fun q hfree hX => h.no_surplus hd hroom hfree hX
      both := fun _ _ _ hne => absurd rfl hne }

/-- A VACANT slot admits a pending port of a console that has no slot and waits with no other port (R26). -/
theorem Lawful.admitted (h : T.Lawful X) (hp : p ∈ X) (hd : (T.seat d).state = .vacant)
    (hnew : ∀ e, (T.seat e).state ≠ .vacant → (T.seat e).ident ≠ T.carries p) (hwaits : ∀ q, q ∈ T.waits → T.carries p ≠ T.carries q) :
    (T.setSeat d { state := .active, ident := T.carries p, bound := [p], active := some p }).Lawful (X.erase p) := by
  have hcarries := (h.pending.2 p hp).1.1
  exact h.reseat
    { path := fun _ => ⟨p, rfl, by simp, hcarries⟩
      onlyActive := fun hne => absurd rfl hne
      silent := nofun
      vacant := nofun
      twoPorts := ⟨by simp, List.nodup_singleton p⟩
      taken := fun q hq => .inr (.inl (List.mem_singleton.mp hq ▸ hp))
      identity := fun q hq _ => by rw [List.mem_singleton.mp hq]
      own := fun _ => ⟨fun e _ he => hnew e he, hwaits⟩
      pending := ⟨h.pending.1.erase p, fun q hq => by
        obtain ⟨hqp, hqX⟩ := (h.pending.1.mem_erase_iff).mp hq
        exact ⟨.inl hqX, by simpa using hqp⟩⟩
      given := fun q hq => by
        by_cases hqp : q = p
        · exact .inr (by simp [hqp])
        · exact .inl ((List.mem_erase_of_ne hqp).mpr hq)
      freed := fun q hq => by
        rw [h.vacant d hd] at hq
        cases hq
      stays := fun hne => absurd hd hne
      both := fun q hfree hX _ hq => by
        obtain ⟨e, he, hident⟩ := h.surplus q hfree (fun hw => hwaits q hw hq) hX
        exact absurd (hident.trans hq.symm) (hnew e he) }

/-! ### The loss of a bound port -/

/-- A surplus port takes the place of a lost one (R28). -/
theorem Lawful.loseTo {q : LinkPort} (h : T.Lawful []) (hp : p ∈ (T.seat d).bound) (hcarries : T.carries p ≠ none) (hfree : T.Free q)
    (hwait : q ∉ T.waits) (hident : (T.seat d).ident = T.carries q) {b : List LinkPort}
    (hb : ∀ r, r ∈ b ↔ r = q ∨ r ∈ (T.seat d).bound ∧ r ≠ p) (htwo : b.length = 2 ∧ b.Nodup) {run : Option LinkPort}
    (hactive : (T.seat d).state = .active → ∃ r, run = some r ∧ r ∈ b) (honly : (T.seat d).state ≠ .active → run = none) :
    ((T.setSeat d { state := (T.seat d).state, ident := (T.seat d).ident, bound := b, active := run }).dim p).Lawful [] := by
  have hd := h.inUse hp
  have hall := (h.both q d hfree (by simp) hd hident).2
  have hcarry {r : LinkPort} (hr : r ∈ b) : T.carries r ≠ none := by
    rcases (hb r).mp hr with rfl | ⟨hr, -⟩
    · exact hfree.1
    · exact hall r hr
  have hpb : p ∉ b := fun hmem => by
    rcases (hb p).mp hmem with rfl | ⟨-, hne⟩
    · exact hfree.2 d hp
    · exact hne rfl
  have hfits : T.Fits [q] [p] d { state := (T.seat d).state, ident := (T.seat d).ident, bound := b, active := run } :=
    { path := fun hstate => by
        obtain ⟨r, hr, hrb⟩ := hactive hstate
        exact ⟨r, hr, hrb, hcarry hrb⟩
      onlyActive := honly
      silent := fun hstate => absurd (h.silent d hstate p hp) hcarries
      vacant := fun hstate => absurd hstate hd
      twoPorts := ⟨htwo.1.le, htwo.2⟩
      taken := fun r hr => by
        rcases (hb r).mp hr with rfl | ⟨hr, -⟩
        · exact .inr (.inl (by simp))
        · exact .inl hr
      identity := fun r hr hc => by
        rcases (hb r).mp hr with rfl | ⟨hr, -⟩
        · exact hident.symm
        · exact h.identity d r hr hc
      own := fun _ => h.own hd
      pending := ⟨List.nodup_singleton p, fun r hr => by
        rw [List.mem_singleton.mp hr]
        exact ⟨.inr ⟨hp, hcarries⟩, hpb⟩⟩
      given := fun r hr => .inr ((hb r).mpr (.inl (List.mem_singleton.mp hr)))
      freed := fun r hr => by
        by_cases hrp : r = p
        · exact .inr (.inl (by simp [hrp]))
        · exact .inl ((hb r).mpr (.inr ⟨hr, hrp⟩))
      stays := fun _ => .inl ⟨hd, rfl⟩
      both := fun _ _ _ _ _ => ⟨htwo.1, fun r hr => hcarry hr⟩ }
  exact ((h.pend hfree hwait).reseat hfits).dim

/-- A bound port goes dark without a surplus port for its place; the slot runs on its other port, or is SILENT (R31, R38). -/
theorem Lawful.loseIn (h : T.Lawful []) (hp : p ∈ (T.seat d).bound) (hcarries : T.carries p ≠ none)
    (hnone : ∀ q, T.Free q → (T.seat d).ident ≠ T.carries q) {st : SlotState} {run : Option LinkPort} (hst : st ≠ .vacant)
    (hactive : st = .active → ∃ r, run = some r ∧ r ∈ (T.seat d).bound ∧ r ≠ p ∧ T.carries r ≠ none) (honly : st ≠ .active → run = none)
    (hsilent : st = .silent → ∀ r, r ∈ (T.seat d).bound → r ≠ p → T.carries r = none) :
    ((T.dim p).setSeat d { state := st, ident := (T.seat d).ident, bound := (T.seat d).bound, active := run }).Lawful [] := by
  have hd := h.inUse hp
  have hmem {q : LinkPort} : q ∈ (T.seat d).bound.filter (· ≠ p) ↔ q ∈ (T.seat d).bound ∧ q ≠ p := by simp
  have hdark : (T.setSeat d { state := st, ident := (T.seat d).ident, bound := (T.seat d).bound.filter (· ≠ p), active := run }).Lawful [p] :=
    h.reseat
      { path := fun hstate => by
          obtain ⟨r, hr, hrb, hrp, hrc⟩ := hactive hstate
          exact ⟨r, hr, hmem.mpr ⟨hrb, hrp⟩, hrc⟩
        onlyActive := honly
        silent := fun hstate r hr => hsilent hstate r (hmem.mp hr).1 (hmem.mp hr).2
        vacant := fun hstate => absurd hstate hst
        twoPorts := ⟨(List.length_filter_le ..).trans (h.twoPorts d).1, (h.twoPorts d).2.filter _⟩
        taken := fun q hq => .inl (hmem.mp hq).1
        identity := fun q hq => h.identity d q (hmem.mp hq).1
        own := fun _ => h.own hd
        pending := ⟨List.nodup_singleton p, fun q hq => by
          rw [List.mem_singleton.mp hq]
          exact ⟨.inr ⟨hp, hcarries⟩, fun hmem' => (hmem.mp hmem').2 rfl⟩⟩
        given := nofun
        freed := fun q hq => by
          by_cases hqp : q = p
          · exact .inr (.inl (by simp [hqp]))
          · exact .inl (hmem.mpr ⟨hq, hqp⟩)
        stays := fun _ => .inl ⟨hst, rfl⟩
        both := fun q hfree _ _ hq => absurd hq (hnone q hfree) }
  generalize hU : T.setSeat d { state := st, ident := (T.seat d).ident, bound := (T.seat d).bound.filter (· ≠ p), active := run } = U at hdark
  have hseat : (U.dim p).seat d = { state := st, ident := (T.seat d).ident, bound := (T.seat d).bound.filter (· ≠ p), active := run } := by
    rw [← hU]
    exact setSeat_same ..
  have hsame : (U.dim p).carries = (T.dim p).carries := by rw [← hU]; rfl
  have hoff : (T.dim p).carries p = none := Function.update_self ..
  have hon {q : LinkPort} (hq : q ≠ p) : (T.dim p).carries q = T.carries q := Function.update_of_ne hq ..
  have hclear : ∀ e, p ∉ ((U.dim p).seat e).bound := (hdark.pending.2 p (by simp)).1.2
  have hfinal : ((U.dim p).setSeat d { state := st, ident := (T.seat d).ident, bound := (T.seat d).bound, active := run }).Lawful [] :=
    hdark.dim.reseat
      { path := fun hstate => by
          obtain ⟨r, hr, hrb, hrp, hrc⟩ := hactive hstate
          exact ⟨r, hr, hrb, by rw [hsame, hon hrp]; exact hrc⟩
        onlyActive := honly
        silent := fun hstate r hr => by
          rw [hsame]
          by_cases hrp : r = p
          · rw [hrp]; exact hoff
          · rw [hon hrp]; exact hsilent hstate r hr hrp
        vacant := fun hstate => absurd hstate hst
        twoPorts := h.twoPorts d
        taken := fun q hq => by
          by_cases hqp : q = p
          · exact .inr (.inr ⟨by rw [hsame, hqp]; exact hoff, fun e => hqp ▸ hclear e⟩)
          · exact .inl (by rw [hseat]; exact hmem.mpr ⟨hq, hqp⟩)
        identity := fun q hq hc => by
          rw [hsame] at hc ⊢
          by_cases hqp : q = p
          · rw [hqp] at hc; exact absurd hoff hc
          · rw [hon hqp] at hc ⊢; exact h.identity d q hq hc
        own := fun _ => by
          have := hdark.dim.own (d := d) (by rw [hseat]; exact hst)
          rwa [hseat] at this
        pending := ⟨List.nodup_nil, nofun⟩
        given := nofun
        freed := fun q hq => by
          rw [hseat] at hq
          exact .inl (hmem.mp hq).1
        stays := fun _ => .inl ⟨hst, by rw [hseat]⟩
        both := fun q hfree _ _ hq => by
          have hqp : q ≠ p := by
            rintro rfl
            exact hfree.1 (by rw [hsame]; exact hoff)
          rw [hsame, hon hqp] at hq
          refine absurd hq (hnone q ⟨?_, fun e he => ?_⟩)
          · have := hfree.1
            rwa [hsame, hon hqp] at this
          · by_cases hed : e = d
            · subst hed
              exact hfree.2 e (by rw [hseat]; exact hmem.mpr ⟨he, hqp⟩)
            · refine hfree.2 e ?_
              rw [← hU]
              show q ∈ ((T.setSeat d _).seat e).bound
              rw [setSeat_ne hed]
              exact he }
  rw [← hU] at hfinal
  have hcomm : ∀ x y : Seat, ((T.setSeat d x).dim p).setSeat d y = (T.dim p).setSeat d y := fun x y => setSeat_setSeat d x y (T.dim p)
  rwa [hcomm] at hfinal

end
end Table
end Sys2Proof.Machine

/-!
The table under the attachment unit's operations (R25 to R31, R38, R40, R41), and its law under each event of a port or a slot.
-/
namespace Sys2Proof.Machine

section
variable {s t : State} {d : Desk} {p q : LinkPort} {X : List LinkPort}

/-! ### The table under an operation -/

theorem State.table_congr (hports : t.ports = s.ports) (hslots : t.slots = s.slots) (hwait : t.waitList = s.waitList) : t.table = s.table := by
  unfold State.table State.port State.slot
  rw [hports, hslots, hwait]

theorem State.table_modSlot (f : Slot → Slot) : (s.modSlot d f).table = s.table.setSeat d (f (s.slot d)).tableSeat := by
  have hseat : (fun e => ((s.modSlot d f).slot e).tableSeat) = Function.update s.table.seat d (f (s.slot d)).tableSeat := by
    funext e
    rw [State.slot_modSlot, Function.update_apply]
    split <;> rfl
  show ({ carries := _, seat := fun e => ((s.modSlot d f).slot e).tableSeat, waits := _ } : Table) = _
  rw [hseat]
  rfl

theorem Port.carries_of_core {r x : Port} (h : x.core = r.core) : x.carries = r.carries := by
  unfold Port.carries
  rw [Port.core_usable h, Port.core_identSeen h]

theorem State.SameCores.carries (h : s.SameCores t) : t.table.carries = s.table.carries := funext fun q => Port.carries_of_core (h q)

/-- A switchover changes the slot's active path (R31). -/
theorem State.table_switchover :
    (s.switchover d q).table = s.table.setSeat d { (s.slot d).tableSeat with active := some q } := by
  have hseat : (fun e => ((s.switchover d q).slot e).tableSeat) =
      Function.update s.table.seat d { (s.slot d).tableSeat with active := some q } := by
    funext e
    rw [Function.update_apply]
    split
    next he =>
      subst he
      rw [State.slot_switchover_same]
      split <;> rfl
    next he => rw [State.slot_switchover_ne d q s he]; rfl
  have hcarries : (s.switchover d q).table.carries = s.table.carries := (State.SameCores.refl s |>.switchover d q).carries
  have hwait : (s.switchover d q).waitList = s.waitList := by simp
  show ({ carries := (s.switchover d q).table.carries, seat := fun e => ((s.switchover d q).slot e).tableSeat, waits := _ } : Table) = _
  rw [hseat, hcarries, hwait]
  rfl

/-- A slot that becomes SILENT has no active path (R38). -/
theorem State.table_becomeSilent :
    (s.becomeSilent d).table = s.table.setSeat d { (s.slot d).tableSeat with state := .silent, active := none } := by
  have hsame : (s.becomeSilent d).table = (s.fallSilent d).table := by
    rw [State.becomeSilent_eq]
    obtain ⟨bs, ls, hbatch⟩ := State.discardBatch_only d (s.fallSilent d)
    obtain ⟨outs, hout⟩ := State.returnsLost_only d ((s.fallSilent d).discardBatch (.desk d))
    rw [hout, hbatch]
    rfl
  have hslot : (Slot.silenced s.graceTime (s.slot d)).tableSeat = { (s.slot d).tableSeat with state := .silent, active := none } := by
    unfold Slot.silenced
    split <;> rfl
  rw [hsame, ← hslot]
  exact (State.table_modSlot (s := s) (d := d) (Slot.silenced s.graceTime) :)

/-- A revived slot runs on the port that locked (R40). -/
theorem State.table_revive :
    (s.revive d p).table = s.table.setSeat d { (s.slot d).tableSeat with state := .active, active := some p } := by
  have hsame : (s.revive d p).table = (s.modSlot d (Slot.revived p)).table := by
    unfold State.revive
    obtain ⟨outs, hout⟩ := State.returnsRegained_only d (s.modSlot d (Slot.revived p))
    rw [hout]
    exact State.table_congr (by simp) (by simp) (by simp)
  rw [hsame]
  exact State.table_modSlot ..

/-! ### Moves -/

theorem State.Moves.table (h : s.Moves t) :
    t.table.carries = s.table.carries ∧ t.table.waits = s.table.waits ∧
      ∀ e, (t.table.seat e).state = (s.table.seat e).state ∧ (t.table.seat e).ident = (s.table.seat e).ident ∧
        (t.table.seat e).bound = (s.table.seat e).bound :=
  ⟨State.SameCores.carries h.ports, h.waitList, fun e => ⟨Slot.seat_state (h.seats e), Slot.seat_ident (h.seats e), Slot.seat_bound (h.seats e)⟩⟩

theorem State.Carried.sameCores (h : s.Carried) (hcores : s.SameCores t) : t.Carried := fun q hq => by
  rw [Port.core_usable (hcores q)] at hq
  have hident : (t.port q).identSeen = (s.port q).identSeen := Port.core_identSeen (hcores q)
  have hrole : (t.port q).roleSeen = (s.port q).roleSeen := Port.core_roleSeen (hcores q)
  rw [hident, hrole]
  exact h q hq

/-- A move keeps the law: the slot's new path is bound and LOCKED (R31, R37). -/
theorem Table.Lawful.moves (h : s.table.Lawful X) (hcarried : s.Carried) (hmove : s.Moves t) : t.table.Lawful X := by
  obtain ⟨hcarries, hwaits, hseats⟩ := hmove.table
  have hfree : ∀ p, t.table.Free p ↔ s.table.Free p := fun p => by
    unfold Table.Free
    simp only [hcarries, fun e => (hseats e).2.2]
  have hlocked : ∀ {p}, (s.port p).state = .locked → s.table.carries p ≠ none := fun {p} hp =>
    (hcarried.usable_iff p).mp (decide_eq_true (.inl hp))
  have hactive := hmove.active
  exact {
    activePath := fun e he => by
      rw [(hseats e).1] at he
      simp only [hcarries, (hseats e).2.2]
      rcases hactive e with hsame | ⟨r, hr, hlock, hact⟩
      · obtain ⟨r, hr, hb⟩ := h.activePath e he
        exact ⟨r, hsame.trans hr, hb⟩
      · exact ⟨r, hact, hr, hlocked hlock⟩
    onlyActive := fun e he => by
      rw [(hseats e).1] at he
      rcases hactive e with hsame | ⟨r, hr, hlock, hact⟩
      · exact hsame.trans (h.onlyActive e he)
      · exfalso
        cases hs : (s.slot e).state with
        | active => exact he hs
        | silent => exact hlocked hlock (h.silent e hs r hr)
        | vacant =>
          have hnil : (s.slot e).bound = [] := h.vacant e hs
          rw [hnil] at hr
          cases hr
    silent := fun e he r hr => by
      rw [(hseats e).1] at he
      rw [(hseats e).2.2] at hr
      rw [hcarries]
      exact h.silent e he r hr
    vacant := fun e he => by
      rw [(hseats e).1] at he
      rw [(hseats e).2.2]
      exact h.vacant e he
    twoPorts := fun e => by rw [(hseats e).2.2]; exact h.twoPorts e
    oneSlot := fun e f r => by rw [(hseats e).2.2, (hseats f).2.2]; exact h.oneSlot e f r
    oneIdentity := fun e f => by
      rw [(hseats e).1, (hseats f).1, (hseats e).2.1, (hseats f).2.1]
      exact h.oneIdentity e f
    identity := fun e r => by rw [(hseats e).2.2, (hseats e).2.1, hcarries]; exact h.identity e r
    waiting := by simpa only [hwaits, hfree] using h.waiting
    pending := by simpa only [hwaits, hfree] using h.pending
    strangers := fun r e => by rw [hwaits, (hseats e).1, (hseats e).2.1, hcarries]; exact h.strangers r e
    surplus := fun r hr hw hX => by
      rw [hfree] at hr
      rw [hwaits] at hw
      obtain ⟨e, he, hident⟩ := h.surplus r hr hw hX
      exact ⟨e, by rw [(hseats e).1]; exact he, by rw [(hseats e).2.1, hcarries]; exact hident⟩
    both := fun r e hr hX => by
      rw [hfree] at hr
      rw [(hseats e).1, (hseats e).2.1, (hseats e).2.2, hcarries]
      exact h.both r e hr hX }

theorem Table.NoVacancy.moves (h : s.table.NoVacancy) (hmove : s.Moves t) : t.table.NoVacancy := fun e he => by
  obtain ⟨-, hwaits, hseats⟩ := hmove.table
  rw [(hseats e).1] at he
  rw [hwaits]
  exact h e he

/-! ### Binding -/

/-- A port is bound to a slot that has a place for it, and the slot revived or tested; or the slot has two ports that carry frames
(R25). -/
theorem State.bindStep1_cases (d : Desk) (p : LinkPort) (s : State) :
    (s.bindStep1 d p = s ∧ 2 ≤ (s.slot d).bound.length ∧ ∀ q, q ∈ (s.slot d).bound → (s.port q).usable = true) ∨
      ∃ f : Slot → Slot,
        s.bindStep1 d p = (if (s.slot d).state = .silent then (s.modSlot d f).revive d p else (s.modSlot d f).recheck d) ∧
        ((∀ r, f r = { r with bound := r.bound ++ [p] }) ∧ (s.slot d).bound.length < 2 ∨
          ∃ q, f = Slot.replaceBound q p ∧ q ∈ (s.slot d).bound ∧ (s.port q).usable = false) := by
  unfold State.bindStep1
  dsimp only
  split
  next hless => exact .inr ⟨_, rfl, .inl ⟨fun _ => rfl, hless⟩⟩
  next hfull =>
    cases hunbind : s.toUnbind (s.slot d) with
    | some q => exact .inr ⟨_, rfl, .inr ⟨q, rfl, State.mem_of_toUnbind hunbind⟩⟩
    | none =>
      refine .inl ⟨rfl, by omega, fun q hq => ?_⟩
      have hnil : (s.slot d).bound.filter (fun q => !(s.port q).usable) = [] := by
        unfold State.toUnbind at hunbind
        split at hunbind
        next hl => exact hl
        · cases hunbind
      simpa using List.filter_eq_nil_iff.mp hnil q hq

theorem mem_replace {l : List LinkPort} (p q r : LinkPort) :
    r ∈ l.map (fun x => if x = p then q else x) ↔ (r = q ∧ p ∈ l) ∨ (r ∈ l ∧ r ≠ p) := by
  simp only [List.mem_map]
  constructor
  · rintro ⟨x, hx, rfl⟩
    split
    next hxp => exact .inl ⟨rfl, hxp ▸ hx⟩
    next hxp => exact .inr ⟨hx, hxp⟩
  · rintro (⟨rfl, hp⟩ | ⟨hr, hrp⟩)
    · exact ⟨p, hp, if_pos rfl⟩
    · exact ⟨r, hr, if_neg hrp⟩

theorem nodup_replace {l : List LinkPort} {p q : LinkPort} (hl : l.Nodup) (hq : q ∉ l) : (l.map fun x => if x = p then q else x).Nodup := by
  refine (List.nodup_map_iff_inj_on hl).mpr fun x hx y hy hxy => ?_
  by_cases hxp : x = p <;> by_cases hyp : y = p
  · rw [hxp, hyp]
  · rw [if_pos hxp, if_neg hyp] at hxy
    exact absurd hy (hxy ▸ hq)
  · rw [if_neg hxp, if_pos hyp] at hxy
    exact absurd hx (hxy ▸ hq)
  · rwa [if_neg hxp, if_neg hyp] at hxy

/-- What a binding leaves of the table besides the slot concerned. -/
structure State.Binds (d : Desk) (s t : State) : Prop where
  cores : s.SameCores t
  waitList : t.waitList = s.waitList
  others : ∀ e, e ≠ d → (t.slot e).state = (s.slot e).state
  state : (t.slot d).state ≠ .vacant
  ident : (t.slot d).ident = (s.slot d).ident

theorem State.Binds.refl (h : (s.slot d).state ≠ .vacant) : s.Binds d s := ⟨.refl s, rfl, fun _ _ => rfl, h, rfl⟩

theorem State.Binds.trans {u : State} (h : s.Binds d t) (h' : t.Binds d u) : s.Binds d u :=
  ⟨h.cores.trans h'.cores, h'.waitList.trans h.waitList, fun e he => (h'.others e he).trans (h.others e he), h'.state,
    h'.ident.trans h.ident⟩

/-- No slot becomes VACANT, so the wait list may be what it was. -/
theorem State.Binds.noVacancy (h : s.Binds d t) (hvacancy : ∀ e, e ≠ d → (s.slot e).state = .vacant → s.waitList = []) :
    t.table.NoVacancy := fun e he => by
  by_cases hed : e = d
  · subst hed
    exact absurd he h.state
  · rw [State.table_seat, Slot.tableSeat_state, h.others e hed] at he
    exact h.waitList.trans (hvacancy e hed he)

/-- A pending port of a slot's console is bound to it (R25). -/
theorem State.bindStep1_lawful (h : s.table.Lawful X) (hcarried : s.Carried) (hp : p ∈ X) (hd : (s.slot d).state ≠ .vacant)
    (hident : (s.slot d).ident = (s.port p).carries) : (s.bindStep1 d p).table.Lawful (X.erase p) ∧ s.Binds d (s.bindStep1 d p) := by
  have hcores : s.SameCores (s.bindStep1 d p) := (State.SameCores.refl s).bindStep1 d p
  rcases s.bindStep1_cases d p with ⟨hsame, htwo, hall⟩ | ⟨f, hstep, hf⟩
  · rw [hsame]
    have hlen : (s.slot d).bound.length ≤ 2 := (h.twoPorts d).1
    exact ⟨h.settle hp (d := d) hd hident ⟨le_antisymm hlen htwo, fun q hq => (hcarried.usable_iff q).mp (hall q hq)⟩, .refl hd⟩
  · have hpfree : p ∉ (s.slot d).bound := (h.pending.2 p hp).1.2 d
    have hpc : s.table.carries p ≠ none := (h.pending.2 p hp).1.1
    have hseat : (f (s.slot d)).tableSeat = { (s.slot d).tableSeat with bound := (f (s.slot d)).bound } ∧
        (f (s.slot d)).seat = ((s.slot d).state, (s.slot d).ident, (s.slot d).role, (f (s.slot d)).bound) := by
      rcases hf with ⟨hf, -⟩ | ⟨q, rfl, -⟩
      · rw [hf]; exact ⟨rfl, rfl⟩
      · exact ⟨rfl, rfl⟩
    have hroom : (s.slot d).bound.length < 2 ∨ ∃ q, q ∈ (s.slot d).bound ∧ s.table.carries q = none := by
      rcases hf with ⟨-, hless⟩ | ⟨q, -, hq, hdark⟩
      · exact .inl hless
      · exact .inr ⟨q, hq, Port.carries_of_not_usable hdark⟩
    have hlist : p ∈ (f (s.slot d)).bound ∧ (∀ q, q ∈ (f (s.slot d)).bound → q ∈ (s.slot d).bound ∨ q = p) ∧
        (∀ q, q ∈ (s.slot d).bound → q ∈ (f (s.slot d)).bound ∨ s.table.carries q = none) ∧
        (f (s.slot d)).bound.length ≤ 2 ∧ (f (s.slot d)).bound.Nodup := by
      have hnodup : (s.slot d).bound.Nodup := (h.twoPorts d).2
      rcases hf with ⟨hf, hless⟩ | ⟨r, rfl, hr, hdark⟩
      · rw [hf]
        refine ⟨by simp, fun q hq => by simpa using hq, fun q hq => .inl (by simp [hq]), by simp; omega, ?_⟩
        exact List.Nodup.append hnodup (List.nodup_singleton p) (by simpa using hpfree)
      · have hb : (Slot.replaceBound r p (s.slot d)).bound = (s.slot d).bound.map fun x => if x = r then p else x := rfl
        simp only [hb, mem_replace, List.length_map]
        refine ⟨.inl ⟨trivial, hr⟩, fun q hq => ?_, fun q hq => ?_, (h.twoPorts d).1, nodup_replace hnodup hpfree⟩
        · rcases hq with ⟨rfl, -⟩ | ⟨hq, -⟩
          · exact .inr rfl
          · exact .inl hq
        · by_cases hqr : q = r
          · exact .inr (hqr ▸ Port.carries_of_not_usable hdark)
          · exact .inl (.inr ⟨hq, hqr⟩)
    obtain ⟨hpb, hb, hkeep, htwo⟩ := hlist
    have hother (e : Desk) (he : e ≠ d) : (s.modSlot d f).slot e = s.slot e := (State.slot_modSlot ..).trans (if_neg he)
    have hown : (s.modSlot d f).slot d = f (s.slot d) := State.slot_modSlot_same ..
    rw [hstep] at hcores ⊢
    by_cases hsilent : (s.slot d).state = .silent
    · rw [if_pos hsilent] at hcores ⊢
      have htable : ((s.modSlot d f).revive d p).table =
          s.table.setSeat d { state := .active, ident := (s.slot d).ident, bound := (f (s.slot d)).bound, active := some p } := by
        rw [State.table_revive, State.table_modSlot, Table.setSeat_setSeat, hown, hseat.1]
        rfl
      have hseats (e : Desk) := congrArg (fun T => Table.seat T e) htable
      have hown := (hseats d).trans (Table.setSeat_same ..)
      have hstate : (((s.modSlot d f).revive d p).slot d).state = .active := congrArg Seat.state hown
      refine ⟨?_, hcores, by simp, fun e he => ?_, by rw [hstate]; nofun, congrArg Seat.ident hown⟩
      · rw [htable]
        exact h.bind (d := d) hp hd hident hroom hpb hb hkeep htwo hpb hpc
      · exact congrArg Seat.state ((hseats e).trans (Table.setSeat_ne he ..))
    · rw [if_neg hsilent] at hcores ⊢
      have hactive : (s.slot d).state = .active := by
        cases hs : (s.slot d).state with
        | active => rfl
        | silent => exact absurd hs hsilent
        | vacant => exact absurd hs hd
      obtain ⟨run, hrun, hrunb, hrunc⟩ := h.activePath d hactive
      have hrunb' : run ∈ (f (s.slot d)).bound := (hkeep run hrunb).resolve_right hrunc
      have htable : (s.modSlot d f).table =
          s.table.setSeat d { state := .active, ident := (s.slot d).ident, bound := (f (s.slot d)).bound, active := some run } := by
        rw [State.table_modSlot, hseat.1]
        congr 1
        unfold Slot.tableSeat
        rw [hactive, show (s.slot d).active = some run from hrun]
      have hmoves := State.Moves.recheck d (s.modSlot d f)
      have hbound : (s.modSlot d f).table.Lawful (X.erase p) := by
        rw [htable]
        exact h.bind (d := d) hp hd hident hroom hpb hb hkeep htwo hrunb' hrunc
      have hstate : (f (s.slot d)).state = (s.slot d).state := congrArg Prod.fst hseat.2
      have hidentf : (f (s.slot d)).ident = (s.slot d).ident := congrArg (fun y => y.2.1) hseat.2
      refine ⟨hbound.moves hcarried hmoves, hcores, hmoves.waitList, fun e he => ?_, ?_, ?_⟩
      · rw [Slot.seat_state (hmoves.seats e), hother e he]
      · rw [Slot.seat_state (hmoves.seats d), hown, hstate]
        exact hd
      · rw [Slot.seat_ident (hmoves.seats d), hown, hidentf]

end
end Sys2Proof.Machine

/-!
The attachment law through a lock event, a loss event and a grace expiry (R24 to R28, R31, R38, R40, R41).
-/
namespace Sys2Proof.Machine

section
variable {s t : State} {d : Desk} {p q : LinkPort} {x : DeskId}

/-! ### Looking up the table -/

theorem State.free_of_boundTo (h : s.boundTo p = none) (d : Desk) : p ∉ (s.slot d).bound := fun hp =>
  List.find?_eq_none.mp h d (by cases d <;> decide) (decide_eq_true hp)

theorem State.deskOf_eq_some (h : s.deskOf x = some d) : (s.slot d).state ≠ .vacant ∧ (s.slot d).ident = some x := by
  simpa using List.find?_some h

theorem State.deskOf_eq_none (h : s.deskOf x = none) (d : Desk) (hd : (s.slot d).state ≠ .vacant) : (s.slot d).ident ≠ some x :=
  fun hident => List.find?_eq_none.mp h d (by cases d <;> decide) (decide_eq_true ⟨hd, hident⟩)

theorem State.firstVacant_eq_some (h : s.firstVacant = some d) : (s.slot d).state = .vacant := by
  simpa using List.find?_some h

theorem State.firstVacant_eq_none (h : s.firstVacant = none) (d : Desk) : (s.slot d).state ≠ .vacant := fun hd =>
  List.find?_eq_none.mp h d (by cases d <;> decide) (decide_eq_true hd)

theorem State.surplusPort_eq_some {i : Option DeskId} (h : s.surplusPort i = some q) :
    (∀ d, q ∉ (s.slot d).bound) ∧ (s.port q).usable = true ∧ (s.port q).identSeen = i := by
  unfold State.surplusPort at h
  have hfound := List.find?_some h
  obtain ⟨hfree, husable, hident⟩ := of_decide_eq_true hfound
  exact ⟨State.free_of_boundTo (Option.isNone_iff_eq_none.mp hfree), husable, hident⟩

theorem State.no_surplusPort {i : Option DeskId} (h : s.surplusPort i = none) (hfree : ∀ d, q ∉ (s.slot d).bound)
    (husable : (s.port q).usable = true) : (s.port q).identSeen ≠ i := fun hident =>
  List.find?_eq_none.mp h q (by cases q <;> decide)
    (decide_eq_true ⟨by rw [State.boundTo_eq_none hfree]; rfl, husable, hident⟩)

/-! ### Vacancies -/

theorem Table.NoVacancy.setSeat {T : Table} (h : T.NoVacancy) {y : Seat} (hy : y.state ≠ .vacant) : (T.setSeat d y).NoVacancy := fun e he => by
  by_cases hed : e = d
  · subst hed
    rw [Table.setSeat_same] at he
    exact absurd he hy
  · rw [Table.setSeat_ne hed] at he
    exact h e he

theorem Table.NoVacancy.light {T : Table} (h : T.NoVacancy) (p : LinkPort) (x : DeskId) : (T.light p x).NoVacancy := h

theorem Table.NoVacancy.dim {T : Table} (h : T.NoVacancy) (p : LinkPort) : (T.dim p).NoVacancy := fun e he => by
  show T.waits.filter _ = []
  rw [h e he]
  rfl

theorem Table.setSeat_eq_self {T : Table} {y : Seat} (h : y = T.seat d) : T.setSeat d y = T := by
  subst h
  show ({ T with seat := Function.update T.seat d (T.seat d) } : Table) = T
  rw [Function.update_eq_self]

/-! ### A bound port that lights up -/

theorem Table.light_same (T : Table) (p : LinkPort) (x : DeskId) : (T.light p x).carries p = some x := Function.update_self ..

theorem Table.light_ne (T : Table) (x : DeskId) (hq : q ≠ p) : (T.light p x).carries q = T.carries q := Function.update_of_ne hq ..

/-- A seat without a port. -/
def Seat.without (p : LinkPort) (y : Seat) : Seat := { y with bound := y.bound.filter (· ≠ p) }

theorem Seat.mem_without {y : Seat} : q ∈ (y.without p).bound ↔ q ∈ y.bound ∧ q ≠ p := by simp [Seat.without]

/-- A port that its slot gives up as it lights up is pending (R24). -/
theorem Table.Lawful.releaseLight {T : Table} (h : T.Lawful []) (hp : p ∈ (T.seat d).bound) (hdark : T.carries p = none) (x : DeskId) :
    ((T.setSeat d ((T.seat d).without p)).light p x).Lawful [p] :=
  Table.Lawful.light (h.release hp hdark) hdark (fun e => by
    by_cases he : e = d
    · subst he; rw [Table.setSeat_same]; exact fun hmem => (Seat.mem_without.mp hmem).2 rfl
    · rw [Table.setSeat_ne he]; exact fun hmem => he (h.oneSlot e d p hmem hp)) x

/-- A port that its slot keeps as it lights up: the slot runs on a port that carries frames from then on (R40). -/
theorem Table.Lawful.relight {T : Table} (h : T.Lawful []) (hp : p ∈ (T.seat d).bound) (hdark : T.carries p = none)
    (hident : (T.seat d).ident = some x) {run : LinkPort} (hrunb : run ∈ (T.seat d).bound) (hrun : (T.light p x).carries run ≠ none) :
    ((T.light p x).setSeat d { state := .active, ident := (T.seat d).ident, bound := (T.seat d).bound, active := some run }).Lawful [] := by
  have hseat : ((T.setSeat d ((T.seat d).without p)).light p x).seat d = (T.seat d).without p := Table.setSeat_same ..
  have hlen : ((T.seat d).without p).bound.length < 2 :=
    (List.length_filter_lt_length_iff_exists.mpr ⟨p, hp, by simp⟩ : ((T.seat d).bound.filter (· ≠ p)).length < _).trans_le (h.twoPorts d).1
  have hbind := (h.releaseLight hp hdark x).bind (d := d) (b := (T.seat d).bound) (run := run) (by simp)
    (by rw [hseat]; exact h.inUse hp) (by rw [hseat]; exact hident.trans (Table.light_same ..).symm)
    (.inl (by rw [hseat]; exact hlen)) hp
    (fun q hq => by
      rw [hseat]
      by_cases hqp : q = p
      · exact .inr hqp
      · exact .inl (Seat.mem_without.mpr ⟨hq, hqp⟩))
    (fun q hq => by
      rw [hseat] at hq
      exact .inl (Seat.mem_without.mp hq).1)
    (h.twoPorts d) hrunb hrun
  rw [List.erase_cons_head, hseat] at hbind
  have hsame : ∀ y z : Seat, ((T.setSeat d y).light p x).setSeat d z = (T.light p x).setSeat d z := fun y z =>
    Table.setSeat_setSeat d y z (T.light p x)
  rwa [hsame] at hbind

/-! ### Admission -/

/-- Pending ports of a slot's console are bound to it one after another (R26). -/
theorem State.foldBind_lawful : ∀ (l : List LinkPort) {s : State}, s.table.Lawful l → s.Carried → (s.slot d).state ≠ .vacant →
    (∀ q, q ∈ l → (s.slot d).ident = (s.port q).carries) →
    (State.foldOver (State.bindStep1 d) l s).table.Lawful [] ∧ s.Binds d (State.foldOver (State.bindStep1 d) l s)
  | [], _, h, _, hd, _ => ⟨h, .refl hd⟩
  | q :: l, s, h, hcarried, hd, hident => by
    obtain ⟨hlaw, hbinds⟩ := State.bindStep1_lawful h hcarried (by simp) hd (hident q (by simp))
    rw [List.erase_cons_head] at hlaw
    obtain ⟨hrest, hbinds'⟩ := State.foldBind_lawful l hlaw (hcarried.sameCores hbinds.cores) hbinds.state fun r hr => by
      rw [hbinds.ident, hident r (List.mem_cons_of_mem _ hr)]
      exact (Port.carries_of_core (hbinds.cores r)).symm
    exact ⟨hrest, hbinds.trans hbinds'⟩

/-- A waiting port stays on the list when the slot admits another: it is another port of another console (R26). -/
def State.waitsOn (p : LinkPort) (x : DeskId) (s : State) (q : LinkPort) : Bool := decide (q ≠ p ∧ (s.port q).identSeen ≠ some x)

/-- A VACANT slot admits a pending port of a console that has no slot, and the console's waiting ports with it (R26). -/
theorem State.enroll_lawful (hcarried : s.Carried)
    (hcall : Table.Lawful (p :: s.sameIdentity p x) { s.table with waits := s.waitList.filter (s.waitsOn p x) })
    (hd : (s.slot d).state = .vacant) (hp : (s.port p).carries = some x)
    (hnew : ∀ e, (s.slot e).state ≠ .vacant → (s.slot e).ident ≠ some x)
    (hvacancy : ∀ e, e ≠ d → (s.slot e).state = .vacant → s.waitList = []) (asked : Role) : (s.enroll d p x asked).AttachLawful := by
  have hpc : s.table.carries p = some x := hp
  have hadmit := hcall.admitted (d := d) (p := p) (by simp) hd (fun e he => by rw [show Table.carries _ p = some x from hp]; exact hnew e he)
    fun q hq => by
      obtain ⟨hmem, hon⟩ := List.mem_filter.mp hq
      have hne := (of_decide_eq_true hon).2
      have husable := (hcarried.usable_iff q).mpr (hcall.waiting.2 q hq).1
      rw [show Table.carries _ p = some x from hp, show Table.carries _ q = (s.port q).identSeen from Port.carries_of_usable husable]
      exact hne.symm
  rw [List.erase_cons_head] at hadmit
  obtain ⟨ls, m, os, outs, hwelcome⟩ := (s.seated d p x asked).welcomed_only d
  have htable : ((s.seated d p x asked).welcomed d).table =
      Table.setSeat d { state := .active, ident := some x, bound := [p], active := some p }
        { s.table with waits := s.waitList.filter (s.waitsOn p x) } := by
    rw [hwelcome]
    have hseated := State.table_modSlot (s := s) (d := d) fun _ => Slot.admitted p x (s.roleGiven d asked)
    exact congrArg (fun T => { T with waits := s.waitList.filter (s.waitsOn p x) }) hseated
  have hslots (e : Desk) := congrArg (fun T => Table.seat T e) htable
  have hown := (hslots d).trans (Table.setSeat_same ..)
  have hstate : (((s.seated d p x asked).welcomed d).slot d).state = .active := congrArg Seat.state hown
  have hident : (((s.seated d p x asked).welcomed d).slot d).ident = some x := congrArg Seat.ident hown
  have hcarried' : ((s.seated d p x asked).welcomed d).Carried := by rw [hwelcome]; exact hcarried
  have hports (q : LinkPort) : ((s.seated d p x asked).welcomed d).port q = s.port q := by rw [hwelcome]; rfl
  obtain ⟨hlaw, hbinds⟩ := State.foldBind_lawful (d := d) (s.sameIdentity p x) (s := (s.seated d p x asked).welcomed d)
    (by rw [htable]; rw [show Table.carries _ p = some x from hp] at hadmit; exact hadmit) hcarried'
    (by rw [hstate]; nofun)
    (fun q hq => by
      have hseen := (of_decide_eq_true (List.mem_filter.mp hq).2).2
      have husable := (hcarried.usable_iff q).mpr (hcall.pending.2 q (List.mem_cons_of_mem _ hq)).1.1
      rw [hident, hports, Port.carries_of_usable husable, hseen])
  have hvacant := hbinds.noVacancy fun e he hstate => by
    have hstate' : (s.slot e).state = .vacant :=
      (congrArg Seat.state ((hslots e).trans (Table.setSeat_ne he ..))).symm.trans hstate
    have hlist := hvacancy e he hstate'
    refine (congrArg Table.waits htable).trans ?_
    show s.waitList.filter _ = []
    rw [hlist]
    rfl
  rw [State.enroll_eq]
  generalize State.foldOver (State.bindStep1 d) (s.sameIdentity p x) ((s.seated d p x asked).welcomed d) = u at hlaw hbinds hvacant ⊢
  have hdigest : (u.buildDigest (.desk d)).table = u.table := State.table_congr (by simp) (by simp) (by simp)
  have hcores : u.SameCores (u.buildDigest (.desk d)) := .of_ports (by simp)
  refine State.attachLawful_iff.mpr ⟨(hcarried'.sameCores hbinds.cores).sameCores hcores, ?_, ?_⟩
  · rw [hdigest]; exact hlaw
  · rw [hdigest]; exact hvacant

/-! ### Lock events -/

/-- An unbound port that has locked is bound, admitted, or waits (R25 to R27). -/
theorem State.lockUnbound_lawful (h : s.table.Lawful [p]) (hcarried : s.Carried) (hvacancy : s.table.NoVacancy)
    (hp : (s.port p).carries = some x) (asked : Role) : (s.lockUnbound p x asked).AttachLawful := by
  obtain ⟨hfree, hwait⟩ := h.pending.2 p (by simp)
  unfold State.lockUnbound
  split
  next d hdesk =>
    obtain ⟨hd, hident⟩ := State.deskOf_eq_some hdesk
    obtain ⟨hlaw, hbinds⟩ := State.bindStep1_lawful h hcarried (by simp) hd (hident.trans hp.symm)
    rw [List.erase_cons_head] at hlaw
    exact State.attachLawful_iff.mpr ⟨hcarried.sameCores hbinds.cores, hlaw, hbinds.noVacancy fun e _ => hvacancy e⟩
  next hdesk =>
    have hnew := State.deskOf_eq_none hdesk
    split
    next d hfirst =>
      have hd := State.firstVacant_eq_some hfirst
      have hnil : s.waitList = [] := hvacancy d hd
      have hsame : s.sameIdentity p x = [] := by unfold State.sameIdentity; rw [hnil]; rfl
      have hlist : s.waitList.filter (s.waitsOn p x) = s.waitList := by rw [hnil]; rfl
      refine State.enroll_lawful hcarried ?_ hd hp hnew (fun e _ => hvacancy e) asked
      rw [hsame, hlist]
      exact h
    next hfirst =>
      have hwait : p ∉ s.waitList := hwait
      rw [if_neg hwait]
      refine State.attachLawful_iff.mpr ⟨hcarried, ?_, fun e he => absurd he (State.firstVacant_eq_none hfirst e)⟩
      exact h.wait fun e he => by rw [State.table_carries, hp]; exact hnew e he

theorem State.table_lit {r : Port} (hr : r.carries = some x) : (s.modPort p fun _ => r).table = s.table.light p x := by
  have hcarries : (fun q => ((s.modPort p fun _ => r).port q).carries) = Function.update s.table.carries p (some x) := by
    funext q
    rw [State.port_modPort, Function.update_apply]
    split
    · exact hr
    · rfl
  show ({ carries := fun q => ((s.modPort p fun _ => r).port q).carries, seat := _, waits := _ } : Table) = _
  rw [hcarries]
  rfl

/-- A lock event keeps the law (R24 to R27, R40). -/
theorem State.AttachLawful.lockEvent (h : s.AttachLawful) (hdark : (s.port p).usable = false) {r : Port} (husable : r.usable = true)
    (hseen : r.identSeen = some x) (hrole : r.roleSeen.isSome = true) (asked : Role) :
    ((s.modPort p fun _ => r).lockEvent p x asked).AttachLawful := by
  obtain ⟨hcarried, hlaw, hvacancy⟩ := State.attachLawful_iff.mp h
  have hr : r.carries = some x := (Port.carries_of_usable husable).trans hseen
  have hpdark : s.table.carries p = none := Port.carries_of_not_usable hdark
  have htable := State.table_lit (s := s) (p := p) hr
  have hport : ((s.modPort p fun _ => r).port p) = r := State.port_modPort_same ..
  have hcarried' : (s.modPort p fun _ => r).Carried := fun q hq => by
    by_cases hqp : q = p
    · subst hqp
      rw [hport, hseen]
      exact ⟨rfl, hrole⟩
    · have hother : (s.modPort p fun _ => r).port q = s.port q := (State.port_modPort ..).trans (if_neg hqp)
      rw [hother] at hq ⊢
      exact hcarried q hq
  have hvacancy' : (s.modPort p fun _ => r).table.NoVacancy := by rw [htable]; exact hvacancy.light p x
  unfold State.lockEvent
  split
  next d hbound =>
    have hpd : p ∈ (s.slot d).bound := State.mem_of_boundTo (s := s.modPort p fun _ => r) hbound
    have hinuse : (s.slot d).state ≠ .vacant := hlaw.inUse (d := d) hpd
    split
    next hident =>
      have hident : (s.slot d).ident = some x := hident
      split
      · have htable' : ((s.modPort p fun _ => r).revive d p).table = (s.table.light p x).setSeat d
            { state := .active, ident := (s.slot d).ident, bound := (s.slot d).bound, active := some p } := by
          rw [State.table_revive, htable]
          rfl
        refine State.attachLawful_iff.mpr ⟨hcarried'.sameCores ((State.SameCores.refl _).revive d p), ?_, ?_⟩
        · rw [htable']
          exact hlaw.relight (d := d) hpd hpdark hident hpd (by rw [Table.light_same]; nofun)
        · rw [htable']
          exact (hvacancy.light p x).setSeat nofun
      next hsilent =>
        have hactive : (s.slot d).state = .active := by
          cases hs : (s.slot d).state with
          | active => rfl
          | silent => exact absurd hs hsilent
          | vacant => exact absurd hs hinuse
        obtain ⟨run, hrun, hrunb, hrunc⟩ := hlaw.activePath d hactive
        have hrunp : run ≠ p := fun e => hrunc (e ▸ hpdark)
        have hkept := hlaw.relight (d := d) hpd hpdark hident hrunb (by rw [Table.light_ne _ _ hrunp]; exact hrunc)
        rw [Table.setSeat_eq_self (by
          show ({ state := _, ident := _, bound := _, active := _ } : Seat) = (s.slot d).tableSeat
          unfold Slot.tableSeat
          rw [hactive, show (s.slot d).active = some run from hrun]
          rfl), ← htable] at hkept
        have hmoves := State.Moves.recheck d (s.modPort p fun _ => r)
        exact State.attachLawful_iff.mpr
          ⟨hcarried'.sameCores hmoves.ports, hkept.moves hcarried' hmoves, hvacancy'.moves hmoves⟩
    · have htable' : ((s.modPort p fun _ => r).modSlot d fun r => { r with bound := r.bound.filter (· ≠ p) }).table =
          (s.table.setSeat d ((s.table.seat d).without p)).light p x := by
        rw [State.table_modSlot, htable]
        rfl
      refine State.lockUnbound_lawful (s := (s.modPort p fun _ => r).modSlot d fun r => { r with bound := r.bound.filter (· ≠ p) })
        ?_ hcarried' ?_ (by rw [State.modSlot_port, hport, hr]) asked
      · rw [htable']
        exact hlaw.releaseLight (d := d) hpd hpdark x
      · rw [htable']
        exact (hvacancy.setSeat hinuse).light p x
  next hbound =>
    have hfree : ∀ d, p ∉ (s.slot d).bound := State.free_of_boundTo (s := s.modPort p fun _ => r) hbound
    refine State.lockUnbound_lawful ?_ hcarried' hvacancy' (by rw [hport, hr]) asked
    rw [htable]
    exact hlaw.light hpdark hfree x

end
end Sys2Proof.Machine

/-!
The attachment law through a loss event and a grace expiry (R27, R28, R31, R38, R41).
-/
namespace Sys2Proof.Machine

section
variable {s t : State} {d : Desk} {p q : LinkPort}

/-! ### Cores of the ports -/

theorem State.SameCores.loseActive (h : s.SameCores t) (d : Desk) (o : Option LinkPort) : s.SameCores (t.loseActive d o) := by
  unfold State.loseActive
  split
  · split
    · exact h.switchover d _
    · exact h.becomeSilent d
  · exact h.becomeSilent d

theorem State.SameCores.rebound (h : s.SameCores t) (d : Desk) (p : LinkPort) (o : Option LinkPort) : s.SameCores (t.rebound d p o) := by
  cases o with
  | none => exact h
  | some q => exact h

theorem State.SameCores.lossEvent (h : s.SameCores t) (p : LinkPort) : s.SameCores (t.lossEvent p) := by
  have hunlisted : s.SameCores (t.unlisted p) := h
  cases hbound : t.boundTo p with
  | none =>
    rw [State.lossEvent_of_unbound hbound]
    exact hunlisted
  | some d =>
    have hrebound (o : Option LinkPort) : s.SameCores ((t.unlisted p).rebound d p o) := State.SameCores.rebound hunlisted d p o
    rw [State.lossEvent_of_bound hbound]
    split
    · exact State.SameCores.loseActive (hrebound _) d _
    split
    · exact State.SameCores.recheck (hrebound _) d
    · exact hrebound _

/-! ### The table as a port is lost -/

/-- A port that is bound to no slot goes dark (R27). -/
theorem Table.Lawful.loseFree {T : Table} (h : T.Lawful []) (hfree : T.Free p) : (T.dim p).Lawful [] := by
  by_cases hwait : p ∈ T.waits
  · have hcall := h.call (fun q => decide (q ≠ p)) [p] (List.nodup_singleton p) fun q => by
      simp only [List.mem_singleton, decide_eq_false_iff_not, not_not]
      exact ⟨fun hq => ⟨hq ▸ hwait, hq⟩, fun hq => hq.2⟩
    have hdim := hcall.dim
    have hsame : Table.dim p { T with waits := T.waits.filter fun q => decide (q ≠ p) } = T.dim p := by
      unfold Table.dim
      simp
    rwa [hsame] at hdim
  · exact (h.pend hfree hwait).dim

theorem State.table_lost {r : Port} (hr : r.usable = false) : ((s.modPort p fun _ => r).unlisted p).table = s.table.dim p := by
  have hcarries : (fun q => ((s.modPort p fun _ => r).port q).carries) = Function.update s.table.carries p none := by
    funext q
    rw [State.port_modPort, Function.update_apply]
    split
    · exact Port.carries_of_not_usable hr
    · rfl
  show ({ carries := fun q => ((s.modPort p fun _ => r).port q).carries, seat := _, waits := _ } : Table) = _
  rw [hcarries]
  rfl

/-- A slot's list of two ports at most holds no third one. -/
theorem eq_of_two_ports {l : List LinkPort} (hlen : l.length ≤ 2) {r : LinkPort} (hp : p ∈ l) (hq : q ∈ l) (hqp : q ≠ p) (hr : r ∈ l)
    (hrp : r ≠ p) : r = q := by
  match l, hlen with
  | [], _ => cases hp
  | [x], _ =>
    simp only [List.mem_singleton] at hp hq
    exact absurd (hq.trans hp.symm) hqp
  | [x, y], _ =>
    simp only [List.mem_cons, List.not_mem_nil, or_false] at hp hq hr
    rcases hp with rfl | rfl <;> rcases hq with rfl | rfl <;> rcases hr with rfl | rfl <;> first | rfl | exact absurd rfl hqp | exact absurd rfl hrp

theorem Slot.eq_of_otherThan_none {r : Slot} (h : r.otherThan p = none) (hq : q ∈ r.bound) : q = p := by
  have := List.find?_eq_none.mp h q hq
  simpa using this

/-- A loss event keeps the law (R27, R28, R31, R35). -/
theorem State.AttachLawful.lossEvent (h : s.AttachLawful) (husable : (s.port p).usable = true) {r : Port} (hr : r.usable = false) :
    ((s.modPort p fun _ => r).lossEvent p).AttachLawful := by
  obtain ⟨hcarried, hlaw, hvacancy⟩ := State.attachLawful_iff.mp h
  have hpc : s.table.carries p ≠ none := (hcarried.usable_iff p).mp husable
  have hport {q : LinkPort} (hq : q ≠ p) : (s.modPort p fun _ => r).port q = s.port q := (State.port_modPort ..).trans (if_neg hq)
  have hcarried' : (s.modPort p fun _ => r).Carried := fun q hq => by
    by_cases hqp : q = p
    · subst hqp
      rw [State.port_modPort_same, hr] at hq
      cases hq
    · rw [hport hqp] at hq ⊢
      exact hcarried q hq
  have htable := State.table_lost (s := s) (p := p) hr
  refine State.attachLawful_iff.mpr ⟨hcarried'.sameCores ((State.SameCores.refl _).lossEvent p), ?_⟩
  cases hbound : (s.modPort p fun _ => r).boundTo p with
  | none =>
    have hfree : ∀ d, p ∉ (s.slot d).bound := State.free_of_boundTo (s := s.modPort p fun _ => r) hbound
    rw [State.lossEvent_of_unbound hbound, htable]
    exact ⟨hlaw.loseFree ⟨hpc, hfree⟩, hvacancy.dim p⟩
  | some d =>
    have hpd : p ∈ (s.slot d).bound := State.mem_of_boundTo (s := s.modPort p fun _ => r) hbound
    have hinuse : (s.slot d).state ≠ .vacant := hlaw.inUse (d := d) hpd
    have hloud : (s.slot d).state ≠ .silent := fun hs => hpc (hlaw.silent d hs p hpd)
    rw [State.lossEvent_of_bound hbound]
    show (ite ((s.slot d).state = .active ∧ (s.slot d).active = some p) _ _ : State).table.Lawful [] ∧
      (ite ((s.slot d).state = .active ∧ (s.slot d).active = some p) _ _ : State).table.NoVacancy
    have hslot : (s.modPort p fun _ => r).slot d = s.slot d := rfl
    rw [hslot]
    cases hsurplus : (s.modPort p fun _ => r).surplusPort (s.slot d).ident with
    | none =>
      have hnone : ∀ q, s.table.Free q → (s.slot d).ident ≠ s.table.carries q := fun q hfree hident => by
        have hqp : q ≠ p := fun e => hfree.2 d (e ▸ hpd)
        have hqu := (hcarried.usable_iff q).mpr hfree.1
        refine State.no_surplusPort hsurplus (q := q) hfree.2 (by rw [hport hqp]; exact hqu) ?_
        rw [hport hqp, hident]
        exact (Port.carries_of_usable hqu).symm
      have hsame : ((s.modPort p fun _ => r).unlisted p).rebound d p none = (s.modPort p fun _ => r).unlisted p := rfl
      rw [hsame]
      split
      next hactive =>
        have hswitch (q : LinkPort) : (((s.modPort p fun _ => r).unlisted p).switchover d q).table =
            (s.table.dim p).setSeat d { state := .active, ident := (s.slot d).ident, bound := (s.slot d).bound, active := some q } := by
          rw [State.table_switchover, htable, ← hactive.1]
          rfl
        have hquiet : (((s.modPort p fun _ => r).unlisted p).becomeSilent d).table =
            (s.table.dim p).setSeat d { state := .silent, ident := (s.slot d).ident, bound := (s.slot d).bound, active := none } := by
          rw [State.table_becomeSilent, htable]
          rfl
        have hfall (hdark : ∀ q, q ∈ (s.slot d).bound → q ≠ p → s.table.carries q = none) :
            (((s.modPort p fun _ => r).unlisted p).becomeSilent d).table.Lawful [] ∧
              (((s.modPort p fun _ => r).unlisted p).becomeSilent d).table.NoVacancy := by
          rw [hquiet]
          exact ⟨hlaw.loseIn (d := d) hpd hpc hnone nofun nofun (fun _ => rfl) fun _ => hdark, (hvacancy.dim p).setSeat nofun⟩
        unfold State.loseActive
        cases hother : (s.slot d).otherThan p with
        | none => exact hfall fun q hq hqp => absurd (Slot.eq_of_otherThan_none hother hq) hqp
        | some q =>
          obtain ⟨hqd, hqp⟩ := State.Moves.mem_of_otherThan hother
          have hq : ((s.modPort p fun _ => r).unlisted p).port q = s.port q := hport hqp
          dsimp only
          rw [hq]
          split
          next hqu =>
            rw [hswitch]
            exact ⟨hlaw.loseIn (d := d) hpd hpc hnone nofun (fun _ => ⟨q, rfl, hqd, hqp, (hcarried.usable_iff q).mp hqu⟩)
              (fun hne => absurd rfl hne) nofun, (hvacancy.dim p).setSeat nofun⟩
          next hqu =>
            exact hfall fun x hx hxp => by
              rw [eq_of_two_ports (hlaw.twoPorts d).1 hpd hqd hqp hx hxp]
              exact Port.carries_of_not_usable (Bool.not_eq_true _ ▸ hqu)
      next hactive =>
        rw [Option.isSome_none, if_neg Bool.false_ne_true, htable]
        have hkept := hlaw.loseIn (d := d) hpd hpc hnone (st := (s.slot d).state) (run := (s.slot d).active) hinuse
          (fun hstate => by
            obtain ⟨x, hx, hxd, hxc⟩ := hlaw.activePath d hstate
            exact ⟨x, hx, hxd, fun e => hactive ⟨hstate, e ▸ hx⟩, hxc⟩)
          (hlaw.onlyActive d) (fun hs => absurd hs hloud)
        have hself : (s.table.dim p).setSeat d (s.slot d).tableSeat = s.table.dim p := Table.setSeat_eq_self rfl
        exact ⟨hself ▸ hkept, hvacancy.dim p⟩
    | some q =>
      obtain ⟨hfree, hqu, hseen⟩ := State.surplusPort_eq_some hsurplus
      have hqp : q ≠ p := fun e => hfree d (e ▸ hpd)
      rw [hport hqp] at hqu hseen
      have hqfree : s.table.Free q := ⟨(hcarried.usable_iff q).mp hqu, hfree⟩
      have hident : (s.slot d).ident = s.table.carries q := hseen.symm.trans (Port.carries_of_usable hqu).symm
      have hqwait : q ∉ s.waitList := fun hw => hlaw.strangers q d hw hinuse hident
      obtain ⟨htwo, hall⟩ := hlaw.both q d hqfree (by simp) hinuse hident
      have hb : ∀ x, x ∈ ((s.slot d).replaceBound p q).bound ↔ x = q ∨ x ∈ (s.slot d).bound ∧ x ≠ p := fun x => by
        refine (mem_replace p q x).trans ?_
        simp [hpd]
      have hlist : ((s.slot d).replaceBound p q).bound.length = 2 ∧ ((s.slot d).replaceBound p q).bound.Nodup :=
        ⟨(List.length_map ..).trans htwo, nodup_replace (hlaw.twoPorts d).2 (hfree d)⟩
      have hrebound : (((s.modPort p fun _ => r).unlisted p).rebound d p (some q)).table =
          (s.table.dim p).setSeat d ((s.slot d).replaceBound p q).tableSeat := by
        refine (State.table_modSlot ..).trans ?_
        rw [htable]
        rfl
      have hlose {run : Option LinkPort} (hactive : (s.slot d).state = .active → ∃ x, run = some x ∧ x ∈ ((s.slot d).replaceBound p q).bound)
          (honly : (s.slot d).state ≠ .active → run = none) :
          ((s.table.dim p).setSeat d
            { state := (s.slot d).state, ident := (s.slot d).ident, bound := ((s.slot d).replaceBound p q).bound, active := run }).Lawful [] :=
        hlaw.loseTo (d := d) hpd hpc hqfree hqwait hident hb hlist hactive honly
      split
      next hactive =>
        unfold State.loseActive
        cases hother : (s.slot d).otherThan p with
        | none =>
          exfalso
          have hall' : ∀ x, x ∈ (s.slot d).bound → x = p := fun x hx => Slot.eq_of_otherThan_none hother hx
          have hnodup : (s.slot d).bound.Nodup := (hlaw.twoPorts d).2
          have hle : (s.slot d).bound.length ≤ [p].length := (hnodup.subperm fun x hx => by simp [hall' x hx]).length_le
          have htwo : (s.slot d).bound.length = 2 := htwo
          simp only [List.length_singleton] at hle
          omega
        | some o =>
          obtain ⟨hod, hop⟩ := State.Moves.mem_of_otherThan hother
          have ho : (((s.modPort p fun _ => r).unlisted p).rebound d p (some q)).port o = s.port o := hport hop
          dsimp only
          rw [ho, if_pos ((hcarried.usable_iff o).mpr (hall o hod)), State.table_switchover, hrebound, Table.setSeat_setSeat]
          have hseat : (((s.modPort p fun _ => r).unlisted p).rebound d p (some q)).slot d = (s.slot d).replaceBound p q :=
            State.slot_modSlot_same ..
          rw [hseat]
          exact ⟨hlose (fun _ => ⟨o, rfl, (hb o).mpr (.inr ⟨hod, hop⟩)⟩) (fun hne => absurd hactive.1 hne), (hvacancy.dim p).setSeat hinuse⟩
      next hactive =>
        rw [Option.isSome_some, if_pos rfl]
        have hkept : (((s.modPort p fun _ => r).unlisted p).rebound d p (some q)).table.Lawful [] := by
          rw [hrebound]
          exact hlose (run := (s.slot d).active)
            (fun hstate => by
              obtain ⟨x, hx, hxd, -⟩ := hlaw.activePath d hstate
              exact ⟨x, hx, (hb x).mpr (.inr ⟨hxd, fun e => hactive ⟨hstate, e ▸ hx⟩⟩)⟩)
            (hlaw.onlyActive d)
        have hmoves := State.Moves.recheck d (((s.modPort p fun _ => r).unlisted p).rebound d p (some q))
        refine ⟨hkept.moves hcarried' hmoves, Table.NoVacancy.moves ?_ hmoves⟩
        rw [hrebound]
        exact (hvacancy.dim p).setSeat hinuse

/-! ### Grace expiry -/

/-- A grace expiry keeps the law (R27, R41). -/
theorem State.AttachLawful.graceExpiry (h : s.AttachLawful) (d : Desk) : (s.graceExpiry d).AttachLawful := by
  unfold State.graceExpiry
  split
  · split
    next hdue =>
      obtain ⟨hcarried, hlaw, hvacancy⟩ := State.attachLawful_iff.mp h
      rw [State.vacate_eq]
      have htable : (s.released d).table = s.table.setSeat d { state := .vacant, ident := none, bound := [], active := none } :=
        State.table_modSlot (s := s) (d := d) fun _ => Slot.reset
      have hreleased : (s.released d).table.Lawful [] := by
        rw [htable]
        exact hlaw.vacate (d := d) hdue.1
      have hslot {e : Desk} (he : e ≠ d) : (s.released d).slot e = s.slot e :=
        (State.slot_modSlot s d e fun _ => Slot.reset).trans (if_neg he)
      have hown : (s.released d).slot d = Slot.reset := State.slot_modSlot_same s d fun _ => Slot.reset
      have hcarried' : (s.released d).Carried := hcarried
      have hothers : ∀ e, e ≠ d → ((s.released d).slot e).state = .vacant → (s.released d).waitList = [] := fun e he hstate => by
        rw [hslot he] at hstate
        exact hvacancy e hstate
      unfold State.admitWaiting
      split
      next p rest hwait =>
        obtain ⟨hfree, hstranger⟩ : (s.released d).table.Free p ∧
            ∀ e, ((s.released d).slot e).state ≠ .vacant → ((s.released d).slot e).ident ≠ ((s.released d).port p).carries := by
          have hmem : p ∈ (s.released d).waitList := by rw [hwait]; simp
          exact ⟨hreleased.waiting.2 p hmem, fun e => hreleased.strangers p e hmem⟩
        have husable := (hcarried'.usable_iff p).mpr hfree.1
        split
        next x role hseen hrole =>
          have hp : ((s.released d).port p).carries = some x := (Port.carries_of_usable husable).trans hseen
          have hnodup : (p :: rest).Nodup := hwait ▸ hreleased.waiting.1
          refine State.enroll_lawful hcarried' ?_ (by rw [hown]; rfl) hp (fun e he => hp ▸ hstranger e he) hothers role
          refine hreleased.call ((s.released d).waitsOn p x) _ ?_ fun q => ?_
          · refine List.nodup_cons.mpr ⟨fun hmem => ?_, hreleased.waiting.1.filter _⟩
            exact (of_decide_eq_true (List.mem_filter.mp hmem).2).1 rfl
          · show q ∈ p :: (s.released d).waitList.filter _ ↔ q ∈ (s.released d).waitList ∧ _
            rw [List.mem_cons, List.mem_filter, State.waitsOn, decide_eq_true_iff, decide_eq_false_iff_not]
            constructor
            · rintro (rfl | ⟨hmem, hq⟩)
              · exact ⟨by rw [hwait]; simp, fun hq => hq.1 rfl⟩
              · exact ⟨hmem, fun hq' => hq'.2 hq.2⟩
            · rintro ⟨hmem, hq⟩
              by_cases hqp : q = p
              · exact .inl hqp
              · exact .inr ⟨hmem, hqp, not_not.mp fun hne => hq ⟨hqp, hne⟩⟩
        next hnone =>
          exfalso
          obtain ⟨hseen, hrole⟩ := hcarried' p husable
          obtain ⟨x, hx⟩ := Option.isSome_iff_exists.mp hseen
          obtain ⟨role, hrole⟩ := Option.isSome_iff_exists.mp hrole
          exact hnone x role hx hrole
      next hwait =>
        exact State.attachLawful_iff.mpr ⟨hcarried', hreleased, fun _ _ => hwait⟩
    · exact h
  · exact h

end
end Sys2Proof.Machine

/-!
The panel's talk class, the card-line queue and the send list under the operations that have nothing to do with them: requests to other
blocks, answers, reports and the attachment unit.
-/
namespace Sys2Proof.Machine

/-- The panel's talk class and the two lists of channels that wait for the card line. -/
def State.sideView (s : State) : Nat × List (Fin 64) × List (Fin 64) := (s.panelClass, s.cardQueue, s.sendList)

section
variable (s : State)

/-! ### Changes of one record -/

@[simp] theorem State.modPort_side (p : LinkPort) (f : Port → Port) : (s.modPort p f).sideView = s.sideView := rfl
@[simp] theorem State.modSlot_side (d : Desk) (f : Slot → Slot) : (s.modSlot d f).sideView = s.sideView := rfl
@[simp] theorem State.modLane_side (d : Desk) (f : Lane → Lane) : (s.modLane d f).sideView = s.sideView := rfl
@[simp] theorem State.modDomain_side (k : Nat) (f : Domain → Domain) : (s.modDomain k f).sideView = s.sideView := rfl
@[simp] theorem State.modBus_side (b : Bus) (f : BusRec → BusRec) : (s.modBus b f).sideView = s.sideView := rfl
@[simp] theorem State.modMix_side (k : Nat) (f : Mix → Mix) : (s.modMix k f).sideView = s.sideView := rfl
@[simp] theorem State.modOutput_side (o : Nat) (f : Output → Output) : (s.modOutput o f).sideView = s.sideView := rfl
@[simp] theorem State.setBatch_side (sl : SlotId) (b : Batch) : (s.setBatch sl b).sideView = s.sideView := rfl
@[simp] theorem State.resetColumn_side (col : Fin 4) : (s.resetColumn col).sideView = s.sideView := rfl
@[simp] theorem State.freeDomainsOf_side (sl : SlotId) : (s.freeDomainsOf sl).sideView = s.sideView := rfl
@[simp] theorem State.leaveBuses_side (sl : SlotId) : (s.leaveBuses sl).sideView = s.sideView := rfl
@[simp] theorem State.meterAdmission_side (d : Desk) : (s.meterAdmission d).sideView = s.sideView := rfl
@[simp] theorem State.closeBatches_side : s.closeBatches.sideView = s.sideView := rfl

/-! ### Claims, batches and answers -/

@[simp] theorem State.checkDomains_side (sl : SlotId) : ∀ (ds : List Nat) (s : State), (s.checkDomains sl ds).1.sideView = s.sideView
  | [], _ => rfl
  | d :: ds, s => by
    unfold State.checkDomains
    dsimp only
    rw [State.checkDomains_side sl ds]
    split
    · split <;> rfl
    · rfl

@[simp] theorem State.claim_side (sl : SlotId) (dom : Nat) : (s.claim sl dom).1.sideView = s.sideView := by
  unfold State.claim
  repeat' split
  all_goals rfl

@[simp] theorem State.release_side (sl : SlotId) (dom : Nat) : (s.release sl dom).1.sideView = s.sideView := by
  unfold State.release
  repeat' split
  all_goals rfl

@[simp] theorem State.forceRelease_side (dom : Nat) : (s.forceRelease dom).1.sideView = s.sideView := by
  unfold State.forceRelease
  split <;> rfl

@[simp] theorem State.clearTrespass_side (sl : SlotId) (dom : Nat) : (s.clearTrespass sl dom).1.sideView = s.sideView := by
  unfold State.clearTrespass
  repeat' split
  all_goals rfl

@[simp] theorem State.batchOpen_side (sl : SlotId) : (s.batchOpen sl).1.sideView = s.sideView := by
  unfold State.batchOpen
  repeat' split
  all_goals rfl

@[simp] theorem State.batchDrop_side (sl : SlotId) : (s.batchDrop sl).1.sideView = s.sideView := by
  unfold State.batchDrop
  split <;> rfl

@[simp] theorem State.pushAnswer_side (sl : SlotId) (a : Answer) : (s.pushAnswer sl a).sideView = s.sideView := by cases sl <;> rfl

@[simp] theorem State.answer_side (sl : SlotId) (tag kind : Byte) (r : Result) (data : AnswerData) :
    (s.answer sl tag kind r data).sideView = s.sideView := s.pushAnswer_side sl _

@[simp] theorem State.batchApply_side (sl : SlotId) (tag : Byte) : (s.batchApply sl tag).sideView = s.sideView := by
  unfold State.batchApply
  dsimp only
  split
  all_goals simp

@[simp] theorem State.completeApply_side (sl : SlotId) (r : Result) (applied dropped : Nat) :
    (s.completeApply sl r applied dropped).sideView = s.sideView := by cases sl <;> rfl

@[simp] theorem State.discardBatch_side (sl : SlotId) : (s.discardBatch sl).sideView = s.sideView := by
  unfold State.discardBatch
  split
  all_goals simp

/-! ### Other requests -/

@[simp] theorem State.doGet_side (sl : SlotId) (first count : Nat) : (s.doGet sl first count).state.sideView = s.sideView := by
  unfold State.doGet
  repeat' split
  all_goals rfl

@[simp] theorem State.doRecall_side (sl : SlotId) : (s.doRecall sl).state.sideView = s.sideView := by
  unfold State.doRecall
  repeat' split
  all_goals rfl

@[simp] theorem State.doClearOvers_side (sl : SlotId) : (s.doClearOvers sl).state.sideView = s.sideView := by
  unfold State.doClearOvers
  split <;> rfl

@[simp] theorem State.doDescribe_side (sl : SlotId) : (s.doDescribe sl).state.sideView = s.sideView := rfl
@[simp] theorem State.doMeters_side (on : Bool) : (s.doMeters on).state.sideView = s.sideView := rfl

@[simp] theorem State.talkPress_side (sl : SlotId) (n : Nat) : (s.talkPress sl n).1.sideView = s.sideView := by
  unfold State.talkPress
  repeat' split
  all_goals rfl

@[simp] theorem State.talkRelease_side (sl : SlotId) (n : Nat) : (s.talkRelease sl n).1.sideView = s.sideView := by
  unfold State.talkRelease
  split <;> rfl

/-! ### Reports and digests -/

@[simp] theorem State.offerPanel_side (isKind : PanelMsg → Bool) (m : PanelMsg) : (s.offerPanel isKind m).sideView = s.sideView := by
  unfold State.offerPanel
  repeat' split
  all_goals rfl

@[simp] theorem State.clearNotices_side (sl : SlotId) : (s.clearNotices sl).sideView = s.sideView := by cases sl <;> rfl

@[simp] theorem State.buildDigest_side (sl : SlotId) : (s.buildDigest sl).sideView = s.sideView := by
  cases sl with
  | panel => exact (State.offerPanel_side ..).trans (s.clearNotices_side .panel)
  | desk d => rfl

@[simp] theorem State.handReports_side (count : Word) (src : State) : (State.handReports count src s).sideView = s.sideView := by
  unfold State.handReports
  dsimp only
  split
  · rw [State.offerPanel_side]
    refine State.foldOver_field State.sideView _ (fun d u => ?_) Desk.all s
    split <;> rfl
  · refine State.foldOver_field State.sideView _ (fun d u => ?_) Desk.all s
    split <;> rfl

@[simp] theorem State.meterPeriodEnd_side : s.meterPeriodEnd.sideView = s.sideView := by
  unfold State.meterPeriodEnd
  dsimp only
  split
  · exact State.handReports_side ..
  · rfl

@[simp] theorem State.sourceLost_side (code : Nat) : (s.sourceLost code).sideView = s.sideView := rfl
@[simp] theorem State.sourceRegained_side (code : Nat) : (s.sourceRegained code).sideView = s.sideView := rfl

@[simp] theorem State.returnsLost_side (d : Desk) : (s.returnsLost d).sideView = s.sideView := by
  obtain ⟨outs, h⟩ := State.returnsLost_only d s
  rw [h]
  rfl

@[simp] theorem State.returnsRegained_side (d : Desk) : (s.returnsRegained d).sideView = s.sideView := by
  obtain ⟨outs, h⟩ := State.returnsRegained_only d s
  rw [h]
  rfl

/-! ### The attachment unit -/

@[simp] theorem State.switchover_side (d : Desk) (q : LinkPort) : (s.switchover d q).sideView = s.sideView := by
  cases h : s.hitlessFrame d q with
  | none => rw [State.switchover_concealed d q s h]; rfl
  | some f => rw [State.switchover_hitless d q s h]; rfl

@[simp] theorem State.recheck_side (d : Desk) : (s.recheck d).sideView = s.sideView := by
  unfold State.recheck
  dsimp only
  repeat' split
  all_goals simp

@[simp] theorem State.becomeSilent_side (d : Desk) : (s.becomeSilent d).sideView = s.sideView := by
  rw [State.becomeSilent_eq, State.returnsLost_side, State.discardBatch_side]
  rfl

@[simp] theorem State.revive_side (d : Desk) (p : LinkPort) : (s.revive d p).sideView = s.sideView := by simp [State.revive]

@[simp] theorem State.bindStep1_side (d : Desk) (p : LinkPort) : (s.bindStep1 d p).sideView = s.sideView := by
  unfold State.bindStep1
  dsimp only
  repeat' split
  all_goals simp

@[simp] theorem State.foldBind_side (d : Desk) (l : List LinkPort) : (State.foldOver (State.bindStep1 d) l s).sideView = s.sideView :=
  State.foldOver_field State.sideView _ (fun p u => u.bindStep1_side d p) l s

@[simp] theorem State.enroll_side (d : Desk) (p : LinkPort) (x : DeskId) (asked : Role) : (s.enroll d p x asked).sideView = s.sideView := by
  rw [State.enroll_eq, State.buildDigest_side, State.foldBind_side, State.welcomed, State.returnsRegained_side]
  rfl

@[simp] theorem State.lockUnbound_side (p : LinkPort) (x : DeskId) (asked : Role) : (s.lockUnbound p x asked).sideView = s.sideView := by
  unfold State.lockUnbound
  repeat' split
  all_goals first | rfl | simp

@[simp] theorem State.lockEvent_side (p : LinkPort) (x : DeskId) (asked : Role) : (s.lockEvent p x asked).sideView = s.sideView := by
  unfold State.lockEvent
  repeat' split
  all_goals simp

@[simp] theorem State.loseActive_side (d : Desk) (o : Option LinkPort) : (s.loseActive d o).sideView = s.sideView := by
  unfold State.loseActive
  repeat' split
  all_goals simp

theorem State.rebound_side (d : Desk) (p : LinkPort) (o : Option LinkPort) : (s.rebound d p o).sideView = s.sideView := by cases o <;> rfl

@[simp] theorem State.lossEvent_side (p : LinkPort) : (s.lossEvent p).sideView = s.sideView := by
  have hunlisted : (s.unlisted p).sideView = s.sideView := rfl
  cases hbound : s.boundTo p with
  | none => rw [State.lossEvent_of_unbound hbound, hunlisted]
  | some d =>
    rw [State.lossEvent_of_bound hbound]
    repeat' split
    all_goals simp [State.rebound_side, hunlisted]

@[simp] theorem State.graceExpiry_side (d : Desk) : (s.graceExpiry d).sideView = s.sideView := by
  have hreleased : (s.released d).sideView = s.sideView := rfl
  have hvacate : (s.vacate d).sideView = s.sideView := by
    rw [State.vacate_eq, ← hreleased]
    unfold State.admitWaiting
    repeat' split
    all_goals simp
  unfold State.graceExpiry
  split
  · split
    · exact hvacate
    · rfl
  · rfl

@[simp] theorem State.pathPrefer_side (sl : SlotId) (code : Nat) : (s.pathPrefer sl code).1.sideView = s.sideView := by
  have hprefer (d : Desk) (p : LinkPort) : (s.preferFor d p).1.sideView = s.sideView := by
    unfold State.preferFor
    dsimp only
    repeat' split
    all_goals simp
  unfold State.pathPrefer
  split
  · rfl
  split
  · exact hprefer _ _
  split
  · exact hprefer _ _
  · rfl

end
end Sys2Proof.Machine

/-!
What a law of the attachments, the talk buses or the stage gains has to be shown for. Such a law reads few fields of the state
(`State.lawView`), so most operations cannot break it; a `Stable` law is one that the remaining ones keep, and every command keeps it.
-/
namespace Sys2Proof

/-- The commands of the front end and of the compensation stage (chapters 3 and 4). -/
def Instr.isFrontEnd : Instr → Bool
  | .trimRampStep .. | .gainChangeMarker _ | .settingSlot | .settingAnswer .. | .settingNoAnswer | .markerTimeout _ | .holdEnd _
  | .retryTimerExpiry _ | .pollSlot | .pollAnswer .. | .pollUnanswered => true
  | _ => false

end Sys2Proof

namespace Sys2Proof.Machine

/-- What a law may read of a port: what it has seen, if it carries frames. -/
def Port.shows (r : Port) : Option (Option DeskId × Option Role) := if r.usable then some (r.identSeen, r.roleSeen) else none

/-- What a law may read of a slot record. -/
def Slot.shows (r : Slot) : Seat × Nat := (r.tableSeat, r.talkClass)

/-- What a law may read of the state. -/
def State.lawView (s : State) :=
  (fun p => (s.port p).shows, fun d => (s.slot d).shows, s.waitList, s.buses, s.started, s.config.loading, s.channels, s.comp,
    s.sideView)

/-- A law that reads no more than `lawView` and that every operation on what it reads keeps. -/
structure Stable (P : State → Prop) : Prop where
  reads : ∀ {s t : State}, t.lawView = s.lawView → P s → P t
  recheck : ∀ d {s : State}, P s → P (s.recheck d)
  loses : ∀ p {r : Port} {s : State}, r.usable = false → P s → P ((s.modPort p fun _ => r).lossEvent p)
  locks : ∀ p {r : Port} x asked {s : State}, (s.port p).usable = false → r.usable = true → r.identSeen = some x →
    r.roleSeen.isSome = true → P s → P ((s.modPort p fun _ => r).lockEvent p x asked)
  grace : ∀ d {s : State}, P s → P (s.graceExpiry d)
  prefers : ∀ sl code {s : State}, P s → P (s.pathPrefer sl code).1
  frontEnd : ∀ i : Instr, i.isFrontEnd = true → ∀ {s : State}, P s → P (i.effect s)
  writes : ∀ sl p v {s : State}, P s → P (s.writeParam sl p v).1
  rebases : ∀ col first last {s : State}, P s → P (s.rebaseInputs col first last)
  presses : ∀ sl n {s : State}, s.started = true → P s → P (s.talkPress sl n).1
  releases : ∀ sl n {s : State}, P s → P (s.talkRelease sl n).1
  expires : ∀ b {s : State}, P s → P (s.modBus b (BusRec.timeout s.grantLimit))
  digests : ∀ sl {s : State}, P s → P (s.buildDigest sl)
  restarts : ∀ tag {s : State}, P s → P (s.restartAnswered tag)
  loads : ∀ silentFrom {s : State}, P s → P (s.loadEnd silentFrom)
  starts : ∀ {s : State}, P s → P s.startupComplete
  frames : ∀ lanes talk {s : State}, P s → P (s.formFrame lanes talk)

namespace Stable

section
variable {P : State → Prop} (h : Stable P) {s : State}
include h

/-! ### Ports, slots and lanes -/

theorem modPort (p : LinkPort) {f : Port → Port} (hf : (f (s.port p)).shows = (s.port p).shows) (hs : P s) : P (s.modPort p f) := by
  have hports : (fun q => ((s.modPort p f).port q).shows) = fun q => (s.port q).shows := by
    funext q
    rw [State.port_modPort]
    split
    next hq => rw [hq, hf]
    · rfl
  refine h.reads ?_ hs
  show ((fun q => ((s.modPort p f).port q).shows), _) = _
  rw [hports]
  rfl

theorem modSlot (d : Desk) {f : Slot → Slot} (hf : (f (s.slot d)).shows = (s.slot d).shows) (hs : P s) : P (s.modSlot d f) := by
  have hslots : (fun e => ((s.modSlot d f).slot e).shows) = fun e => (s.slot e).shows := by
    funext e
    rw [State.slot_modSlot]
    split
    next he => rw [he, hf]
    · rfl
  refine h.reads ?_ hs
  show (_, (fun e => ((s.modSlot d f).slot e).shows), _) = _
  rw [hslots]
  rfl

omit h in
theorem fold {α : Type} {f : α → State → State} (hf : ∀ x {s}, P s → P (f x s)) (l : List α) (hs : P s) : P (State.foldOver f l s) :=
  State.foldOver_keeps P f (fun x _ => hf x) l s hs

theorem fadeOutEnd (d : Desk) (hs : P s) : P (s.fadeOutEnd d) := by
  unfold State.fadeOutEnd
  split
  · exact h.modSlot d rfl hs
  · exact hs

theorem fadeInEnd (d : Desk) (hs : P s) : P (s.fadeInEnd d) := by
  unfold State.fadeInEnd
  split
  · exact h.recheck d (h.modSlot d rfl hs)
  · exact hs

theorem qualityEvent (p : LinkPort) (hs : P s) : P (s.qualityEvent p) := by
  unfold State.qualityEvent
  split
  · exact h.recheck _ hs
  · exact hs

/-! ### Requests -/

theorem writeItems (sl : SlotId) : ∀ (items : List Item) {s : State}, P s → P (s.writeItems sl items).1
  | [], _, hs => hs
  | x :: xs, s, hs => by
    have hx := h.writes sl x.param x.stored hs
    unfold State.writeItems
    dsimp only
    split
    · exact hx
    · exact writeItems sl xs hx

theorem checkDomains (sl : SlotId) (ds : List Nat) (hs : P s) : P (s.checkDomains sl ds).1 :=
  h.reads (by simp [State.lawView, State.port, State.slot]) hs

theorem writeAll (sl : SlotId) (items : List Item) (echo : Nat) (hs : P s) : P (s.writeAll sl items echo).state := by
  unfold State.writeAll
  dsimp only
  split
  · exact hs
  split
  · exact h.checkDomains sl _ hs
  split
  · split
    · exact h.reads (s := s) rfl hs
    · exact hs
  · split
    · exact hs
    · exact h.writeItems sl items hs

theorem doRebase (sl : SlotId) (first last col : Nat) (hs : P s) : P (s.doRebase sl first last col).state := by
  unfold State.doRebase
  dsimp only
  split
  · exact hs
  split
  · exact hs
  split
  · split
    · exact hs
    · exact h.rebases _ _ _ hs
  · split
    · exact h.checkDomains sl _ hs
    · exact h.rebases _ _ _ hs

theorem perform (sl : SlotId) (r : Request) (hstarted : s.started = true) (hs : P s) : P (s.perform sl r).state := by
  cases r with
  | set index value echo =>
    show P (s.doSet sl index value echo).state
    unfold State.doSet
    repeat' split
    all_goals first | exact hs | exact h.writeAll sl _ _ hs
  | windowMatrix s1 s2 m1 m2 echo vs =>
    show P (s.doMatrix sl s1 s2 m1 m2 echo vs).state
    unfold State.doMatrix
    repeat' split
    all_goals first | exact hs | exact h.writeAll sl _ _ hs
  | windowRun first echo vs =>
    show P (s.doRun sl first echo vs).state
    unfold State.doRun
    repeat' split
    all_goals first | exact hs | exact h.writeAll sl _ _ hs
  | talkPress b => exact h.presses sl b hstarted hs
  | talkRelease b => exact h.releases sl b hs
  | rebase first last col => exact h.doRebase sl first last col hs
  | pathPrefer p => exact h.prefers sl p hs
  | _ => exact h.reads (by simp [State.perform, Reply.plain, Reply.refuse, State.lawView, State.port, State.slot]) hs

theorem answerRequest (sl : SlotId) (tag : Byte) (r : Request) (hs : P s) : P (s.answerRequest sl tag r) := by
  have hanswer {t : State} (ht : P t) (k : Byte) (c : Result) (data : AnswerData) : P (t.answer sl tag k c data) :=
    h.reads (by simp [State.lawView, State.port, State.slot]) ht
  refine State.answerRequest_cases (fun c => hanswer hs _ _ _) (fun hstarted => hanswer (h.perform sl r hstarted hs) _ _ _)
    (fun _ => h.reads (by simp [State.lawView, State.port, State.slot]) hs) (fun codes _ _ _ => ?_) (fun _ _ => h.restarts tag hs)
  refine h.reads ?_ hs
  unfold State.acceptStore
  dsimp only
  split <;> rfl

theorem takeRequest (sl : SlotId) (tag : Byte) (r : Request) (hs : P s) : P (s.takeRequest sl tag r) :=
  State.takeRequest_cases hs (fun _ => h.reads (s := s) rfl hs) fun _ => h.answerRequest sl tag r hs

/-! ### Deliveries -/

theorem feedReceiver (d : Desk) (lane : Option (List Byte)) (hs : P s) : P (s.feedReceiver d lane) := by
  unfold State.feedReceiver
  dsimp only
  split
  · exact h.takeRequest _ _ _ (h.reads (s := s) rfl hs)
  · exact h.reads (s := s) rfl hs

theorem absorb (d : Desk) (dl : Delivery) (hs : P s) : P (s.absorb d dl) := by
  refine h.feedReceiver d dl.lane (h.modSlot d ?_ hs)
  unfold Slot.absorb Slot.takeAudio
  dsimp only
  repeat' split
  all_goals rfl

theorem takeDelivery (p : LinkPort) (dl : Delivery) (hs : P s) : P (s.takeDelivery p dl) := by
  unfold State.takeDelivery
  split
  · exact hs
  next d _ =>
    have hfades := h.fadeInEnd d (h.fadeOutEnd d hs)
    dsimp only
    split
    · split
      · exact h.absorb d dl hfades
      · exact hfades
    · exact hs

theorem takeReturned (d : Desk) (hs : P s) : P (s.takeReturned d) := by
  unfold State.takeReturned
  split
  · exact hs
  split
  · exact hs
  split
  · exact h.absorb d _ (h.modPort _ rfl hs)
  · exact hs

theorem settleReturned (hs : P s) : P s.settleReturned := fold (fun d _ => h.takeReturned d) _ hs

/-! ### Losses, windows and locks -/

theorem portLoss (p : LinkPort) {next : PortState} (hnext : next = .dark ∨ next = .seeking) (hs : P s) : P (s.portLoss p next) := by
  have hfades : P (s.fadeEndsOn p) := by
    unfold State.fadeEndsOn
    split
    · split
      · exact h.fadeInEnd _ (h.fadeOutEnd _ hs)
      · exact hs
    · exact hs
  have hdark : (((s.fadeEndsOn p).port p).lose next).usable = false := by
    rcases hnext with rfl | rfl <;> rfl
  exact h.loses p hdark hfades

theorem errorWindowComplete (p : LinkPort) (hs : P s) : P (s.errorWindowComplete p) := by
  have hwindow : P (s.modPort p Port.completeWindow) := by
    refine h.modPort p ?_ hs
    unfold Port.completeWindow Port.shows Port.usable
    dsimp only
    split
    next hstate =>
      split
      · simp [hstate]
      · rfl
    next hstate =>
      split
      · simp [hstate]
      · rfl
    · rfl
    · rfl
  unfold State.errorWindowComplete
  dsimp only
  split
  · split
    · exact hwindow
    · exact h.qualityEvent p hwindow
  · exact hs

theorem loseAtPeriodEnd (p : LinkPort) (windowFirst : Bool) (hs : P s) : P (s.loseAtPeriodEnd p windowFirst) := by
  unfold State.loseAtPeriodEnd
  split
  · exact h.portLoss p (.inr rfl) (h.errorWindowComplete p hs)
  · exact h.portLoss p (.inr rfl) hs

theorem lockedPeriod (p : LinkPort) {judge : Port → Port} (hjudge : ∀ r, (judge r).shows = r.shows) (own : Port → Delivery)
    (lost : Port → Bool) (windowFirst : Bool) (hs : P s) : P (s.lockedPeriod p judge own lost windowFirst) := by
  have hdeliver (r : Port) (dl : Delivery) : (r.deliver dl).1.shows = r.shows := by
    unfold Port.deliver
    dsimp only
    repeat' split
    all_goals rfl
  have hjudged (o : Option Delivery) : P (match o with
      | some dl => ((s.errorWindowComplete p).modPort p fun _ =>
          ((judge ((s.errorWindowComplete p).port p)).countPeriod.deliver (own ((s.errorWindowComplete p).port p))).1).takeDelivery p dl
      | none => (s.errorWindowComplete p).modPort p fun _ =>
          ((judge ((s.errorWindowComplete p).port p)).countPeriod.deliver (own ((s.errorWindowComplete p).port p))).1) := by
    have hr : P ((s.errorWindowComplete p).modPort p fun _ =>
        ((judge ((s.errorWindowComplete p).port p)).countPeriod.deliver (own ((s.errorWindowComplete p).port p))).1) :=
      h.modPort p ((hdeliver ..).trans (hjudge _)) (h.errorWindowComplete p hs)
    cases o with
    | none => exact hr
    | some dl => exact h.takeDelivery p dl hr
  unfold State.lockedPeriod
  dsimp only
  split
  · exact h.loseAtPeriodEnd p windowFirst (hjudged _)
  · exact hjudged _

theorem openPeriod (p : LinkPort) (hs : P s) : P (s.openPeriod p) := by
  unfold State.openPeriod
  refine h.modPort p rfl ?_
  split
  · refine fold (fun d _ hs => ?_) _ (h.modPort p rfl hs)
    split
    · exact h.modSlot d rfl hs
    · exact hs
  · exact hs

theorem seekFrame (p : LinkPort) (f : StageFrame) (hseek : (s.port p).state = .seeking) (hs : P s) : P (s.seekFrame p f) := by
  have hdark : (s.port p).usable = false := by
    unfold Port.usable
    rw [hseek]
    rfl
  unfold State.seekFrame
  dsimp only
  split
  · exact h.modPort p rfl hs
  · exact h.takeDelivery p _ (h.settleReturned (h.locks p f.ident _ hdark rfl rfl rfl hs))

theorem validFrame (p : LinkPort) (f : StageFrame) (windowFirst : Bool) (hs : P s) : P (s.validFrame p f windowFirst) := by
  have hopen := h.openPeriod p hs
  have haccept (r : Port) : (r.accept f).shows = r.shows := by
    unfold Port.accept
    dsimp only
    split <;> rfl
  unfold State.validFrame
  dsimp only
  cases hstate : (s.port p).state with
  | dark => exact hs
  | seeking => exact h.seekFrame p f (by rw [State.openPeriod_port]; exact hstate) hopen
  | locked | errored =>
    dsimp only
    split
    · exact h.lockedPeriod p haccept _ _ _ hopen
    · exact h.lockedPeriod p (judge := Port.mismatch) (fun _ => rfl) _ _ _ hopen

theorem crcFailedFrame (p : LinkPort) (hs : P s) : P (s.crcFailedFrame p) := by
  have hopen := h.openPeriod p hs
  unfold State.crcFailedFrame
  dsimp only
  split
  · exact hs
  · exact h.modPort p rfl hopen
  · exact h.lockedPeriod p (judge := Port.crcFailed) (fun _ => rfl) _ _ _ hopen
  · exact h.lockedPeriod p (judge := Port.crcFailed) (fun _ => rfl) _ _ _ hopen

theorem missingPeriod (p : LinkPort) (windowFirst : Bool) (hs : P s) : P (s.missingPeriod p windowFirst) := by
  unfold State.missingPeriod
  split
  · exact h.lockedPeriod p (judge := Port.missing) (fun _ => rfl) _ _ _ hs
  · exact h.loseAtPeriodEnd p windowFirst (h.modPort p rfl (h.errorWindowComplete p hs))

theorem missingFrame (p : LinkPort) (windowFirst : Bool) (hs : P s) : P (s.missingFrame p windowFirst) := by
  have hopen := h.openPeriod p hs
  unfold State.missingFrame
  dsimp only
  split
  · exact hs
  · exact h.modPort p rfl hopen
  · exact h.missingPeriod p windowFirst hopen
  · exact h.missingPeriod p windowFirst hopen

theorem lightMeasurement (p : LinkPort) (reading : LightReading) (hs : P s) : P (s.lightMeasurement p reading) := by
  have hcode : P (s.modPort p fun r => { r with lightCode := reading.code, lightFrames := 0 }) := h.modPort p rfl hs
  unfold State.lightMeasurement
  dsimp only
  split
  · cases hstate : (s.port p).state with
    | dark | seeking =>
      dsimp only
      split <;> first | exact hcode | skip
      refine h.modPort p ?_ hcode
      simp [Port.shows, Port.usable, hstate]
    | locked | errored =>
      dsimp only
      split
      · exact h.portLoss p (.inl rfl) hcode
      · exact hcode
  · exact hs

/-! ### The panel and the boundary -/

theorem requestWrite (message : List Byte) (hs : P s) : P (s.requestWrite message) := by
  unfold State.requestWrite
  refine h.reads (s := if s.panelReady then s.takeWritten message else s) rfl ?_
  split
  · unfold State.takeWritten
    split
    · exact h.takeRequest _ _ _ hs
    · exact hs
  · exact hs

theorem applyStaged (sl : SlotId) : ∀ (es : List Staged) {s : State}, P s → P (s.applyStaged sl es).1
  | [], _, hs => hs
  | e :: es, s, hs => by
    have hwritten : P (if s.stagedRefused sl e then (s, some .notOwner) else
        match paramOf e.index with
        | some p => if s.stagedReplaced sl e es then (s, none) else s.writeParam sl p e.value
        | none => (s, some .noSuch) : State × Option Result).1 := by
      split
      · exact hs
      split
      · split
        · exact hs
        · exact h.writes _ _ _ hs
      · exact hs
    unfold State.applyStaged
    dsimp only
    split
    · exact applyStaged sl es hwritten
    · exact applyStaged sl es hwritten

theorem batchEffect (sl : SlotId) (hs : P s) : P (s.batchEffect sl) := by
  unfold State.batchEffect
  dsimp only
  split
  · exact h.reads (s := (s.applyStaged sl (s.batch sl).staged).1) (by simp [State.lawView, State.port, State.slot])
      (h.applyStaged sl _ hs)
  · exact hs

theorem digestCadence (hs : P s) : P s.digestCadence := by
  unfold State.digestCadence
  split
  · refine fold (fun sl s hs => ?_) _ (h.reads (s := s) rfl hs)
    split
    · exact h.digests sl hs
    · exact hs
  · exact hs

/-! ### The frame period -/

theorem outputsDue (hs : P s) : P s.outputsDue := h.reads (s := s) rfl hs

theorem boundaryDue (hs : P s) : P s.boundaryDue :=
  h.digestCadence (fold (fun sl _ hs => h.batchEffect sl hs) _
    (h.reads (s := s) (by simp [State.lawView, State.port, State.slot]) hs))

theorem takeDue (hs : P s) : P s.takeDue := by
  have hfront (i : Instr) (hi : i.isFrontEnd = true) {s : State} (hs : P s) : P (i.effect s) := h.frontEnd i hi hs
  have hwindows : P s.windowsDue := fold (fun p _ hs => h.settleReturned (h.errorWindowComplete p hs)) _ hs
  have hfades : P s.windowsDue.fadesDue := fold (fun d _ hs => h.settleReturned (h.fadeInEnd d (h.fadeOutEnd d hs))) _ hwindows
  have hgrace : P s.windowsDue.fadesDue.graceDue := fold (fun d _ hs => h.grace d hs) _ hfades
  have hchannels : P s.windowsDue.fadesDue.graceDue.channelsDue :=
    fold (fun i _ hs => hfront (.retryTimerExpiry i) rfl (hfront (.holdEnd i) rfl (hfront (.markerTimeout i) rfl hs))) _ hgrace
  have htalk : P s.windowsDue.fadesDue.graceDue.channelsDue.outputsDue.talkDue :=
    fold (fun b _ hs => h.expires b hs) _ (h.outputsDue hchannels)
  exact h.starts (hfront .pollSlot rfl (hfront .settingSlot rfl (h.boundaryDue htalk)))

theorem closeSlots (hs : P s) : P s.closeSlots := by
  have hidle (r : Slot) : (if r.produced then r else r.idlePeriod).shows = r.shows := by
    unfold Slot.idlePeriod
    repeat' split
    all_goals rfl
  refine h.reads ?_ (h.settleReturned hs)
  have hslots : (fun d => (s.closeSlots.slot d).shows) = fun d => (s.settleReturned.slot d).shows := by
    funext d
    show ((s.settleReturned.slots.map fun _ (r : Slot) => if r.produced then r else r.idlePeriod).get d).shows = _
    rw [PerDesk.get_map]
    exact hidle _
  show (_, (fun d => (s.closeSlots.slot d).shows), _) = _
  rw [hslots]
  rfl

theorem framePeriod (lanes : List Sample) (talk : Sample) (hs : P s) : P (s.framePeriod lanes talk) :=
  h.frames lanes talk (h.closeSlots (h.takeDue hs))

/-! ### Every command -/

theorem effect (i : Instr) (hi : i.isFullReset = false) (hs : P s) : P (i.effect s) := by
  cases i with
  | fullReset straps => cases hi
  | lightMeasurement p reading => exact h.settleReturned (h.lightMeasurement p reading hs)
  | validFrame p f windowFirst => exact h.settleReturned (h.validFrame p f windowFirst hs)
  | crcFailedFrame p => exact h.settleReturned (h.crcFailedFrame p hs)
  | missingFrame p windowFirst => exact h.settleReturned (h.missingFrame p windowFirst hs)
  | errorWindowComplete p => exact h.settleReturned (h.errorWindowComplete p hs)
  | fadeOutEnd d => exact h.fadeOutEnd d hs
  | fadeInEnd d => exact h.settleReturned (h.fadeInEnd d hs)
  | graceExpiry d => exact h.grace d hs
  | framePeriod lanes stageTalk => exact h.framePeriod lanes stageTalk hs
  | trimRampStep | gainChangeMarker | settingSlot | settingAnswer | settingNoAnswer | markerTimeout | holdEnd | retryTimerExpiry
  | pollSlot | pollAnswer | pollUnanswered => exact h.frontEnd _ rfl hs
  | talkTimeout b => exact h.expires b hs
  | batchEffect slot => exact h.batchEffect slot hs
  | digestCadence => exact h.digestCadence hs
  | loadEnd silentFrom => exact h.loads silentFrom hs
  | startupComplete => exact h.starts hs
  | pathPrefer slot tag port => exact h.settleReturned (h.takeRequest _ _ _ hs)
  | requestWrite message => exact h.settleReturned (h.requestWrite message hs)
  | unknownKind | get | writeDesiredSetting | writeColumnMode | writeCrosspoint | writeDuckCeiling | writeOutputSource
  | writeOutputLevel | writeOverride | writeTalkClass | writeTalkLimit | writeGraceTime | writeRevertHoldTime | writeOtherIndex
  | setWindowMatrix | setWindowRun | claim | release | forceRelease | clearTrespass | batchOpen | batchApply | batchDrop | talkPress
  | talkRelease | rebase | clearOvers | recallSafe | describe | store | restart | metersOn | metersOff => exact h.takeRequest _ _ _ hs
  | storeRecordChecked readBack =>
    refine h.reads ?_ hs
    show (s.storeRecordChecked readBack).lawView = s.lawView
    unfold State.storeRecordChecked
    dsimp only
    repeat' split
    all_goals rfl
  | powerLoss =>
    refine h.reads ?_ hs
    show s.powerLoss.lawView = s.lawView
    unfold State.powerLoss State.abandonStore
    dsimp only
    split <;> rfl
  | levelRampStep level => exact h.reads (s := s) (by cases level <;> rfl) hs
  | messageRead =>
    refine h.reads ?_ hs
    show s.messageRead.lawView = s.lawView
    unfold State.messageRead
    repeat' split
    all_goals rfl
  | duckReleaseStep | statusRead | unknownTransaction => exact h.reads (s := s) rfl hs
  | _ => exact h.reads (by simp [Instr.effect, State.lawView, State.port, State.slot]) hs

/-- A law that stands at a full reset, that every operation keeps and that reads nothing of the queue is kept by every step. -/
theorem step (hreset : ∀ straps s, P (State.fullReset straps s)) (s t : State) (hs : P s) (ht : Sys2Proof.Machine.step s = .next t) : P t :=
  step_keeps_powered P (fun u _ hs => h.reads (s := u) rfl hs) hreset (fun i _ hi _ hs => h.effect i hi hs) s t hs ht

end
end Stable
end Sys2Proof.Machine

/-!
The attachment law under every command (R22 to R43).
-/
namespace Sys2Proof.Machine

section
variable {s t : State} {p : LinkPort}

/-- The attachment law reads what the ports show, the slots and the wait list. -/
theorem State.AttachLawful.reads (h : s.AttachLawful) (hports : ∀ p, (t.port p).shows = (s.port p).shows)
    (hslots : ∀ d, (t.slot d).tableSeat = (s.slot d).tableSeat) (hwait : t.waitList = s.waitList) : t.AttachLawful := by
  obtain ⟨hcarried, hlaw, hvacancy⟩ := State.attachLawful_iff.mp h
  have hcarries (r : Port) : r.carries = r.shows.bind Prod.fst := by
    unfold Port.carries Port.shows
    split <;> rfl
  have htable : t.table = s.table := by
    unfold State.table
    simp only [hcarries, hports, hslots, hwait]
  refine State.attachLawful_iff.mpr ⟨fun p hp => ?_, htable ▸ hlaw, htable ▸ hvacancy⟩
  have hshown := hports p
  rw [Port.shows, if_pos hp, Port.shows] at hshown
  split at hshown
  next hs =>
    obtain ⟨hident, hrole⟩ := Prod.mk.inj (Option.some.inj hshown)
    rw [hident, hrole]
    exact hcarried p hs
  · cases hshown

/-- A loss event of a port that carries no frames changes nothing that the law reads. -/
theorem State.AttachLawful.lossEvent_dark (h : s.AttachLawful) (hdark : (s.port p).usable = false) {r : Port} (hr : r.usable = false) :
    ((s.modPort p fun _ => r).lossEvent p).AttachLawful := by
  obtain ⟨hcarried, hlaw, -⟩ := State.attachLawful_iff.mp h
  have hpdark : s.table.carries p = none := Port.carries_of_not_usable hdark
  have hlost : ((s.modPort p fun _ => r).unlisted p).AttachLawful := by
    refine h.reads (fun q => ?_) (fun _ => rfl) ?_
    · show ((s.modPort p fun _ => r).port q).shows = _
      rw [State.port_modPort]
      split
      next hq =>
        rw [hq, Port.shows, Port.shows, hr, hdark]
        rfl
      · rfl
    · refine List.filter_eq_self.mpr fun q hq => decide_eq_true fun hqp : q = p => ?_
      exact (hlaw.waiting.2 q hq).1 (hqp ▸ hpdark)
  cases hbound : (s.modPort p fun _ => r).boundTo p with
  | none =>
    rw [State.lossEvent_of_unbound hbound]
    exact hlost
  | some d =>
    have hpd : p ∈ (s.slot d).bound := State.mem_of_boundTo (s := s.modPort p fun _ => r) hbound
    have hinuse : (s.slot d).state ≠ .vacant := hlaw.inUse (d := d) hpd
    have hnone : (s.modPort p fun _ => r).surplusPort (s.slot d).ident = none := by
      refine State.surplusPort_eq_none fun q hfree hq hseen => ?_
      by_cases hqp : q = p
      · rw [hqp, State.port_modPort_same, hr] at hq
        cases hq
      · have hsame : (s.modPort p fun _ => r).port q = s.port q := (State.port_modPort ..).trans (if_neg hqp)
        rw [hsame] at hq hseen
        have hqfree : s.table.Free q := ⟨(hcarried.usable_iff q).mp hq, hfree⟩
        have hident : (s.slot d).ident = s.table.carries q := hseen.symm.trans (Port.carries_of_usable hq).symm
        exact (hlaw.both q d hqfree (by simp) hinuse hident).2 p hpd hpdark
    have hother : ¬((s.slot d).state = .active ∧ (s.slot d).active = some p) := fun hactive => by
      obtain ⟨x, hx, -, hxc⟩ := hlaw.activePath d hactive.1
      have hx : (s.slot d).active = some x := hx
      rw [hactive.2] at hx
      exact hxc (Option.some.inj hx ▸ hpdark)
    have hslot : (s.modPort p fun _ => r).slot d = s.slot d := rfl
    rw [State.lossEvent_of_bound hbound, hslot, hnone, if_neg hother, Option.isSome_none, if_neg Bool.false_ne_true]
    exact hlost

theorem State.Moves.pathPrefer (sl : SlotId) (code : Nat) (s : State) : s.Moves (s.pathPrefer sl code).1 := by
  have hprefer (d : Desk) (p : LinkPort) : s.Moves (s.preferFor d p).1 := by
    unfold State.preferFor
    dsimp only
    split
    · exact .refl s
    next hbound =>
      split
      · exact .refl s
      split
      · exact .refl s
      next hlocked =>
        split
        · exact .refl s
        · exact .switchover d (not_not.mp hbound) (not_not.mp hlocked)
  unfold State.pathPrefer
  split
  · exact .refl s
  split
  · exact hprefer _ _
  split
  · exact hprefer _ _
  · exact .refl s

/-- The front end has no part in the attachments, the talk buses and start-up. -/
theorem Instr.frontEnd_links (i : Instr) (hi : i.isFrontEnd = true) (s : State) :
    (i.effect s).ports = s.ports ∧ (i.effect s).slots = s.slots ∧ (i.effect s).waitList = s.waitList ∧ (i.effect s).buses = s.buses ∧
      (i.effect s).started = s.started ∧ (i.effect s).config = s.config := by
  cases i <;> first | exact absurd hi Bool.false_ne_true | simp [Instr.effect]

/-- What a frame makes of a port and of a slot shows the same. -/
theorem State.formFrame_shows (lanes : List Sample) (talk : Sample) (s : State) :
    (∀ p, ((s.formFrame lanes talk).port p).shows = (s.port p).shows) ∧
      ∀ d, ((s.formFrame lanes talk).slot d).shows = (s.slot d).shows := by
  refine ⟨fun p => ?_, fun d => ?_⟩
  · have hport : (s.formFrame lanes talk).port p = (s.port p).tick := PerPort.get_map ..
    rw [hport]
    rfl
  · have hslot : (s.formFrame lanes talk).slot d = (s.slot d).tick := PerDesk.get_map ..
    rw [hslot]
    rfl

end

/-- The attachment law is kept by every operation on what it reads. -/
theorem State.AttachLawful.stable : Stable State.AttachLawful where
  reads hview h := by
    simp only [State.lawView, Prod.mk.injEq] at hview
    obtain ⟨hports, hslots, hwait, -⟩ := hview
    exact h.reads (congrFun hports) (fun d => congrArg Prod.fst (congrFun hslots d)) hwait
  recheck d s h := h.moves (.recheck d s)
  loses p r s hr h := by
    cases husable : (s.port p).usable with
    | true => exact h.lossEvent husable hr
    | false => exact h.lossEvent_dark husable hr
  locks p r x asked s hdark husable hseen hrole h := h.lockEvent hdark husable hseen hrole asked
  grace d s h := h.graceExpiry d
  prefers sl code s h := h.moves (.pathPrefer sl code s)
  frontEnd i hi s h := by
    obtain ⟨hports, hslots, hwait, -⟩ := Instr.frontEnd_links i hi s
    exact h.moves (.of_eq hports hwait hslots)
  writes sl p v s h := h.moves (.sameLinks (.writeParam sl p v s))
  rebases col first last s h := h.moves (.of_eq rfl rfl rfl)
  presses sl n s _ h := h.moves (.of_eq (by simp) (by simp) (by simp))
  releases sl n s h := h.moves (.of_eq (by simp) (by simp) (by simp))
  expires b s h := h.moves (.of_eq rfl rfl rfl)
  digests sl s h := h.moves (.of_eq (by simp) (by simp) (by simp))
  restarts tag s _ := State.reset_attachLawful.moves (.of_eq rfl rfl rfl)
  loads silentFrom s h := h.moves (.of_eq (by simp) (by simp) (by simp))
  starts {s} h := h.moves (.of_eq (by simp) (by simp) (by simp))
  frames lanes talk s h := h.reads (s.formFrame_shows lanes talk).1 (fun d => congrArg Prod.fst ((s.formFrame_shows lanes talk).2 d))
    (by simp)

/-- Settles O7: the full reset sets the law up, and every operation of the attachment unit keeps it, port by port. -/
theorem attachmentTableStaysLawful : Obligations.AttachmentTableStaysLawful :=
  State.AttachLawful.stable.step fun _ _ => State.reset_attachLawful.moves (.of_eq rfl rfl rfl)

end Sys2Proof.Machine

/-!
The law of the talk buses under every command (R105 to R121).
-/
namespace Sys2Proof.Machine

section
variable {s t : State}

/-! ### The law bus by bus -/

/-- A bus of a state obeys its law. -/
def State.BusLawful (s : State) (b : BusRec) : Prop := b.Lawful (fun x => s.slotState x = .active) s.talkClassOf

theorem State.TalkLawful.bus (h : s.TalkLawful) (b : Bus) : s.BusLawful (s.bus b) := by
  cases b with
  | tb1 => exact h.tb1
  | tb2 => exact h.tb2

/-- The law of another state, bus by bus: a bus that has nobody gets nobody before start-up. -/
theorem State.TalkLawful.of_buses (h : s.TalkLawful) (hbus : ∀ b, t.BusLawful (t.bus b))
    (hidle : ∀ b, (s.bus b).talker = none → (t.bus b).talker = none) (hstarted : t.started = s.started)
    (hloading : t.config.loading = s.config.loading) : t.TalkLawful where
  tb1 := hbus .tb1
  tb2 := hbus .tb2
  idleBefore ht := by
    obtain ⟨h1, h2⟩ := h.idleBefore (hstarted ▸ ht)
    exact ⟨hidle .tb1 h1, hidle .tb2 h2⟩
  loadFirst ht := hstarted.trans (h.loadFirst (hloading ▸ ht))

/-- The states and classes of the slots, which the law of a bus reads. -/
theorem State.talkers_congr (hslots : ∀ d, (t.slot d).state = (s.slot d).state ∧ (t.slot d).talkClass = (s.slot d).talkClass)
    (hclass : t.panelClass = s.panelClass) : t.slotState = s.slotState ∧ t.talkClassOf = s.talkClassOf := by
  refine ⟨funext fun x => ?_, funext fun x => ?_⟩
  · cases x with
    | panel => rfl
    | desk d => exact (hslots d).1
  · cases x with
    | panel => exact hclass
    | desk d => exact (hslots d).2

theorem State.TalkLawful.congr (h : s.TalkLawful)
    (hslots : ∀ d, (t.slot d).state = (s.slot d).state ∧ (t.slot d).talkClass = (s.slot d).talkClass)
    (hclass : t.panelClass = s.panelClass) (hbuses : t.buses = s.buses) (hstarted : t.started = s.started)
    (hloading : t.config.loading = s.config.loading) : t.TalkLawful := by
  obtain ⟨hstate, hcls⟩ := State.talkers_congr hslots hclass
  have hbus (b : Bus) : t.bus b = s.bus b := by rw [State.bus, hbuses, State.bus]
  refine h.of_buses (fun b => ?_) (fun b hb => (hbus b).symm ▸ hb) hstarted hloading
  unfold State.BusLawful
  rw [hbus, hstate, hcls]
  exact h.bus b

/-- A bus changes in a lawful way, and gets nobody while it has nobody. -/
theorem State.TalkLawful.mapBuses (h : s.TalkLawful) {f : Bus → BusRec → BusRec}
    (hlaw : ∀ b, s.BusLawful (s.bus b) → s.BusLawful (f b (s.bus b)))
    (hidle : ∀ b, (s.bus b).talker = none → (f b (s.bus b)).talker = none) :
    State.TalkLawful { s with buses := { tb1 := f .tb1 s.buses.tb1, tb2 := f .tb2 s.buses.tb2 } } :=
  h.of_buses
    (fun b => by
      cases b with
      | tb1 => exact hlaw .tb1 h.tb1
      | tb2 => exact hlaw .tb2 h.tb2)
    (fun b => by
      cases b with
      | tb1 => exact hidle .tb1
      | tb2 => exact hidle .tb2) rfl rfl

theorem State.TalkLawful.modBus (h : s.TalkLawful) (b : Bus) {f : BusRec → BusRec} (hlaw : s.BusLawful (s.bus b) → s.BusLawful (f (s.bus b)))
    (hidle : s.started = false → (s.bus b).talker = none → (f (s.bus b)).talker = none) : (s.modBus b f).TalkLawful := by
  have hget (c : Bus) : (s.modBus b f).bus c = if c = b then f (s.bus b) else s.bus c := PerBus.get_set ..
  have hlaw' (c : Bus) : s.BusLawful ((s.modBus b f).bus c) := by
    rw [hget]
    split
    · exact hlaw (h.bus b)
    · exact h.bus c
  have hidle' (hstarted : s.started = false) (c : Bus) (hc : (s.bus c).talker = none) : ((s.modBus b f).bus c).talker = none := by
    rw [hget]
    split
    next hcb => exact hidle hstarted (hcb ▸ hc)
    · exact hc
  exact
    { tb1 := hlaw' .tb1
      tb2 := hlaw' .tb2
      idleBefore := fun ht => ⟨hidle' ht .tb1 (h.idleBefore ht).1, hidle' ht .tb2 (h.idleBefore ht).2⟩
      loadFirst := h.loadFirst }

/-! ### The slots -/

/-- A slot changes neither its state nor its class, or it is on no bus before the change. -/
theorem State.TalkLawful.modSlot (h : s.TalkLawful) (d : Desk) {f : Slot → Slot}
    (hf : (f (s.slot d)).state = (s.slot d).state ∧ (f (s.slot d)).talkClass = (s.slot d).talkClass ∨ (s.slot d).state ≠ .active) :
    (s.modSlot d f).TalkLawful := by
  rcases hf with ⟨hstate, hclass⟩ | hoff
  · refine h.congr (fun e => ?_) rfl rfl rfl rfl
    rw [State.slot_modSlot]
    split
    next he => rw [he]; exact ⟨hstate, hclass⟩
    · exact ⟨rfl, rfl⟩
  · have hother {e : Desk} (he : e ≠ d) : (s.modSlot d f).slot e = s.slot e := (State.slot_modSlot ..).trans (if_neg he)
    have hactive (x : SlotId) (hx : s.slotState x = .active) :
        (s.modSlot d f).slotState x = .active ∧ (s.modSlot d f).talkClassOf x = s.talkClassOf x := by
      cases x with
      | panel => exact ⟨rfl, rfl⟩
      | desk e =>
        have he : e ≠ d := by
          rintro rfl
          exact hoff hx
        exact ⟨(congrArg Slot.state (hother he)).trans hx, congrArg Slot.talkClass (hother he)⟩
    refine h.of_buses (fun b => ?_) (fun _ hb => hb) rfl rfl
    exact (h.bus b).mono (fun x hx => (hactive x hx).1) fun x hx => (hactive x ((h.bus b).waitingActive x hx)).2

theorem State.TalkLawful.switchover (h : s.TalkLawful) (d : Desk) (q : LinkPort) : (s.switchover d q).TalkLawful := by
  have hmoved := h.modSlot d (f := Slot.moved q) (.inl ⟨rfl, rfl⟩)
  cases hframe : s.hitlessFrame d q with
  | none =>
    rw [State.switchover_concealed d q s hframe]
    refine State.TalkLawful.modSlot (s := (s.modSlot d (Slot.moved q)).modLane d _) ?_ d (.inl ⟨rfl, rfl⟩)
    exact hmoved.congr (fun _ => ⟨rfl, rfl⟩) rfl rfl rfl rfl
  | some f =>
    rw [State.switchover_hitless d q s hframe]
    exact hmoved.congr (fun _ => ⟨rfl, rfl⟩) rfl rfl rfl rfl

theorem State.TalkLawful.recheck (h : s.TalkLawful) (d : Desk) : (s.recheck d).TalkLawful := by
  unfold State.recheck
  dsimp only
  split
  · split
    · split
      · exact h.switchover d _
      · exact h
    · exact h
  · exact h

theorem BusRec.remove_idle {b : BusRec} {limit : Nat} {sl : SlotId} (h : b.talker = none) : (b.remove limit sl).talker = none := by
  unfold BusRec.remove BusRec.release
  rw [if_neg (by rw [h]; nofun)]
  split <;> exact h

/-- A slot that becomes SILENT leaves both buses (R119). -/
theorem State.TalkLawful.becomeSilent (h : s.TalkLawful) (d : Desk) : (s.becomeSilent d).TalkLawful := by
  have hother {e : Desk} (he : e ≠ d) : (s.fallSilent d).slot e = s.slot e :=
    (State.slot_modSlot s d e (Slot.silenced s.graceTime)).trans (if_neg he)
  have hown : (s.fallSilent d).slot d = (s.slot d).silenced s.graceTime := State.slot_modSlot_same s d (Slot.silenced s.graceTime)
  have hclass : (s.fallSilent d).talkClassOf = s.talkClassOf := funext fun x => by
    cases x with
    | panel => rfl
    | desk e =>
      show ((s.fallSilent d).slot e).talkClass = (s.slot e).talkClass
      by_cases he : e = d
      · rw [he, hown]
        unfold Slot.silenced
        split <;> rfl
      · rw [hother he]
  have hactive (x : SlotId) (hx : x ≠ .desk d) (hstate : s.slotState x = .active) : (s.fallSilent d).slotState x = .active := by
    cases x with
    | panel => rfl
    | desk e =>
      have he : e ≠ d := fun hed => hx (hed ▸ rfl)
      exact (congrArg Slot.state (hother he)).trans hstate
  have hsilent : (s.fallSilent d).TalkLawful := by
    have hremove (b : BusRec) (hb : s.BusLawful b) : (s.fallSilent d).BusLawful (b.remove s.grantLimit (.desk d)) := by
      unfold State.BusLawful
      rw [hclass]
      exact BusRec.Lawful.remove hb s.grantLimit (.desk d) hactive
    refine h.of_buses (fun b => ?_) (fun b hb => ?_) rfl rfl
    · cases b with
      | tb1 => exact hremove _ h.tb1
      | tb2 => exact hremove _ h.tb2
    · cases b with
      | tb1 => exact BusRec.remove_idle hb
      | tb2 => exact BusRec.remove_idle hb
  rw [State.becomeSilent_eq]
  obtain ⟨bs, ls, hbatch⟩ := State.discardBatch_only d (s.fallSilent d)
  obtain ⟨outs, hout⟩ := State.returnsLost_only d ((s.fallSilent d).discardBatch (.desk d))
  rw [hout, hbatch]
  exact hsilent.congr (fun _ => ⟨rfl, rfl⟩) rfl rfl rfl rfl

/-! ### Digests and binding -/

theorem State.TalkLawful.clearNotices (h : s.TalkLawful) (sl : SlotId) : (s.clearNotices sl).TalkLawful := by
  have hclear := h.mapBuses (f := fun _ b => b.clearNotice sl) (fun _ hb => hb.clearNotice sl) (fun _ hb => hb)
  cases sl with
  | panel => exact hclear.congr (fun _ => ⟨rfl, rfl⟩) rfl rfl rfl rfl
  | desk d => exact hclear.congr (fun _ => ⟨rfl, rfl⟩) rfl rfl rfl rfl

theorem State.TalkLawful.buildDigest (h : s.TalkLawful) (sl : SlotId) : (s.buildDigest sl).TalkLawful := by
  have hclear := h.clearNotices sl
  cases sl with
  | panel =>
    refine hclear.congr (t := s.buildDigest .panel) (fun d => ?_) ?_ ?_ ?_ ?_
    · unfold State.slot
      simp
    · exact congrArg Prod.fst ((s.buildDigest_side .panel).trans (s.clearNotices_side .panel).symm)
    · unfold State.buildDigest
      dsimp only
      simp
    · simp
    · simp
  | desk d => exact hclear.congr (fun _ => ⟨rfl, rfl⟩) rfl rfl rfl rfl

theorem State.TalkLawful.returnsRegained (h : s.TalkLawful) (d : Desk) : (s.returnsRegained d).TalkLawful := by
  obtain ⟨outs, hout⟩ := State.returnsRegained_only d s
  rw [hout]
  exact h.congr (fun _ => ⟨rfl, rfl⟩) rfl rfl rfl rfl

theorem State.TalkLawful.revive (h : s.TalkLawful) (d : Desk) (p : LinkPort) (hsilent : (s.slot d).state ≠ .active) :
    (s.revive d p).TalkLawful :=
  ((h.modSlot d (f := Slot.revived p) (.inr hsilent)).returnsRegained d).buildDigest (.desk d)

theorem State.TalkLawful.bindStep1 (h : s.TalkLawful) (d : Desk) (p : LinkPort) : (s.bindStep1 d p).TalkLawful := by
  rcases s.bindStep1_cases d p with ⟨hsame, -⟩ | ⟨f, hstep, hf⟩
  · rw [hsame]
    exact h
  · have hseat : (f (s.slot d)).state = (s.slot d).state ∧ (f (s.slot d)).talkClass = (s.slot d).talkClass := by
      rcases hf with ⟨hf, -⟩ | ⟨q, rfl, -⟩
      · rw [hf]; exact ⟨rfl, rfl⟩
      · exact ⟨rfl, rfl⟩
    have hbound := h.modSlot d (f := f) (.inl hseat)
    rw [hstep]
    split
    next hsilent =>
      refine hbound.revive d p ?_
      rw [State.slot_modSlot_same, hseat.1, hsilent]
      nofun
    · exact hbound.recheck d

theorem State.TalkLawful.enroll (h : s.TalkLawful) (d : Desk) (p : LinkPort) (x : DeskId) (asked : Role) (hvacant : (s.slot d).state ≠ .active) :
    (s.enroll d p x asked).TalkLawful := by
  have hseated : (s.seated d p x asked).TalkLawful :=
    (h.modSlot d (f := fun _ => Slot.admitted p x (s.roleGiven d asked)) (.inr hvacant)).congr (fun _ => ⟨rfl, rfl⟩) rfl rfl rfl rfl
  have hwelcomed : ((s.seated d p x asked).welcomed d).TalkLawful := by
    obtain ⟨ls, m, os, outs, hwelcome⟩ := (s.seated d p x asked).welcomed_only d
    rw [hwelcome]
    exact hseated.congr (fun _ => ⟨rfl, rfl⟩) rfl rfl rfl rfl
  rw [State.enroll_eq]
  exact (State.foldOver_keeps State.TalkLawful _ (fun q _ hs => hs.bindStep1 d q) _ _ hwelcomed).buildDigest (.desk d)

theorem State.TalkLawful.lockUnbound (h : s.TalkLawful) (p : LinkPort) (x : DeskId) (asked : Role) : (s.lockUnbound p x asked).TalkLawful := by
  unfold State.lockUnbound
  split
  · exact h.bindStep1 _ p
  split
  next d hfirst => exact h.enroll d p x asked (by rw [State.firstVacant_eq_some hfirst]; nofun)
  split
  · exact h
  · exact h.congr (fun _ => ⟨rfl, rfl⟩) rfl rfl rfl rfl

theorem State.TalkLawful.lockEvent (h : s.TalkLawful) (p : LinkPort) (x : DeskId) (asked : Role) : (s.lockEvent p x asked).TalkLawful := by
  unfold State.lockEvent
  split
  · split
    · split
      next hsilent => exact h.revive _ p (by rw [hsilent]; nofun)
      · exact h.recheck _
    · exact (h.modSlot _ (.inl ⟨rfl, rfl⟩)).lockUnbound p x asked
  · exact h.lockUnbound p x asked

theorem State.TalkLawful.lossEvent (h : s.TalkLawful) (p : LinkPort) : (s.lossEvent p).TalkLawful := by
  have hunlisted : (s.unlisted p).TalkLawful := h.congr (fun _ => ⟨rfl, rfl⟩) rfl rfl rfl rfl
  have hrebound (d : Desk) (o : Option LinkPort) : ((s.unlisted p).rebound d p o).TalkLawful := by
    cases o with
    | none => exact hunlisted
    | some q => exact hunlisted.modSlot d (.inl ⟨rfl, rfl⟩)
  have hlose {u : State} (hu : u.TalkLawful) (d : Desk) (o : Option LinkPort) : (u.loseActive d o).TalkLawful := by
    unfold State.loseActive
    split
    · split
      · exact hu.switchover d _
      · exact hu.becomeSilent d
    · exact hu.becomeSilent d
  cases hbound : s.boundTo p with
  | none =>
    rw [State.lossEvent_of_unbound hbound]
    exact hunlisted
  | some d =>
    rw [State.lossEvent_of_bound hbound]
    split
    · exact hlose (hrebound ..) d _
    split
    · exact (hrebound ..).recheck d
    · exact hrebound ..

theorem State.TalkLawful.graceExpiry (h : s.TalkLawful) (d : Desk) : (s.graceExpiry d).TalkLawful := by
  unfold State.graceExpiry
  split
  · split
    next hdue =>
      have hreleased : (s.released d).TalkLawful :=
        (h.modSlot d (f := fun _ => Slot.reset) (.inr (by rw [hdue.1]; nofun))).congr (fun _ => ⟨rfl, rfl⟩) rfl rfl rfl rfl
      have hvacant : ((s.released d).slot d).state ≠ .active := by
        have hslot : (s.released d).slot d = Slot.reset := State.slot_modSlot_same s d fun _ => Slot.reset
        rw [hslot]
        nofun
      rw [State.vacate_eq]
      unfold State.admitWaiting
      split
      · split
        · exact hreleased.enroll d _ _ _ hvacant
        · exact hreleased
      · exact hreleased
    · exact h
  · exact h

end
end Sys2Proof.Machine

/-!
The talk buses under the remaining operations: the front end, the writes, the requests to talk, a load and the frame (R106, R107, R111).
-/
namespace Sys2Proof.Machine

section
variable (s : State) (i : Fin 64)

/-! ### The panel's talk class under the front end and a change of a source -/

@[simp] theorem State.writePrimary_panelClass (o code : Nat) : (s.writePrimary o code).panelClass = s.panelClass := by
  unfold State.writePrimary
  split <;> rfl

@[simp] theorem State.writeFallback_panelClass (o code : Nat) : (s.writeFallback o code).panelClass = s.panelClass := by
  unfold State.writeFallback
  dsimp only
  repeat' split
  all_goals rfl

@[simp] theorem State.queueIfDiffers_panelClass : (s.queueIfDiffers i).panelClass = s.panelClass := by
  unfold State.queueIfDiffers
  split <;> rfl

@[simp] theorem State.queueIfReady_panelClass : (s.queueIfReady i).panelClass = s.panelClass := by
  unfold State.queueIfReady
  split
  · exact s.queueIfDiffers_panelClass i
  · rfl

@[simp] theorem State.writeDesired_panelClass (f : Setting → Setting) : (s.writeDesired i f).panelClass = s.panelClass := by
  unfold State.writeDesired
  split
  · rfl
  · exact State.queueIfReady_panelClass ..

@[simp] theorem State.writePhantom_panelClass (on : Bool) : (s.writePhantom i on).panelClass = s.panelClass := by
  unfold State.writePhantom
  rw [State.writeDesired_panelClass]
  split <;> rfl

@[simp] theorem State.serveSendList_panelClass : ∀ (l : List (Fin 64)) (s : State), (s.serveSendList l).1.panelClass = s.panelClass
  | [], _ => rfl
  | k :: l, s => by
    unfold State.serveSendList
    dsimp only
    split
    · exact State.serveSendList_panelClass l s
    · split
      · exact State.serveSendList_panelClass l _
      · rfl

@[simp] theorem State.serveQueue_panelClass : ∀ (l : List (Fin 64)) (s : State), (s.serveQueue l).panelClass = s.panelClass
  | [], _ => rfl
  | k :: l, s => by
    unfold State.serveQueue
    dsimp only
    split
    · exact State.serveQueue_panelClass l _
    · split
      · exact State.serveQueue_panelClass l _
      · rfl

@[simp] theorem State.endOperation_panelClass : (s.endOperation i).panelClass = s.panelClass := by
  unfold State.endOperation
  split
  · rfl
  · exact State.queueIfReady_panelClass ..

@[simp] theorem State.failExchange_panelClass : (s.failExchange i).panelClass = s.panelClass := by
  unfold State.failExchange
  split <;> rfl

@[simp] theorem State.marker_panelClass : (s.marker i).panelClass = s.panelClass := by
  unfold State.marker
  split
  · split
    · exact State.endOperation_panelClass ..
    · rfl
  · rfl

@[simp] theorem State.markerTimeout_panelClass : (s.markerTimeout i).panelClass = s.panelClass := by
  unfold State.markerTimeout
  split
  · exact State.endOperation_panelClass ..
  · rfl

@[simp] theorem State.holdEnd_panelClass : (s.holdEnd i).panelClass = s.panelClass := by
  unfold State.holdEnd
  split
  · exact State.queueIfReady_panelClass ..
  · rfl

@[simp] theorem State.retryExpiry_panelClass : (s.retryExpiry i).panelClass = s.panelClass := by
  unfold State.retryExpiry
  split
  · exact State.queueIfDiffers_panelClass ..
  · rfl

@[simp] theorem State.pollAnswer_panelClass (card : Fin 8) (oc : BitVec 8) : (s.pollAnswer card oc).panelClass = s.panelClass := by
  have hqueue (l : List (Fin 64)) (u : State) : (State.foldOver State.queueIfDiffers l u).panelClass = u.panelClass :=
    State.foldOver_field State.panelClass _ (fun k u => u.queueIfDiffers_panelClass k) l u
  have hreturn (l : List (Fin 64)) (u : State) : (State.foldOver State.returnChannel l u).panelClass = u.panelClass :=
    State.foldOver_field State.panelClass State.returnChannel (fun _ _ => rfl) l u
  unfold State.pollAnswer
  split
  · split
    · dsimp only
      split
      · rw [hqueue, hreturn]
        rfl
      · refine State.foldOver_field State.panelClass _ (fun k u => ?_) _ _
        split <;> rfl
    · rfl
  · rfl
  · rfl

@[simp] theorem State.pollUnanswered_panelClass : s.pollUnanswered.panelClass = s.panelClass := by
  unfold State.pollUnanswered
  split
  · have hdepart (l : List (Fin 64)) (u : State) : (State.foldOver State.departChannel l u).panelClass = u.panelClass :=
      State.foldOver_field State.panelClass State.departChannel (fun _ _ => rfl) l u
    dsimp only
    generalize (if _ < 3 then _ else _) = n
    split
    · rw [hdepart]
      rfl
    · rfl
  · rfl
  · rfl

@[simp] theorem State.settingNoAnswer_panelClass : s.settingNoAnswer.panelClass = s.panelClass := by
  unfold State.settingNoAnswer
  split
  · exact State.failExchange_panelClass ..
  · rfl
  · rfl

@[simp] theorem State.settingAnswer_panelClass (card channel : Fin 8) : (s.settingAnswer card channel).panelClass = s.panelClass := by
  unfold State.settingAnswer
  split
  · split <;> rfl
  · rfl
  · rfl

@[simp] theorem State.settleExchange_panelClass : s.settleExchange.panelClass = s.panelClass :=
  s.settingNoAnswer.pollUnanswered_panelClass.trans s.settingNoAnswer_panelClass

@[simp] theorem State.settingSlot_panelClass : s.settingSlot.panelClass = s.panelClass := by
  unfold State.settingSlot
  split
  · unfold State.serveSetting
    dsimp only
    split
    · rw [State.serveSendList_panelClass]
      exact s.settleExchange_panelClass
    · rw [State.serveQueue_panelClass, State.serveSendList_panelClass]
      exact s.settleExchange_panelClass
  · rfl

@[simp] theorem State.pollSlot_panelClass : s.pollSlot.panelClass = s.panelClass := by
  unfold State.pollSlot
  split
  · exact s.settleExchange_panelClass
  · rfl

theorem Instr.frontEnd_panelClass (i : Instr) (hi : i.isFrontEnd = true) : (i.effect s).panelClass = s.panelClass := by
  cases i <;> first | exact absurd hi Bool.false_ne_true | rfl | simp [Instr.effect]

end

section
variable {s : State}

/-! ### Writes -/

/-- The lists are put in order again after a change of a class (R120). -/
theorem State.TalkLawful.reclassed (h : s.TalkLawful) (x : SlotId) {t : State} (hstate : t.slotState = s.slotState)
    (hclass : ∀ y, y ≠ x → t.talkClassOf y = s.talkClassOf y) (hbuses : t.buses = s.buses) (hstarted : t.started = s.started)
    (hconfig : t.config = s.config) : (t.reorderBuses x).TalkLawful := by
  have hreorder (b : BusRec) (hb : s.BusLawful b) :
      (t.reorderBuses x).BusLawful (if x ∈ b.waiting then { b with waiting := reorder t.talkClassOf b.waiting } else b) := by
    have hactive : (t.reorderBuses x).slotState = s.slotState := hstate
    unfold State.BusLawful
    rw [hactive]
    exact BusRec.Lawful.reorder hb x hclass
  have htalker (b : BusRec) : (if x ∈ b.waiting then { b with waiting := reorder t.talkClassOf b.waiting } else b).talker = b.talker := by
    split <;> rfl
  have hbus (b : Bus) : (t.reorderBuses x).bus b =
      if x ∈ (s.bus b).waiting then { s.bus b with waiting := reorder t.talkClassOf (s.bus b).waiting } else s.bus b := by
    have hsame : t.bus b = s.bus b := by rw [State.bus, hbuses, State.bus]
    rw [← hsame]
    cases b <;> rfl
  refine h.of_buses (fun b => ?_) (fun b hb => ?_) hstarted (congrArg ConfigUnit.loading hconfig)
  · rw [hbus]
    exact hreorder _ (h.bus b)
  · rw [hbus, htalker]
    exact hb

theorem State.TalkLawful.writeTalkClass (h : s.TalkLawful) (x : SlotId) (v : Int) : (s.writeTalkClass x v).1.TalkLawful := by
  cases x with
  | panel =>
    refine h.reclassed .panel (t := { s with panelClass := v.toNat }) (funext fun y => ?_) (fun y hy => ?_) rfl rfl rfl
    · cases y <;> rfl
    · cases y with
      | panel => exact absurd rfl hy
      | desk d => rfl
  | desk d =>
    unfold State.writeTalkClass
    dsimp only
    split
    · exact h
    · refine h.reclassed (.desk d) (t := s.modSlot d fun r => { r with talkClass := v.toNat }) (funext fun y => ?_) (fun y hy => ?_)
        rfl rfl rfl
      · cases y with
        | panel => rfl
        | desk e =>
          show ((s.modSlot d _).slot e).state = (s.slot e).state
          rw [State.slot_modSlot]
          split
          next he => rw [he]
          · rfl
      · cases y with
        | panel => rfl
        | desk e =>
          have he : e ≠ d := fun hed => hy (hed ▸ rfl)
          show ((s.modSlot d _).slot e).talkClass = (s.slot e).talkClass
          rw [State.slot_modSlot, if_neg he]

theorem State.TalkLawful.writeParam (h : s.TalkLawful) (sl : SlotId) (p : Param) (v : Int) : (s.writeParam sl p v).1.TalkLawful := by
  have hkeep {t : State} (hslots : t.slots = s.slots) (hclass : t.panelClass = s.panelClass) (hbuses : t.buses = s.buses)
      (hstarted : t.started = s.started) (hconfig : t.config = s.config) : t.TalkLawful :=
    h.congr (fun d => by unfold State.slot; rw [hslots]; exact ⟨rfl, rfl⟩) hclass hbuses hstarted (congrArg ConfigUnit.loading hconfig)
  cases p with
  | talkClass x => exact h.writeTalkClass x v
  | gain | pad | phantom =>
    exact hkeep (by simp [State.writeParam]) (by simp [State.writeParam]) (by simp [State.writeParam])
      (by simp [State.writeParam]) (by simp [State.writeParam])
  | ownMode k =>
    cases sl with
    | panel => exact h
    | desk d => exact hkeep rfl rfl rfl rfl rfl
  | primary o =>
    unfold State.writeParam
    dsimp only
    split
    · exact hkeep (by simp) (by simp) (by simp) (by simp) (by simp)
    · exact h
  | fallback o =>
    unfold State.writeParam
    dsimp only
    split
    · exact hkeep (by simp) (by simp) (by simp) (by simp) (by simp)
    · exact h
  | _ => exact hkeep rfl rfl rfl rfl rfl

/-! ### Requests to talk -/

theorem State.TalkLawful.talkPress (h : s.TalkLawful) (hstarted : s.started = true) (sl : SlotId) (n : Nat) :
    (s.talkPress sl n).1.TalkLawful := by
  unfold State.talkPress
  split
  · exact h
  split
  · exact h
  next hactive =>
    dsimp only
    refine h.modBus _ (fun hb => ?_) fun hnot => ?_
    · exact BusRec.Lawful.press hb s.grantLimit (not_not.mp hactive)
    · rw [hstarted] at hnot
      cases hnot

theorem State.TalkLawful.talkRelease (h : s.TalkLawful) (sl : SlotId) (n : Nat) : (s.talkRelease sl n).1.TalkLawful := by
  unfold State.talkRelease
  split
  · exact h
  next b _ =>
    exact h.modBus b (f := fun _ => ((s.bus b).release s.grantLimit sl).1) (fun hb => BusRec.Lawful.release hb s.grantLimit sl)
      fun _ hidle => BusRec.remove_idle hidle

theorem State.TalkLawful.timeout (h : s.TalkLawful) (b : Bus) : (s.modBus b (BusRec.timeout s.grantLimit)).TalkLawful := by
  refine h.modBus b (fun hb => BusRec.Lawful.timeout hb s.grantLimit) fun _ hidle => ?_
  unfold BusRec.timeout
  split
  next ht => rw [hidle] at ht; cases ht
  · exact hidle

/-! ### Loads and frames -/

/-- Before start-up nobody waits, so a load may give the classes any values. -/
theorem State.TalkLawful.loadEnd (h : s.TalkLawful) (silentFrom : Option Nat) : (s.loadEnd silentFrom).TalkLawful := by
  by_cases hloading : s.config.loading = true
  · have hstarted := h.loadFirst hloading
    obtain ⟨hidle1, hidle2⟩ := h.idleBefore hstarted
    have hbuses : (s.loadEnd silentFrom).buses = s.buses := by simp
    have hafter : (s.loadEnd silentFrom).started = s.started := by simp
    have hslots : (s.loadEnd silentFrom).slots = s.slots := by simp
    have hstates : (s.loadEnd silentFrom).slotState = s.slotState := funext fun x => by
      cases x with
      | panel => rfl
      | desk d => exact congrArg Slot.state (congrArg (PerDesk.get · d) hslots)
    have hlaw (b : BusRec) (hb : s.BusLawful b) (hidle : b.talker = none) : (s.loadEnd silentFrom).BusLawful b := by
      have hempty : b.waiting = [] := BusRec.Lawful.noQueueWithoutTalker hb hidle
      refine BusRec.Lawful.mono hb (fun x hx => hstates ▸ hx) fun x hx => ?_
      rw [hempty] at hx
      cases hx
    exact
      { tb1 := hbuses ▸ hlaw _ h.tb1 hidle1
        tb2 := hbuses ▸ hlaw _ h.tb2 hidle2
        idleBefore := fun _ => hbuses ▸ ⟨hidle1, hidle2⟩
        loadFirst := fun _ => hafter.trans hstarted }
  · have hsame : s.loadEnd silentFrom = s := by
      unfold State.loadEnd
      rw [if_neg hloading]
    rw [hsame]
    exact h

theorem State.TalkLawful.startupComplete (h : s.TalkLawful) : s.startupComplete.TalkLawful := by
  unfold State.startupComplete
  split
  next hloaded =>
    exact
      { tb1 := h.tb1
        tb2 := h.tb2
        idleBefore := fun hnot => nomatch hnot
        loadFirst := fun hloading => absurd (hloaded.1.symm.trans hloading) Bool.false_ne_true }
  · exact h

theorem State.TalkLawful.formFrame (h : s.TalkLawful) (lanes : List Sample) (talk : Sample) : (s.formFrame lanes talk).TalkLawful := by
  have hshows := (s.formFrame_shows lanes talk).2
  obtain ⟨hstate, hclass⟩ := State.talkers_congr (s := s) (t := s.formFrame lanes talk)
    (fun d => ⟨congrArg (fun v => v.1.state) (hshows d), congrArg Prod.snd (hshows d)⟩) rfl
  have hbuses : (s.formFrame lanes talk).buses = { tb1 := s.buses.tb1.tick, tb2 := s.buses.tb2.tick } := by
    unfold State.formFrame State.tick
    simp
  refine h.of_buses (fun b => ?_) (fun b hb => ?_) (by simp) (by simp)
  · unfold State.BusLawful State.bus
    rw [hstate, hclass, hbuses]
    cases b with
    | tb1 => exact BusRec.Lawful.tick h.tb1
    | tb2 => exact BusRec.Lawful.tick h.tb2
  · unfold State.bus
    rw [hbuses]
    cases b with
    | tb1 => exact hb
    | tb2 => exact hb

theorem State.TalkLawful.pathPrefer (h : s.TalkLawful) (sl : SlotId) (code : Nat) : (s.pathPrefer sl code).1.TalkLawful := by
  have hprefer (d : Desk) (p : LinkPort) : (s.preferFor d p).1.TalkLawful := by
    unfold State.preferFor
    dsimp only
    repeat' split
    all_goals first | exact h | exact h.switchover d p
  unfold State.pathPrefer
  split
  · exact h
  split
  · exact hprefer _ _
  split
  · exact hprefer _ _
  · exact h

/-- Two states that show a law the same, field by field. -/
theorem State.lawView_eq_iff {t : State} : t.lawView = s.lawView ↔
    (∀ p, (t.port p).shows = (s.port p).shows) ∧ (∀ d, (t.slot d).shows = (s.slot d).shows) ∧ t.waitList = s.waitList ∧
      t.buses = s.buses ∧ t.started = s.started ∧ t.config.loading = s.config.loading ∧ t.channels = s.channels ∧ t.comp = s.comp ∧
      t.sideView = s.sideView := by
  unfold State.lawView
  simp only [Prod.mk.injEq, funext_iff]

/-- The law of the talk buses reads the states and the classes of the slots, the buses and start-up. -/
theorem State.TalkLawful.reads {t : State} (hview : t.lawView = s.lawView) (h : s.TalkLawful) : t.TalkLawful := by
  obtain ⟨-, hslots, -, hbuses, hstarted, hloading, -, -, hside⟩ := State.lawView_eq_iff.mp hview
  exact h.congr (fun d => ⟨congrArg (fun v => v.1.state) (hslots d), congrArg Prod.snd (hslots d)⟩) (congrArg Prod.fst hside) hbuses
    hstarted hloading

/-- The law of the talk buses is kept by every operation on what it reads. -/
theorem State.TalkLawful.stable : Stable State.TalkLawful where
  reads := State.TalkLawful.reads
  recheck d s h := h.recheck d
  loses p r s _ h := (h.congr (t := s.modPort p fun _ => r) (fun _ => ⟨rfl, rfl⟩) rfl rfl rfl rfl).lossEvent p
  locks p r x asked s _ _ _ _ h := (h.congr (t := s.modPort p fun _ => r) (fun _ => ⟨rfl, rfl⟩) rfl rfl rfl rfl).lockEvent p x asked
  grace d s h := h.graceExpiry d
  prefers sl code s h := h.pathPrefer sl code
  frontEnd i hi s h := by
    obtain ⟨-, hslots, -, hbuses, hstarted, hconfig⟩ := Instr.frontEnd_links i hi s
    have hslot (d : Desk) : (i.effect s).slot d = s.slot d := congrArg (PerDesk.get · d) hslots
    exact h.congr (fun d => (hslot d).symm ▸ ⟨rfl, rfl⟩) (Instr.frontEnd_panelClass s i hi) hbuses hstarted
      (congrArg ConfigUnit.loading hconfig)
  writes sl p v s h := h.writeParam sl p v
  rebases col first last s h := h.congr (fun _ => ⟨rfl, rfl⟩) rfl rfl rfl rfl
  presses sl n s hstarted h := h.talkPress hstarted sl n
  releases sl n s h := h.talkRelease sl n
  expires b s h := h.timeout b
  digests sl s h := h.buildDigest sl
  restarts tag s _ := State.reset_talkLawful.congr (fun _ => ⟨rfl, rfl⟩) rfl rfl rfl rfl
  loads silentFrom s h := h.loadEnd silentFrom
  starts h := h.startupComplete
  frames lanes talk s h := h.formFrame lanes talk

end

/-- Settles O6: the full reset sets the law up with nobody on a bus, and every operation on a bus, a slot or a class keeps it. -/
theorem talkBusesStayLawful : Obligations.TalkBusesStayLawful :=
  State.TalkLawful.stable.step fun _ _ => State.reset_talkLawful.congr (fun _ => ⟨rfl, rfl⟩) rfl rfl rfl rfl

end Sys2Proof.Machine

/-!
The stage gains and the card line (R51 to R63, R72): the law input by input, and what keeps it.
-/
namespace Sys2Proof.Machine

section
variable {s t : State}

/-! ### The law input by input -/

/-- The law of the stage gains for one input. -/
structure State.GainRow (s : State) (i : Fin 64) : Prop where
  equal : (s.channel i).link ≠ .absent → (s.channel i).handOver = false → (s.inputComp i).stageGain = (s.channel i).applied.effective
  absent : (s.channel i).link = .absent → (s.channel i).op ≠ .inFlight ∧ i ∉ s.cardQueue ∧ i ∉ s.sendList

theorem State.gainsAgree_iff : s.GainsAgree ↔ (s.channels.length = 64 ∧ s.comp.length = 64) ∧ ∀ i, s.GainRow i :=
  ⟨fun h => ⟨h.inputs, fun i => ⟨h.equal i i.isLt, h.absent i⟩⟩, fun h => ⟨h.1, fun i hi => (h.2 ⟨i, hi⟩).equal, fun i => (h.2 i).absent⟩⟩

/-- A channel that is in flight, queued or on the send list is not ABSENT. -/
theorem State.GainsAgree.present (h : s.GainsAgree) {i : Fin 64} (hi : (s.channel i).op = .inFlight ∨ i ∈ s.cardQueue ∨ i ∈ s.sendList) :
    (s.channel i).link ≠ .absent := by
  intro hlink
  obtain ⟨hop, hqueue, hsend⟩ := h.absent i hlink
  rcases hi with hi | hi | hi
  · exact hop hi
  · exact hqueue hi
  · exact hsend hi

/-- The lists may change by channels that are not ABSENT. -/
theorem State.GainsAgree.relist (h : s.GainsAgree) (hchannels : t.channels = s.channels) (hlen : t.comp.length = s.comp.length)
    (hgain : ∀ i : Fin 64, (t.inputComp i).stageGain = (s.inputComp i).stageGain)
    (hqueue : ∀ j, j ∈ t.cardQueue → j ∈ s.cardQueue ∨ (s.channel j).link ≠ .absent)
    (hsend : ∀ j, j ∈ t.sendList → j ∈ s.sendList ∨ (s.channel j).link ≠ .absent) : t.GainsAgree := by
  have hchannel (i : Nat) : t.channel i = s.channel i := by rw [State.channel, hchannels, State.channel]
  refine State.gainsAgree_iff.mpr ⟨⟨hchannels ▸ h.inputs.1, hlen.trans h.inputs.2⟩, fun i => ⟨fun hlink hhand => ?_, fun hlink => ?_⟩⟩
  · rw [hchannel] at hlink hhand
    rw [hgain, hchannel]
    exact h.equal i i.isLt hlink hhand
  · rw [hchannel] at hlink
    obtain ⟨hop, hnq, hns⟩ := h.absent i hlink
    rw [hchannel]
    exact ⟨hop, fun hi => (hqueue i hi).elim hnq (absurd hlink), fun hi => (hsend i hi).elim hns (absurd hlink)⟩

theorem State.GainsAgree.congr (h : s.GainsAgree) (hchannels : t.channels = s.channels) (hlen : t.comp.length = s.comp.length)
    (hgain : ∀ i : Fin 64, (t.inputComp i).stageGain = (s.inputComp i).stageGain) (hside : t.sideView.2 = s.sideView.2) :
    t.GainsAgree := by
  obtain ⟨hqueue, hsend⟩ := Prod.mk.inj hside
  exact h.relist hchannels hlen hgain (fun j hj => .inl (hqueue ▸ hj)) fun j hj => .inl (hsend ▸ hj)

theorem State.GainsAgree.same (h : s.GainsAgree) (hchannels : t.channels = s.channels) (hcomp : t.comp = s.comp)
    (hside : t.sideView = s.sideView) : t.GainsAgree :=
  h.congr hchannels (congrArg _ hcomp) (fun i => by rw [State.inputComp, hcomp, State.inputComp]) (congrArg _ hside)

/-- A channel changes in such a way that its row stands. -/
theorem State.GainsAgree.modChannel (h : s.GainsAgree) (i : Fin 64) {f : Channel → Channel}
    (hequal : (f (s.channel i)).link ≠ .absent → (f (s.channel i)).handOver = false →
      (s.inputComp i).stageGain = (f (s.channel i)).applied.effective)
    (habsent : (f (s.channel i)).link = .absent → (f (s.channel i)).op ≠ .inFlight ∧ i ∉ s.cardQueue ∧ i ∉ s.sendList) :
    (s.modChannel i f).GainsAgree := by
  have hi : (i : Nat) < s.channels.length := h.inputs.1.symm ▸ i.isLt
  refine State.gainsAgree_iff.mpr ⟨⟨(length_modNth ..).trans h.inputs.1, h.inputs.2⟩, fun j => ?_⟩
  by_cases hij : i = j
  · subst hij
    have hown := State.channel_modChannel_same s i f hi
    exact ⟨fun hlink hhand => hown ▸ hequal (hown ▸ hlink) (hown ▸ hhand), fun hlink => hown ▸ habsent (hown ▸ hlink)⟩
  · have hother := State.channel_modChannel_ne s i j f (Fin.val_ne_of_ne hij)
    exact ⟨fun hlink hhand => hother ▸ h.equal j j.isLt (hother ▸ hlink) (hother ▸ hhand),
      fun hlink => hother ▸ h.absent j (hother ▸ hlink)⟩

/-- A channel changes and keeps its link state, what it owes the stage and its gain, and no operation goes into flight. -/
theorem State.GainsAgree.modChannel_keeps (h : s.GainsAgree) (i : Fin 64) {f : Channel → Channel}
    (hlink : (f (s.channel i)).link = (s.channel i).link) (hhand : (f (s.channel i)).handOver = (s.channel i).handOver)
    (hgain : (f (s.channel i)).applied.effective = (s.channel i).applied.effective)
    (hop : (f (s.channel i)).op = .inFlight → (s.channel i).op = .inFlight) : (s.modChannel i f).GainsAgree := by
  refine h.modChannel i (fun hpresent hnot => ?_) fun habsent => ?_
  · rw [hgain]
    exact h.equal i i.isLt (hlink ▸ hpresent) (hhand ▸ hnot)
  · obtain ⟨hnone, hrest⟩ := h.absent i (hlink ▸ habsent)
    exact ⟨fun hf => hnone (hop hf), hrest⟩

/-- A channel that is not ABSENT changes, stays so and keeps what it owes the stage and its gain. -/
theorem State.GainsAgree.modChannel_present (h : s.GainsAgree) (i : Fin 64) (hpresent : (s.channel i).link ≠ .absent)
    {f : Channel → Channel} (hlink : (f (s.channel i)).link ≠ .absent) (hhand : (f (s.channel i)).handOver = (s.channel i).handOver)
    (hgain : (f (s.channel i)).applied.effective = (s.channel i).applied.effective) : (s.modChannel i f).GainsAgree := by
  refine h.modChannel i (fun _ hnot => ?_) fun habsent => absurd habsent hlink
  rw [hgain]
  exact h.equal i i.isLt hpresent (hhand ▸ hnot)

/-- A change that leaves the link state alone leaves all of them alone. -/
theorem State.link_modChannel (i j : Nat) {f : Channel → Channel} (hf : ∀ c, (f c).link = c.link) :
    ((s.modChannel i f).channel j).link = (s.channel j).link := by
  by_cases hij : i = j
  · subst hij
    by_cases hi : i < s.channels.length
    · rw [State.channel_modChannel_same s i f hi, hf]
    · have hsame : s.modChannel i f = s := by
        have hlist : modNth s.channels i f = s.channels := List.modify_eq_self (Nat.not_lt.mp hi)
        rw [State.modChannel, hlist]
      rw [hsame]
  · rw [State.channel_modChannel_ne s i j f hij]

/-! ### The queue and the desired setting -/

theorem State.GainsAgree.queueChannel (h : s.GainsAgree) (i : Fin 64) (hpresent : (s.channel i).link ≠ .absent) :
    (s.queueChannel i).GainsAgree := by
  have hqueued := h.modChannel_present i hpresent (f := fun c => { c with op := .queued }) hpresent rfl rfl
  refine hqueued.relist (t := s.queueChannel i) rfl rfl (fun _ => rfl) (fun j hj => ?_) fun _ hj => .inl hj
  rcases List.mem_append.mp hj with hj | hj
  · exact .inl hj
  · exact .inr (ne_of_eq_of_ne (State.link_modChannel i j fun _ => rfl) (List.mem_singleton.mp hj ▸ hpresent))

theorem State.GainsAgree.queueIfDiffers (h : s.GainsAgree) (i : Fin 64) (hpresent : (s.channel i).link ≠ .absent) :
    (s.queueIfDiffers i).GainsAgree := by
  unfold State.queueIfDiffers
  split
  · exact h.queueChannel i hpresent
  · exact h

theorem State.GainsAgree.queueIfReady (h : s.GainsAgree) (i : Fin 64) : (s.queueIfReady i).GainsAgree := by
  unfold State.queueIfReady
  split
  next hready => exact h.queueIfDiffers i (by rw [hready]; nofun)
  · exact h

theorem State.GainsAgree.writeDesired (h : s.GainsAgree) (i : Fin 64) (f : Setting → Setting) : (s.writeDesired i f).GainsAgree := by
  unfold State.writeDesired
  split
  · exact h
  · refine State.GainsAgree.queueIfReady ?_ i
    exact h.modChannel_keeps i rfl rfl rfl id

theorem State.GainsAgree.clearLatch (h : s.GainsAgree) (i : Fin 64) (on : Bool) :
    (if on then s.modChannel i fun c => { c with latch := false } else s).GainsAgree := by
  split
  · exact h.modChannel_keeps i rfl rfl rfl id
  · exact h

/-! ### The course of a setting change -/

theorem State.GainsAgree.sendCommand (h : s.GainsAgree) (i : Fin 64) (hpresent : (s.channel i).link ≠ .absent) :
    (s.sendCommand i).GainsAgree :=
  (h.modChannel_present i hpresent hpresent rfl rfl).same rfl rfl rfl

/-- Entries leave the two lists. -/
theorem State.GainsAgree.unlist (h : s.GainsAgree) {q l : List (Fin 64)} (hq : ∀ j, j ∈ q → j ∈ s.cardQueue)
    (hl : ∀ j, j ∈ l → j ∈ s.sendList) : State.GainsAgree { s with cardQueue := q, sendList := l } :=
  h.relist rfl rfl (fun _ => rfl) (fun j hj => .inl (hq j hj)) fun j hj => .inl (hl j hj)

theorem State.GainsAgree.serveSendList : ∀ (l : List (Fin 64)) {s : State}, s.GainsAgree → (∀ j, j ∈ l → (s.channel j).link ≠ .absent) →
    (s.serveSendList l).1.GainsAgree
  | [], _, h, _ => h
  | i :: l, s, h, hl => by
    have hrest (j : Fin 64) (hj : j ∈ l) : (s.channel j).link ≠ .absent := hl j (List.mem_cons_of_mem i hj)
    have hleft : State.GainsAgree { s with sendList := s.sendList.filter (· ≠ i) } :=
      h.unlist (fun _ hj => hj) fun _ hj => List.mem_of_mem_filter hj
    unfold State.serveSendList
    dsimp only
    split
    · exact State.GainsAgree.serveSendList l h hrest
    · split
      · refine State.GainsAgree.serveSendList l (hleft.modChannel_keeps i rfl rfl rfl nofun) fun j hj => ?_
        exact ne_of_eq_of_ne (State.link_modChannel i j fun _ => rfl) (hrest j hj)
      · exact hleft.sendCommand i (hl i List.mem_cons_self)

theorem State.GainsAgree.serveQueue : ∀ (l : List (Fin 64)) {s : State}, s.GainsAgree → (∀ j, j ∈ l → (s.channel j).link ≠ .absent) →
    (s.serveQueue l).GainsAgree
  | [], _, h, _ => h
  | i :: l, s, h, hl => by
    have hrest (j : Fin 64) (hj : j ∈ l) : (s.channel j).link ≠ .absent := hl j (List.mem_cons_of_mem i hj)
    have hpresent := hl i List.mem_cons_self
    have hleft : State.GainsAgree { s with cardQueue := s.cardQueue.filter (· ≠ i) } :=
      h.unlist (fun _ hj => List.mem_of_mem_filter hj) fun _ hj => hj
    unfold State.serveQueue
    dsimp only
    split
    · refine State.GainsAgree.serveQueue l (hleft.modChannel_keeps i rfl rfl rfl nofun) fun j hj => ?_
      exact ne_of_eq_of_ne (State.link_modChannel i j fun _ => rfl) (hrest j hj)
    · split
      · have hmuting := hleft.modChannel_keeps i (f := fun c => { c with op := .muting, gateOpen := false }) rfl rfl rfl nofun
        have hlink (j : Fin 64) := State.link_modChannel (s := { s with cardQueue := s.cardQueue.filter (· ≠ i) }) i j
          (f := fun c => { c with op := .muting, gateOpen := false }) fun _ => rfl
        refine State.GainsAgree.serveQueue l (hmuting.relist rfl rfl (fun _ => rfl) (fun _ hj => .inl hj) fun j hj => ?_) fun j hj => ?_
        · rw [hlink]
          rcases List.mem_append.mp hj with hj | hj
          · exact .inl hj
          · exact .inr (List.mem_singleton.mp hj ▸ hpresent)
        · exact (hlink j).symm ▸ hrest j hj
      · exact hleft.sendCommand i hpresent

theorem State.GainsAgree.serveSetting (h : s.GainsAgree) : s.serveSetting.GainsAgree := by
  have hsent := State.GainsAgree.serveSendList s.sendList h fun j hj => h.present (.inr (.inr hj))
  unfold State.serveSetting
  dsimp only
  split
  · exact hsent
  · exact State.GainsAgree.serveQueue _ hsent fun j hj => hsent.present (.inr (.inl hj))

theorem State.GainsAgree.endOperation (h : s.GainsAgree) (i : Fin 64) : (s.endOperation i).GainsAgree := by
  unfold State.endOperation
  split
  · exact h.modChannel_keeps i rfl rfl rfl nofun
  · refine State.GainsAgree.queueIfReady ?_ i
    exact h.modChannel_keeps i rfl rfl rfl nofun

theorem State.GainsAgree.failExchange (h : s.GainsAgree) (i : Fin 64) : (s.failExchange i).GainsAgree := by
  unfold State.failExchange
  split
  next hop => exact h.modChannel_present i (h.present (.inl hop)) nofun rfl rfl
  · exact h

/-- The stage takes the gain of the marker in the same event (R72). -/
theorem State.GainsAgree.marker (h : s.GainsAgree) (i : Fin 64) : (s.marker i).GainsAgree := by
  unfold State.marker
  split
  next x hop _ =>
    split
    · refine State.GainsAgree.endOperation ?_ i
      have hpresent := h.present (.inl hop)
      have hi : (i : Nat) < s.channels.length := h.inputs.1.symm ▸ i.isLt
      have hic : (i : Nat) < s.comp.length := h.inputs.2.symm ▸ i.isLt
      refine State.gainsAgree_iff.mpr ⟨⟨(length_modNth ..).trans h.inputs.1, (length_modNth ..).trans h.inputs.2⟩, fun j => ?_⟩
      by_cases hij : i = j
      · subst hij
        constructor
        · intro _ _
          refine (congrArg InputComp.stageGain (nth_modNth_same s.comp i _ _ hic)).trans ?_
          exact InputComp.stageGain_newGain ..
        · intro hlink
          have hown := State.channel_modChannel_same s i (fun c => { c with
            applied := x, sent := none, markerTimer := none, handOver := false, link := if c.link = .fault then .ready else c.link,
            retryTimer := if c.link = .fault then none else c.retryTimer }) hi
          have hafter : (if (s.channel i).link = .fault then Link.ready else (s.channel i).link) = .absent :=
            (congrArg Channel.link hown).symm.trans hlink
          split at hafter
          · cases hafter
          · exact absurd hafter hpresent
      · have hother (f : Channel → Channel) := State.channel_modChannel_ne s i j f (Fin.val_ne_of_ne hij)
        have hstage (f : InputComp → InputComp) : nth (modNth s.comp i f) j InputComp.reset = s.inputComp j :=
          nth_modNth_ne _ _ _ _ _ (Fin.val_ne_of_ne hij)
        constructor
        · intro hlink hhand
          refine (congrArg InputComp.stageGain (hstage _)).trans ((h.equal j j.isLt ?_ ?_).trans ?_)
          · exact fun e => hlink ((congrArg Channel.link (hother _)).trans e)
          · exact (congrArg Channel.handOver (hother _)).symm.trans hhand
          · exact (congrArg (fun c => c.applied.effective) (hother _)).symm
        · intro hlink
          obtain ⟨hnone, hrest⟩ := h.absent j ((congrArg Channel.link (hother _)).symm.trans hlink)
          exact ⟨fun hf => hnone ((congrArg Channel.op (hother _)).symm.trans hf), hrest⟩
    · exact h
  · exact h

theorem State.GainsAgree.markerTimeout (h : s.GainsAgree) (i : Fin 64) : (s.markerTimeout i).GainsAgree := by
  unfold State.markerTimeout
  split
  next hdue =>
    refine State.GainsAgree.endOperation ?_ i
    exact h.modChannel_present i (h.present (.inl hdue.1)) nofun rfl rfl
  · exact h

theorem State.GainsAgree.holdEnd (h : s.GainsAgree) (i : Fin 64) : (s.holdEnd i).GainsAgree := by
  unfold State.holdEnd
  split
  · refine State.GainsAgree.queueIfReady ?_ i
    exact h.modChannel_keeps i rfl rfl rfl nofun
  · exact h

theorem State.GainsAgree.retryExpiry (h : s.GainsAgree) (i : Fin 64) : (s.retryExpiry i).GainsAgree := by
  unfold State.retryExpiry
  split
  next hdue =>
    refine State.GainsAgree.queueIfDiffers (h.modChannel_keeps i rfl rfl rfl id) i ?_
    exact ne_of_eq_of_ne (State.link_modChannel i i fun _ => rfl) (by rw [hdue.1]; nofun)
  · exact h

/-! ### Polls -/

theorem State.GainsAgree.overcurrent (h : s.GainsAgree) (i : Fin 64) : (s.overcurrent i).GainsAgree := by
  have hleft := h.unlist (q := s.cardQueue.filter (· ≠ i)) (l := s.sendList.filter (· ≠ i)) (fun _ hj => List.mem_of_mem_filter hj)
    fun _ hj => List.mem_of_mem_filter hj
  unfold State.overcurrent
  refine hleft.modChannel_keeps i ?_ ?_ ?_ ?_
  · dsimp only
    split <;> rfl
  · dsimp only
    split <;> rfl
  · dsimp only
    split <;> rfl
  · dsimp only
    split
    next hop => exact fun _ => hop
    · exact nofun
    · exact nofun
    · exact nofun
    next hop => exact fun hf => absurd (hop.symm.trans hf) nofun

theorem State.GainsAgree.departChannel (h : s.GainsAgree) (i : Fin 64) : (s.departChannel i).GainsAgree := by
  have hgone {l : List (Fin 64)} : i ∉ l.filter (· ≠ i) := fun hi => absurd (List.of_mem_filter hi) (by simp)
  have hleft := h.unlist (q := s.cardQueue.filter (· ≠ i)) (l := s.sendList.filter (· ≠ i)) (fun _ hj => List.mem_of_mem_filter hj)
    fun _ hj => List.mem_of_mem_filter hj
  refine State.GainsAgree.same (hleft.modChannel i (f := fun c => { c with
    link := .absent, op := .idle, sent := none, holdOwed := false, markerTimer := none, holdTimer := none, retryTimer := none,
    applied := { c.applied with phantom := false }, gate := 0, gateOpen := false, handOver := false }) ?_ ?_) rfl rfl rfl
  · exact fun hlink => absurd rfl hlink
  · exact fun _ => ⟨nofun, hgone, hgone⟩

theorem State.GainsAgree.returnChannel (h : s.GainsAgree) (i : Fin 64) : (s.returnChannel i).GainsAgree :=
  (h.modChannel i (f := fun c => { c with
    link := .ready, applied := Setting.rest, gateOpen := !c.desired.phantom, handOver := true }) nofun nofun).same rfl rfl rfl

/-- Every channel of a list that returns is not ABSENT after that. -/
theorem State.GainsAgree.returnChannels : ∀ (l : List (Fin 64)) {s : State}, s.GainsAgree →
    (State.foldOver State.returnChannel l s).GainsAgree ∧ ∀ j : Fin 64, j ∈ l ∨ (s.channel j).link ≠ .absent →
      ((State.foldOver State.returnChannel l s).channel j).link ≠ .absent
  | [], _, h => ⟨h, fun _ hj => hj.resolve_left List.not_mem_nil⟩
  | i :: l, s, h => by
    obtain ⟨hall, hpresent⟩ := State.GainsAgree.returnChannels l (h.returnChannel i)
    refine ⟨hall, fun j hj => hpresent j ?_⟩
    have hi : (i : Nat) < s.channels.length := h.inputs.1.symm ▸ i.isLt
    by_cases hij : i = j
    · subst hij
      refine .inr fun hlink => ?_
      have hown := (congrArg Channel.link (State.channel_modChannel_same s i _ hi)).symm.trans hlink
      cases hown
    · rcases hj with hj | hj
      · exact .inl ((List.mem_cons.mp hj).resolve_left (Ne.symm hij))
      · have hother := State.channel_modChannel_ne s i j (fun c => { c with
          link := .ready, applied := Setting.rest, gateOpen := !c.desired.phantom, handOver := true }) (Fin.val_ne_of_ne hij)
        exact .inr fun hlink => hj ((congrArg Channel.link hother).symm.trans hlink)

theorem State.GainsAgree.queueAll : ∀ (l : List (Fin 64)) {s : State}, s.GainsAgree → (∀ j, j ∈ l → (s.channel j).link ≠ .absent) →
    (State.foldOver State.queueIfDiffers l s).GainsAgree
  | [], _, h, _ => h
  | i :: l, s, h, hl => by
    have hlink (j : Fin 64) : ((s.queueIfDiffers i).channel j).link = (s.channel j).link := by
      unfold State.queueIfDiffers
      split
      · exact State.link_modChannel (s := s) i j (f := fun c => { c with op := .queued }) fun _ => rfl
      · rfl
    exact State.GainsAgree.queueAll l (h.queueIfDiffers i (hl i List.mem_cons_self)) fun j hj =>
      (hlink j).symm ▸ hl j (List.mem_cons_of_mem i hj)

theorem State.GainsAgree.pollAnswer (h : s.GainsAgree) (card : Fin 8) (oc : BitVec 8) : (s.pollAnswer card oc).GainsAgree := by
  unfold State.pollAnswer
  split
  next c rest _ =>
    split
    · have hpolled : State.GainsAgree { s.modCard c fun r => { r with unanswered := 0, present := true } with
          line := { s.line with exchange := .none } } := h.same rfl rfl rfl
      dsimp only
      split
      · obtain ⟨hreturned, hpresent⟩ := hpolled.returnChannels (cardInputs c)
        exact hreturned.queueAll _ fun j hj => hpresent j (.inl hj)
      · refine State.foldOver_keeps State.GainsAgree _ (fun k u hu => ?_) _ _ hpolled
        split
        · exact hu.overcurrent _
        · exact hu
    · exact h
  · exact h
  · exact h

theorem State.GainsAgree.pollUnanswered (h : s.GainsAgree) : s.pollUnanswered.GainsAgree := by
  unfold State.pollUnanswered
  split
  next c rest _ =>
    have hpolled (f : Card → Card) : State.GainsAgree { s.modCard c f with line := { s.line with exchange := .none } } :=
      h.same rfl rfl rfl
    dsimp only
    generalize (if _ < 3 then _ else _) = n
    split
    · exact State.foldOver_keeps State.GainsAgree _ (fun k _ hu => hu.departChannel k) _ _ (hpolled _)
    · exact hpolled _
  · exact h
  · exact h

/-! ### Exchanges and slots -/

theorem State.GainsAgree.settingNoAnswer (h : s.GainsAgree) : s.settingNoAnswer.GainsAgree := by
  unfold State.settingNoAnswer
  split
  · refine State.GainsAgree.failExchange ?_ _
    exact h.same rfl rfl rfl
  · exact h
  · exact h

theorem State.GainsAgree.settingAnswer (h : s.GainsAgree) (card channel : Fin 8) : (s.settingAnswer card channel).GainsAgree := by
  unfold State.settingAnswer
  split
  · split
    · exact h.same rfl rfl rfl
    · exact h
  · exact h
  · exact h

theorem State.GainsAgree.settingSlot (h : s.GainsAgree) : s.settingSlot.GainsAgree := by
  unfold State.settingSlot
  split
  · exact State.GainsAgree.serveSetting (h.settingNoAnswer.pollUnanswered.same rfl rfl rfl)
  · exact h

theorem State.GainsAgree.pollSlot (h : s.GainsAgree) : s.pollSlot.GainsAgree := by
  unfold State.pollSlot
  split
  · exact h.settingNoAnswer.pollUnanswered.same rfl rfl rfl
  · exact h

end
end Sys2Proof.Machine

/-!
The stage gains under every command (R62, R72).
-/
namespace Sys2Proof.Machine

section
variable {s : State}

/-! ### The cells -/

theorem nth_map_of_lt {α β : Type} {l : List α} {i : Nat} (f : α → β) {x : α} (y : β) (hi : i < l.length) :
    nth (l.map f) i y = f (nth l i x) := by
  simp [nth, hi]

/-- What changes the cells of inputs leaves their stage gains. -/
theorem State.GainsAgree.modCell (h : s.GainsAgree) (i : Nat) (col : Fin 4) (f : Int → Cell → Cell) : (s.modCell i col f).GainsAgree := by
  refine h.congr rfl (length_modNth ..) (fun j => ?_) rfl
  by_cases hij : i = j
  · subst hij
    have hj : (j : Nat) < s.comp.length := h.inputs.2.symm ▸ j.isLt
    exact (congrArg InputComp.stageGain (nth_modNth_same s.comp j (fun ic => { ic with
      cells := ic.cells.set col (f ic.stageGain (ic.cells.get col)) }) InputComp.reset hj) :)
  · exact congrArg InputComp.stageGain (nth_modNth_ne s.comp i j _ _ hij)

theorem State.GainsAgree.resetColumn (h : s.GainsAgree) (col : Fin 4) : (s.resetColumn col).GainsAgree :=
  h.congr rfl (List.length_map _) (fun j => by
    have hj : (j : Nat) < s.comp.length := h.inputs.2.symm ▸ j.isLt
    exact (congrArg InputComp.stageGain (nth_map_of_lt (x := InputComp.reset)
      (fun ic : InputComp => { ic with cells := ic.cells.set col Cell.reset }) InputComp.reset hj) :)) rfl

theorem State.GainsAgree.rebaseInputs (h : s.GainsAgree) (col : Fin 4) (first last : Nat) : (s.rebaseInputs col first last).GainsAgree := by
  refine h.congr rfl (length_mapFrom ..) (fun j => ?_) rfl
  rw [State.inputComp_rebaseInputs (h.inputs.2.symm ▸ j.isLt)]
  split <;> rfl

/-- The front end keeps the law of the stage gains. -/
theorem State.GainsAgree.frontEnd (h : s.GainsAgree) (i : Instr) (hi : i.isFrontEnd = true) : (i.effect s).GainsAgree := by
  cases i with
  | trimRampStep input column => exact h.modCell input column fun _ c => c.stepEarly
  | gainChangeMarker input => exact h.marker input
  | settingSlot => exact h.settingSlot
  | settingAnswer card channel => exact h.settingAnswer card channel
  | settingNoAnswer => exact h.settingNoAnswer
  | markerTimeout input => exact h.markerTimeout input
  | holdEnd input => exact h.holdEnd input
  | retryTimerExpiry input => exact h.retryExpiry input
  | pollSlot => exact h.pollSlot
  | pollAnswer card overcurrent => exact h.pollAnswer card overcurrent
  | pollUnanswered => exact h.pollUnanswered
  | _ => exact absurd hi Bool.false_ne_true

/-! ### Writes and loads -/

@[simp] theorem State.writePrimary_side (o code : Nat) : (s.writePrimary o code).sideView = s.sideView := by
  unfold State.writePrimary
  split <;> rfl

@[simp] theorem State.writeFallback_side (o code : Nat) : (s.writeFallback o code).sideView = s.sideView := by
  unfold State.writeFallback
  dsimp only
  repeat' split
  all_goals rfl

theorem State.GainsAgree.writeParam (h : s.GainsAgree) (sl : SlotId) (p : Param) (v : Int) : (s.writeParam sl p v).1.GainsAgree := by
  have hclass (x : SlotId) : (s.writeTalkClass x v).1.GainsAgree := by
    cases x with
    | panel => exact h.congr rfl rfl (fun _ => rfl) rfl
    | desk d =>
      unfold State.writeTalkClass
      dsimp only
      split
      · exact h
      · exact h.same rfl rfl rfl
  cases p with
  | talkClass x => exact hclass x
  | gain k => exact h.writeDesired (Fin.ofNat 64 k) fun x => { x with gain := v }
  | pad k => exact h.writeDesired (Fin.ofNat 64 k) fun x => { x with pad := decide (v = 1) }
  | phantom k => exact (h.clearLatch (Fin.ofNat 64 k) _).writeDesired (Fin.ofNat 64 k) fun x => { x with phantom := decide (v = 1) }
  | ownMode k =>
    cases sl with
    | panel => exact h
    | desk d => exact h.modCell k d.column _
  | engineMode k => exact h.modCell k 0 _
  | primary o =>
    unfold State.writeParam
    dsimp only
    split
    · exact h.same (by simp) (by simp) (by simp)
    · exact h
  | fallback o =>
    unfold State.writeParam
    dsimp only
    split
    · exact h.same (by simp) (by simp) (by simp)
    · exact h
  | _ => exact h.same rfl rfl rfl

@[simp] theorem State.loadPatch_side (body : List Byte) : (s.loadPatch body).sideView = s.sideView := by
  refine State.foldOver_field State.sideView _ (fun o u => ?_) _ s
  unfold State.loadPatchEntry
  dsimp only
  split <;> rfl

theorem State.GainsAgree.loadEnd (h : s.GainsAgree) (silentFrom : Option Nat) : (s.loadEnd silentFrom).GainsAgree := by
  have hchannels (body : List Byte) {u : State} (hu : u.GainsAgree) : (u.loadChannels body).GainsAgree :=
    State.foldOver_keeps State.GainsAgree _ (fun i _ hu => (hu.clearLatch i _).writeDesired i _) _ _ hu
  have hrest (safe patch stage : List Byte) {u : State} (hu : u.GainsAgree) :
      (((u.loadSafe safe).loadPatch patch).loadStage stage).GainsAgree := by
    have hsafe : (u.loadSafe safe).GainsAgree := hu.same rfl rfl rfl
    have hpatch : ((u.loadSafe safe).loadPatch patch).GainsAgree := hsafe.same (by simp) (by simp) (by simp)
    exact hpatch.congr rfl rfl (fun _ => rfl) rfl
  unfold State.loadEnd
  split
  · dsimp only
    refine hrest _ _ _ ?_
    split
    · exact hchannels _ (h.same rfl rfl rfl)
    · exact h.same rfl rfl rfl
  · exact h

/-! ### Grace times and restarts -/

theorem State.GainsAgree.graceExpiry (h : s.GainsAgree) (d : Desk) : (s.graceExpiry d).GainsAgree := by
  have hadmit {u : State} (hu : u.GainsAgree) : (u.admitWaiting d).GainsAgree := by
    unfold State.admitWaiting
    split
    · split
      · exact hu.same (by simp) (by simp) (by simp)
      · exact hu
    · exact hu
  unfold State.graceExpiry
  split
  · split
    · refine hadmit (State.GainsAgree.resetColumn ?_ _)
      exact h.same rfl rfl rfl
    · exact h
  · exact h

theorem State.GainsAgree.restartAnswered (h : s.GainsAgree) (tag : Byte) : (s.restartAnswered tag).GainsAgree :=
  h.congr rfl (List.length_map _) (fun j => by
    have hj : (j : Nat) < s.comp.length := h.inputs.2.symm ▸ j.isLt
    exact (congrArg InputComp.stageGain (nth_map_of_lt (x := InputComp.reset) (fun ic : InputComp => { InputComp.reset with
      stageGain := ic.stageGain, cells := { InputComp.reset.cells with c0 := ic.cells.c0 } }) InputComp.reset hj) :)) rfl

/-! ### The frame -/

@[simp] theorem State.formInputs_side (lanes : List Sample) : (s.formInputs lanes).1.sideView = s.sideView := rfl
@[simp] theorem State.formMixes_side (engine : List Sample) (tb1 tb2 : Sample) : (s.formMixes engine tb1 tb2).1.sideView = s.sideView := rfl
@[simp] theorem State.formOutputs_side (x : FrameSamples) : (s.formOutputs x).sideView = s.sideView := rfl
@[simp] theorem State.gatherPeaks_side (x : FrameSamples) : (s.gatherPeaks x).sideView = s.sideView := rfl
@[simp] theorem State.sendFrames_side (x : FrameSamples) : (s.sendFrames x).sideView = s.sideView := rfl
@[simp] theorem State.tick_side : s.tick.sideView = s.sideView := rfl

/-- What a frame makes of the channels and of the compensation of the inputs. -/
theorem State.formFrame_inputs (lanes : List Sample) (talk : Sample) :
    (s.formFrame lanes talk).channels = (s.channels.map Channel.moveGate).map Channel.tick ∧
      (s.formFrame lanes talk).comp = (s.formInputs lanes).1.comp ∧ (s.formFrame lanes talk).sideView = s.sideView := by
  refine ⟨?_, ?_, ?_⟩
  · unfold State.formFrame State.tick
    simp [State.formInputs]
  · unfold State.formFrame State.tick
    simp
  · unfold State.formFrame
    simp

theorem InputComp.stageGain_advance (handed : Option Int) (ic : InputComp) :
    (ic.advance handed).stageGain = handed.getD ic.stageGain := by
  cases handed with
  | none => rfl
  | some e => exact InputComp.stageGain_newGain e ic

/-- A gain still owed comes with the sample of the frame (R63, R72). -/
theorem State.GainsAgree.formFrame (h : s.GainsAgree) (lanes : List Sample) (talk : Sample) : (s.formFrame lanes talk).GainsAgree := by
  obtain ⟨hchannels, hcomp, hside⟩ := s.formFrame_inputs lanes talk
  have hqueue : (s.formFrame lanes talk).cardQueue = s.cardQueue := congrArg (fun v => v.2.1) hside
  have hsend : (s.formFrame lanes talk).sendList = s.sendList := congrArg (fun v => v.2.2) hside
  have hchannel (i : Fin 64) : (s.formFrame lanes talk).channel i = (s.channel i).moveGate.tick := by
    have hi : (i : Nat) < s.channels.length := h.inputs.1.symm ▸ i.isLt
    rw [State.channel, hchannels, nth_map_of_lt (x := Channel.reset) _ _ (by rw [List.length_map]; exact hi),
      nth_map_of_lt (x := Channel.reset) _ _ hi]
    rfl
  have hstage (i : Fin 64) : ((s.formFrame lanes talk).inputComp i).stageGain =
      (if (s.channel i).handOver then some (s.channel i).applied.effective else none).getD (s.inputComp i).stageGain := by
    have hi : (i : Nat) < s.channels.length := h.inputs.1.symm ▸ i.isLt
    have hic : (i : Nat) < s.comp.length := h.inputs.2.symm ▸ i.isLt
    rw [State.inputComp, hcomp]
    refine (congrArg InputComp.stageGain (nth_mapFrom _ 0 i s.comp InputComp.reset InputComp.reset hic)).trans ?_
    rw [InputComp.stageGain_advance, Nat.zero_add, nth_map_of_lt (x := Channel.reset) _ _ hi]
    rfl
  refine State.gainsAgree_iff.mpr ⟨⟨?_, ?_⟩, fun i => ⟨fun hlink _ => ?_, fun hlink => ?_⟩⟩
  · rw [hchannels, List.length_map, List.length_map]
    exact h.inputs.1
  · rw [hcomp]
    exact (length_mapFrom ..).trans h.inputs.2
  · rw [hchannel] at hlink ⊢
    rw [hstage]
    cases hhand : (s.channel i).handOver with
    | true => rfl
    | false => exact h.equal i i.isLt hlink hhand
  · rw [hchannel] at hlink ⊢
    rw [hqueue, hsend]
    exact h.absent i hlink

/-! ### Every command -/

/-- The law of the stage gains reads the channels, the compensation and the two lists. -/
theorem State.GainsAgree.reads {t : State} (hview : t.lawView = s.lawView) (h : s.GainsAgree) : t.GainsAgree := by
  obtain ⟨-, -, -, -, -, -, hchannels, hcomp, hside⟩ := State.lawView_eq_iff.mp hview
  exact h.same hchannels hcomp hside

/-- The law of the stage gains is kept by every operation on what it reads. -/
theorem State.GainsAgree.stable : Stable State.GainsAgree where
  reads := State.GainsAgree.reads
  recheck d s h := h.same (by simp) (by simp) (by simp)
  loses p r s _ h := h.same (by simp) (by simp) (by simp)
  locks p r x asked s _ _ _ _ h := h.same (by simp) (by simp) (by simp)
  grace d s h := h.graceExpiry d
  prefers sl code s h := h.same (by simp) (by simp) (by simp)
  frontEnd i hi s h := h.frontEnd i hi
  writes sl p v s h := h.writeParam sl p v
  rebases col first last s h := h.rebaseInputs col first last
  presses sl n s _ h := h.same (by simp) (by simp) (by simp)
  releases sl n s h := h.same (by simp) (by simp) (by simp)
  expires b s h := h.same rfl rfl rfl
  digests sl s h := h.same (by simp) (by simp) (by simp)
  restarts tag s h := h.restartAnswered tag
  loads silentFrom s h := h.loadEnd silentFrom
  starts {s} h := by
    unfold State.startupComplete
    split
    · exact h.same rfl rfl rfl
    · exact h
  frames lanes talk s h := h.formFrame lanes talk

end

/-- Settles O10: a gain reaches the stage in the event that applies it or with the first sample of a returned card, and only a channel
that is not ABSENT is given to the card line. -/
theorem stageGainsStayInAgreement : Obligations.StageGainsStayInAgreement :=
  State.GainsAgree.stable.step fun _ _ => State.reset_gainsAgree.same rfl rfl rfl

end Sys2Proof.Machine

/-!
The bytes of a stage-bound frame and their round trip (R17, R18).
-/
namespace Sys2Proof.Machine

/-! ### Numbers and their bytes -/

/-- A byte put under a word. -/
theorem toNat_append_byte {w : Nat} (x : BitVec w) (y : Byte) : (x ++ y).toNat = 256 * x.toNat + y.toNat := by
  rw [BitVec.toNat_append, ← Nat.shiftLeft_add_eq_or_of_lt y.isLt, Nat.shiftLeft_eq, Nat.mul_comm]

theorem wordOf_bytes (w : Word) : wordOf (BitVec.ofNat 8 (w.toNat / 256)) (BitVec.ofNat 8 w.toNat) = w :=
  BitVec.eq_of_toNat_eq (toNat_wordOf_be16 w.isLt)

/-- The six bytes of a desk identifier give it back. -/
theorem deskId_bytes (x : DeskId) :
    (BitVec.ofNat 8 (x.toNat / 4294967296 / 256) ++ BitVec.ofNat 8 (x.toNat / 4294967296) ++ BitVec.ofNat 8 (x.toNat / 65536 / 256) ++
      BitVec.ofNat 8 (x.toNat / 65536) ++ BitVec.ofNat 8 (x.toNat / 256) ++ BitVec.ofNat 8 x.toNat : BitVec 48) = x := by
  have hx := x.isLt
  refine BitVec.eq_of_toNat_eq ?_
  simp only [toNat_append_byte, BitVec.toNat_ofNat]
  omega

/-- The three bytes of a 24-bit sample give it back. -/
theorem sampleOf_be24i {v : Int} (hv : sampleOk v = true) :
    sampleOf (BitVec.ofNat 8 ((BitVec.ofInt 24 v).toNat / 65536)) (BitVec.ofNat 8 ((BitVec.ofInt 24 v).toNat / 256))
      (BitVec.ofNat 8 (BitVec.ofInt 24 v).toNat) = v := by
  have hboth : sampleMin ≤ v ∧ v ≤ fullScale := by simpa [sampleOk] using hv
  have hlow : (-8388608 : Int) ≤ v := hboth.1
  have hhigh : v ≤ (8388607 : Int) := hboth.2
  have hword : (BitVec.ofNat 8 ((BitVec.ofInt 24 v).toNat / 65536) ++ BitVec.ofNat 8 ((BitVec.ofInt 24 v).toNat / 256) ++
      BitVec.ofNat 8 (BitVec.ofInt 24 v).toNat : BitVec 24) = BitVec.ofInt 24 v := by
    have hn := (BitVec.ofInt 24 v).isLt
    refine BitVec.eq_of_toNat_eq ?_
    simp only [toNat_append_byte, BitVec.toNat_ofNat]
    omega
  unfold sampleOf
  rw [hword, BitVec.toInt_ofInt]
  exact Int.bmod_eq_of_le (by omega) (by omega)

/-- The bytes of a run of samples. -/
def sampleBytes (xs : List Sample) : List Byte := (xs.map be24i).flatten

theorem sampleBytes_length : ∀ xs : List Sample, (sampleBytes xs).length = 3 * xs.length
  | [] => rfl
  | x :: xs => by
    have hcons : sampleBytes (x :: xs) = be24i x ++ sampleBytes xs := rfl
    have hx : (be24i x).length = 3 := rfl
    rw [hcons, List.length_append, sampleBytes_length xs, hx, List.length_cons]
    omega

theorem samplesOf_sampleBytes : ∀ {xs : List Sample}, xs.all sampleOk = true → samplesOf (sampleBytes xs) = xs
  | [], _ => rfl
  | x :: xs, h => by
    obtain ⟨hx, hxs⟩ := (List.all_cons ..).symm.trans h |> Bool.and_eq_true_iff.mp
    have hcons : samplesOf (sampleBytes (x :: xs)) = sampleOf _ _ _ :: samplesOf (sampleBytes xs) := rfl
    rw [hcons, samplesOf_sampleBytes hxs, sampleOf_be24i hx]

/-! ### The frame -/

section
variable {f : StageFrame}

/-- The bytes of a stage-bound frame before its returns (R17). -/
def stageHeader (f : StageFrame) : List Byte := be16 f.number.toNat ++ be48 f.ident ++ [f.roleCode.zeroExtend 8]

theorem stageContent_eq (f : StageFrame) : stageContent f =
    stageHeader f ++ (sampleBytes f.audio.returns ++ (be24i f.audio.talk ++ f.lane)) := by
  simp [stageContent, stageHeader, sampleBytes]

theorem StageFrame.ok_iff : f.ok = true ↔
    f.audio.returns.length = 16 ∧ f.audio.returns.all sampleOk = true ∧ sampleOk f.audio.talk = true ∧ f.lane.length = 8 := by
  simp only [StageFrame.ok, Audio.ok, Bool.and_eq_true, decide_eq_true_eq, and_assoc]

theorem stageContent_length (hf : f.ok = true) : (stageContent f).length = 68 := by
  obtain ⟨hreturns, -, -, hlane⟩ := StageFrame.ok_iff.mp hf
  have hheader : (stageHeader f).length = 9 := rfl
  have htalk : (be24i f.audio.talk).length = 3 := rfl
  rw [stageContent_eq, List.length_append, List.length_append, List.length_append, sampleBytes_length, hheader, htalk, hreturns, hlane]

theorem stageBytes_length (hf : f.ok = true) : (stageBytes f).length = 72 := by
  have hcheck : (be32 (frameCheck (stageContent f)).toNat).length = 4 := rfl
  rw [stageBytes, List.length_append, stageContent_length hf, hcheck]

theorem stageCheckPasses_stageBytes (hf : f.ok = true) : stageCheckPasses (stageBytes f) = true := by
  have hlen := stageContent_length hf
  have hdrop : (stageBytes f).drop 68 = be32 (frameCheck (stageContent f)).toNat := List.drop_left' hlen
  have htake : (stageBytes f).take 68 = stageContent f := List.take_left' hlen
  unfold stageCheckPasses
  rw [hdrop, htake, stageBytes_length hf]
  simp

theorem nth_append_add {α : Type} (l r : List α) (n i : Nat) (x : α) (hl : l.length = n) : nth (l ++ r) (n + i) x = nth r i x := by
  subst hl
  exact (List.getD_append_right _ _ _ _ (Nat.le_add_right ..)).trans (by rw [Nat.add_sub_cancel_left]; rfl)

theorem stageParse_stageBytes (hf : f.ok = true) : stageParse (stageBytes f) = f := by
  obtain ⟨hreturns, hok, htalk, hlane⟩ := StageFrame.ok_iff.mp hf
  obtain ⟨check, hsplit⟩ : ∃ check, stageBytes f =
      stageHeader f ++ (sampleBytes f.audio.returns ++ (be24i f.audio.talk ++ (f.lane ++ check))) :=
    ⟨be32 (frameCheck (stageContent f)).toNat, by simp [stageBytes, stageContent_eq]⟩
  have hheader : (stageHeader f).length = 9 := rfl
  have hrun : (sampleBytes f.audio.returns).length = 48 := by rw [sampleBytes_length, hreturns]
  have htail : (stageHeader f ++ sampleBytes f.audio.returns).length = 57 := by rw [List.length_append, hheader, hrun]
  have hsamples : ((stageBytes f).drop 9).take 48 = sampleBytes f.audio.returns := by
    rw [hsplit, List.drop_left' hheader, List.take_left' hrun]
  have hbyte (i : Nat) : nth (stageBytes f) (57 + i) 0 = nth (be24i f.audio.talk ++ (f.lane ++ check)) i 0 := by
    rw [hsplit, ← List.append_assoc, nth_append_add _ _ _ _ _ htail]
  have hlane8 : ((stageBytes f).drop 60).take 8 = f.lane := by
    have hfront : (stageHeader f ++ (sampleBytes f.audio.returns ++ be24i f.audio.talk)).length = 60 := by
      rw [List.length_append, List.length_append, hheader, hrun]
      rfl
    have hsplit' : stageBytes f = (stageHeader f ++ (sampleBytes f.audio.returns ++ be24i f.audio.talk)) ++ (f.lane ++ check) := by
      rw [hsplit]
      simp
    rw [hsplit', List.drop_left' hfront, List.take_left' hlane]
  have hnumber : wordOf (nth (stageBytes f) 0 0) (nth (stageBytes f) 1 0) = f.number := by
    rw [hsplit]
    exact wordOf_bytes f.number
  have hident : (nth (stageBytes f) 2 0 ++ nth (stageBytes f) 3 0 ++ nth (stageBytes f) 4 0 ++ nth (stageBytes f) 5 0 ++
      nth (stageBytes f) 6 0 ++ nth (stageBytes f) 7 0 : BitVec 48) = f.ident := by
    rw [hsplit]
    exact deskId_bytes f.ident
  have hrole : (nth (stageBytes f) 8 0).setWidth 2 = f.roleCode := by
    rw [hsplit]
    show (f.roleCode.zeroExtend 8).setWidth 2 = f.roleCode
    simp
  have htalk' : sampleOf (nth (stageBytes f) 57 0) (nth (stageBytes f) 58 0) (nth (stageBytes f) 59 0) = f.audio.talk := by
    rw [hbyte 0, hbyte 1, hbyte 2]
    exact sampleOf_be24i htalk
  unfold stageParse
  dsimp only
  rw [hsamples, samplesOf_sampleBytes hok, hlane8, hnumber, hident, hrole, htalk']

end

/-- Settles O25: the layout is read back field by field, and the check covers the content. -/
theorem stageFramesRoundTrip : Obligations.StageFramesRoundTrip := by
  intro f hf
  refine ⟨stageBytes_length hf, stageCheckPasses_stageBytes hf, stageParse_stageBytes hf, fun p w => ?_⟩
  unfold periodCommand
  dsimp only
  rw [if_pos (stageCheckPasses_stageBytes hf), stageParse_stageBytes hf]

end Sys2Proof.Machine

/-!
Polls (R60 to R63): what a card's eight channels become when it answers, reports an overcurrent, returns or departs.
-/
namespace Sys2Proof.Machine

/-! ### Runs over channels -/

section
variable {α : Type} {f : α → State → State} {place : α → Fin 64} {F : α → Channel → Channel}

/-- A run that changes the channel of each of its entries and no other. -/
theorem State.channel_foldOver (hstep : ∀ x s, (f x s).channels = modNth s.channels (place x) (F x)) :
    ∀ {l : List α} {s : State}, s.channels.length = 64 → (l.map place).Nodup →
      (∀ x, x ∈ l → (State.foldOver f l s).channel (place x) = F x (s.channel (place x))) ∧
        ∀ j : Nat, (∀ x, x ∈ l → (place x).val ≠ j) → (State.foldOver f l s).channel j = s.channel j
  | [], _, _, _ => ⟨nofun, fun _ _ => rfl⟩
  | x :: l, s, hlen, hnodup => by
    obtain ⟨hx, hl⟩ := List.nodup_cons.mp hnodup
    have hown : (f x s).channel (place x) = F x (s.channel (place x)) := by
      rw [State.channel, hstep]
      exact nth_modNth_same _ _ _ _ (hlen.symm ▸ (place x).isLt)
    have hother {j : Nat} (hj : (place x).val ≠ j) : (f x s).channel j = s.channel j := by
      rw [State.channel, hstep]
      exact nth_modNth_ne _ _ _ _ _ hj
    have hfresh (y : α) (hy : y ∈ l) : (place y).val ≠ (place x).val := fun he =>
      hx (Fin.ext he ▸ List.mem_map_of_mem hy)
    obtain ⟨hin, hout⟩ := State.channel_foldOver hstep (l := l) (s := f x s) (by rw [hstep, length_modNth, hlen]) hl
    refine ⟨fun y hy => ?_, fun j hj => ?_⟩
    · rcases List.mem_cons.mp hy with rfl | hy
      · exact (hout _ hfresh).trans hown
      · exact (hin y hy).trans (by rw [hother (hfresh y hy).symm])
    · exact (hout j fun y hy => hj y (List.mem_cons_of_mem x hy)).trans (hother (hj x List.mem_cons_self))

/-- A run that takes entries out of a list. -/
theorem State.mem_foldOver {g : State → List (Fin 64)} {hit : α → Fin 64 → Prop}
    (hstep : ∀ x s i, i ∈ g (f x s) ↔ i ∈ g s ∧ ¬hit x i) (i : Fin 64) :
    ∀ (l : List α) (s : State), i ∈ g (State.foldOver f l s) ↔ i ∈ g s ∧ ∀ x, x ∈ l → ¬hit x i
  | [], _ => by simp [State.foldOver]
  | x :: l, s => by
    rw [State.foldOver, State.mem_foldOver hstep i l, hstep]
    simp [and_assoc]

end

/-! ### The channels of a card -/

theorem cardInputs_eq (c : Fin 8) : cardInputs c = (List.finRange 8).map (cardInput c) := rfl

theorem cardInput_injective (c : Fin 8) : Function.Injective (cardInput c) := fun k j h => by
  have hval : 8 * c.val + k.val = 8 * c.val + j.val := congrArg Fin.val h
  omega

theorem cardInputs_nodup (c : Fin 8) : (cardInputs c).Nodup := (List.nodup_finRange 8).map (cardInput_injective c)

theorem mem_cardInputs {c : Fin 8} {i : Fin 64} : i ∈ cardInputs c ↔ i.val / 8 = c.val := by
  rw [cardInputs_eq, List.mem_map]
  constructor
  · rintro ⟨k, -, rfl⟩
    show (8 * c.val + k.val) / 8 = c.val
    omega
  · intro h
    refine ⟨⟨i.val % 8, Nat.mod_lt _ (by decide)⟩, List.mem_finRange _, Fin.ext ?_⟩
    show 8 * c.val + i.val % 8 = i.val
    omega

/-- The code of an input as a source (R124). -/
def inputCode (i : Fin 64) : Nat := inputBase + i

theorem inputCodes_nodup (c : Fin 8) : ((cardInputs c).map inputCode).Nodup :=
  (cardInputs_nodup c).map fun _ _ h => Fin.ext (Nat.add_left_cancel h)

theorem isInputOf_iff (c : Fin 8) (code : Nat) : IsInputOf c.val code ↔ code ∈ (cardInputs c).map inputCode := by
  unfold IsInputOf
  rw [List.mem_map]
  constructor
  · rintro ⟨hlow, hhigh⟩
    refine ⟨⟨code - 101, by omega⟩, mem_cardInputs.mpr ?_, ?_⟩
    · show (code - 101) / 8 = c.val
      omega
    · show 101 + (code - 101) = code
      omega
  · rintro ⟨i, hi, rfl⟩
    have hcard := mem_cardInputs.mp hi
    show 101 + 8 * c.val ≤ 101 + i.val ∧ 101 + i.val < 109 + 8 * c.val
    omega

/-! ### A card departs -/

/-- A channel of a card that has become ABSENT (R62). -/
def Channel.departed (c : Channel) : Channel :=
  { c with
    link := .absent, op := .idle, sent := none, holdOwed := false, markerTimer := none, holdTimer := none, retryTimer := none,
    applied := { c.applied with phantom := false }, gate := 0, gateOpen := false, handOver := false }

/-- The state in which the loss of an input finds the part. -/
def State.departing (i : Fin 64) (s : State) : State :=
  { s with cardQueue := s.cardQueue.filter (· ≠ i), sendList := s.sendList.filter (· ≠ i) }.modChannel i Channel.departed

theorem State.departChannel_eq (i : Fin 64) (s : State) : s.departChannel i = (s.departing i).sourceLost (inputCode i) := rfl

theorem sourceOf_input {code n : Nat} (h : sourceOf code = some (.input n)) : code = 101 + n := by
  unfold sourceOf at h
  repeat' split at h
  all_goals first | (injection h with h; injection h with h; omega) | cases h

theorem sourceOf_inputCode (i : Fin 64) : sourceOf (inputCode i) = some (.input i) := by
  have hi := i.isLt
  unfold sourceOf inputCode inputBase
  rw [if_neg (by omega), if_neg (by omega), if_pos (by omega), Nat.add_sub_cancel_left]

/-- Availability reads the link states and the states of the slots. -/
theorem State.available_congr {s t : State} {code : Nat} (hslots : t.slots = s.slots)
    (hlink : ∀ n, sourceOf code = some (.input n) → (t.channel n).link = (s.channel n).link) : t.available code = s.available code := by
  unfold State.available
  cases hsource : sourceOf code with
  | none => rfl
  | some src =>
    cases src with
    | input n => exact congrArg (fun x => decide (x ≠ Link.absent)) (hlink n hsource)
    | ret d n =>
      show decide ((t.slots.get d).state = .active) = decide ((s.slots.get d).state = .active)
      rw [hslots]
    | _ => rfl

section
variable {i : Fin 64} {s : State}

theorem State.link_departing {code n : Nat} (hc : code ≠ inputCode i) (hn : sourceOf code = some (.input n)) :
    ((s.departing i).channel n).link = (s.channel n).link := by
  refine congrArg Channel.link (nth_modNth_ne s.channels i n Channel.departed Channel.reset fun he => hc ?_)
  rw [sourceOf_input hn, ← he]
  rfl

theorem State.available_departing_own (hs : s.channels.length = 64) : (s.departing i).available (inputCode i) = false := by
  have hown : (s.departing i).channel i = (s.channel i).departed :=
    nth_modNth_same s.channels i Channel.departed Channel.reset (hs.symm ▸ i.isLt)
  unfold State.available
  rw [sourceOf_inputCode]
  show decide (((s.departing i).channel i).link ≠ .absent) = false
  rw [hown]
  rfl

theorem State.available_departing_other {code : Nat} (hc : code ≠ inputCode i) : (s.departing i).available code = s.available code :=
  State.available_congr (t := s.departing i) rfl fun _ hn => State.link_departing hc hn

theorem State.available_departChannel (code : Nat) : (s.departChannel i).available code = (s.departing i).available code :=
  State.available_congr (s := s.departing i) (t := s.departChannel i) rfl fun _ _ => rfl

end

theorem losing_inputs : Losing (fun s => s.channels.length = 64) (fun _ : Fin 64 => True) State.departChannel State.departing inputCode where
  keepsInv i s _ hs := (length_modNth s.channels i.val Channel.departed).trans hs
  output i s _ _ o := State.output_sourceLost (Nat.lt_add_right _ (by decide)) (s.departing i) o
  stands i s c _ _ hc := ⟨(State.available_departChannel c).trans (State.available_departing_other hc), State.available_departing_other hc⟩
  drops i s _ hs := (State.available_departChannel _).trans (State.available_departing_own hs)
  stays i s c _ hs hgone := by
    have hafter : (s.departing i).available c = false := by
      by_cases hc : c = inputCode i
      · rw [hc]
        exact State.available_departing_own hs
      · exact (State.available_departing_other hc).trans hgone
    exact ⟨(State.available_departChannel c).trans hafter, hafter⟩

end Sys2Proof.Machine

/-!
Polls, answered and unanswered (R46, R60 to R63).
-/
namespace Sys2Proof.Machine

/-! ### The channel of a card that returns or reports an overcurrent -/

/-- A channel of a card that has become PRESENT (R63). -/
def Channel.returned (c : Channel) : Channel :=
  { c with link := .ready, applied := Setting.rest, gateOpen := !c.desired.phantom, handOver := true }

/-- A channel that has been offered to the card-line queue (R51). -/
def Channel.offered (c : Channel) : Channel := if c.op = .idle ∧ c.desired ≠ c.applied then { c with op := .queued } else c

/-- A channel with an overcurrent (R61). -/
def Channel.tripped (c : Channel) : Channel :=
  { c with
    desired := { c.desired with phantom := false }, applied := { c.applied with phantom := false }, latch := true, gateOpen := false,
    op := if c.op = .inFlight then .inFlight else .settling,
    sent := if c.op = .inFlight then c.sent.map fun x => { x with phantom := false } else c.sent,
    holdOwed := if c.op = .inFlight then true else c.holdOwed,
    holdTimer := if c.op = .inFlight then c.holdTimer else some 0 }

section
variable (s : State) (i : Fin 64)

theorem State.channels_returnChannel : (s.returnChannel i).channels = modNth s.channels i Channel.returned := rfl

theorem State.channels_departChannel : (s.departChannel i).channels = modNth s.channels i Channel.departed := rfl

theorem State.channels_queueIfDiffers : (s.queueIfDiffers i).channels = modNth s.channels i Channel.offered := by
  unfold State.queueIfDiffers
  split
  next h => exact modNth_congr Channel.reset (if_pos h).symm
  next h =>
    have hfixed : (s.channel i).offered = s.channel i := if_neg h
    exact (modNth_of_fixed Channel.reset hfixed).symm

theorem State.channels_overcurrent : (s.overcurrent i).channels = modNth s.channels i Channel.tripped := by
  refine congrArg (modNth s.channels i) (funext fun c => ?_)
  unfold Channel.tripped
  cases hop : c.op <;> rfl

/-! ### What a poll leaves alone -/

/-- The part of the state that the channels of a card do not touch. -/
def State.beside (s : State) := (s.line, s.cards, s.comp, s.mixes, s.slots, s.ports, s.domains)

theorem State.beside_queueIfDiffers : (s.queueIfDiffers i).beside = s.beside := by
  unfold State.queueIfDiffers
  split <;> rfl

theorem State.beside_returns (l : List (Fin 64)) : (State.foldOver State.returnChannel l s).beside = s.beside :=
  State.foldOver_field State.beside State.returnChannel (fun _ _ => rfl) l s

theorem State.beside_departs (l : List (Fin 64)) : (State.foldOver State.departChannel l s).beside = s.beside :=
  State.foldOver_field State.beside State.departChannel (fun _ _ => rfl) l s

theorem State.beside_offers (l : List (Fin 64)) : (State.foldOver State.queueIfDiffers l s).beside = s.beside :=
  State.foldOver_field State.beside State.queueIfDiffers (fun i s => s.beside_queueIfDiffers i) l s

end

/-! ### Answers -/

/-- A poll whose answer counts, but for its content (R60). -/
def State.polled (c : Fin 8) (s : State) : State :=
  { s.modCard c fun r => { r with unanswered := 0, present := true } with line := { s.line with exchange := .none } }

/-- An overcurrent report, channel by channel (R61). -/
def State.reported (c : Fin 8) (oc : BitVec 8) (k : Fin 8) (s : State) : State :=
  if oc.getLsbD k.val then s.overcurrent (cardInput c k) else s

section
variable {s : State} {c : Fin 8} {oc : BitVec 8}

theorem State.pollAnswer_of_rest (h : s.line.exchange = .poll c true) :
    s.pollAnswer c oc = State.foldOver State.queueIfDiffers (cardInputs c) (State.foldOver State.returnChannel (cardInputs c) (s.polled c)) := by
  rw [State.pollAnswer, h]
  exact if_pos rfl

theorem State.pollAnswer_of_poll (h : s.line.exchange = .poll c false) :
    s.pollAnswer c oc = State.foldOver (State.reported c oc) [0, 1, 2, 3, 4, 5, 6, 7] (s.polled c) := by
  rw [State.pollAnswer, h]
  exact if_pos rfl

theorem State.pollAnswer_of_other (h : ∀ e rest, s.line.exchange = .poll e rest → e ≠ c) : s.pollAnswer c oc = s := by
  unfold State.pollAnswer
  split
  next e rest he => exact if_neg (h e rest he)
  · rfl
  · rfl

theorem State.card_polled (hcards : s.cards.length = 8) : (s.polled c).card c = { present := true, unanswered := 0 } :=
  nth_modNth_same s.cards c _ _ (hcards.symm ▸ c.isLt)

theorem State.card_polled_ne {e : Nat} (he : e ≠ c.val) : (s.polled c).card e = s.card e := nth_modNth_ne s.cards c e _ _ he.symm

/-- The returned card's channels (R63); the others stand. -/
theorem State.channel_returns (hshaped : s.Shaped) :
    let t := State.foldOver State.queueIfDiffers (cardInputs c) (State.foldOver State.returnChannel (cardInputs c) (s.polled c))
    (∀ i : Fin 64, i.val / 8 = c.val → t.channel i = (s.channel i).returned.offered) ∧
      ∀ i : Nat, i / 8 ≠ c.val → t.channel i = s.channel i := by
  have hnodup : ((cardInputs c).map id).Nodup := by
    rw [List.map_id]
    exact cardInputs_nodup c
  obtain ⟨hreturned, hstand⟩ := State.channel_foldOver (place := id) (F := fun _ => Channel.returned)
    (fun i s => s.channels_returnChannel i) (l := cardInputs c) (s := s.polled c) hshaped.channels hnodup
  have hlen : (State.foldOver State.returnChannel (cardInputs c) (s.polled c)).channels.length = 64 := by
    refine (State.foldOver_field (fun s => s.channels.length) State.returnChannel (fun i s => ?_) _ _).trans hshaped.channels
    exact (congrArg List.length (s.channels_returnChannel i)).trans (length_modNth ..)
  obtain ⟨hoffered, hstand'⟩ := State.channel_foldOver (place := id) (F := fun _ => Channel.offered)
    (fun i s => s.channels_queueIfDiffers i) hlen hnodup
  refine ⟨fun i hi => ?_, fun i hi => ?_⟩
  · have hmem := mem_cardInputs.mpr hi
    exact (hoffered i hmem).trans (congrArg Channel.offered (hreturned i hmem))
  · have hother (j : Fin 64) (hj : j ∈ cardInputs c) : (id j : Fin 64).val ≠ i := fun he => hi (he ▸ mem_cardInputs.mp hj)
    exact (hstand' i hother).trans (hstand i hother)

/-- Outputs fed by the card take its return (R64, R125). -/
theorem State.sourcesBack_returns :
    s.SourcesBack (IsInputOf c.val)
      (State.foldOver State.queueIfDiffers (cardInputs c) (State.foldOver State.returnChannel (cardInputs c) (s.polled c))) := by
  have hback : (s.polled c).SourcesBack (IsInputOf c.val) (State.foldOver State.returnChannel (cardInputs c) (s.polled c)) := by
    refine State.sourcesBack_of_regains (inputCodes_nodup c) (isInputOf_iff c) fun o => ?_
    refine State.output_foldOver_regains (f := State.returnChannel) (code := inputCode) (fun i u hu => ⟨hu, fun o => ?_⟩) _ rfl o
    rw [← hu]
    exact State.output_sourceRegained (Nat.lt_add_right _ (by decide)) (u.modChannel i Channel.returned) o
  exact hback.congr rfl rfl (by simp)

/-! ### Reports -/

theorem mem_filter_ne {α : Type} [DecidableEq α] {i j : α} {l : List α} : i ∈ l.filter (· ≠ j) ↔ i ∈ l ∧ ¬j = i := by
  rw [List.mem_filter, decide_eq_true_eq, ne_comm]

theorem State.channels_reported (k : Fin 8) (s : State) :
    (s.reported c oc k).channels = modNth s.channels (cardInput c k) (if oc.getLsbD k.val then Channel.tripped else id) := by
  unfold State.reported
  split
  · exact s.channels_overcurrent _
  · exact (modNth_of_fixed Channel.reset rfl).symm

theorem State.cardQueue_reported (k : Fin 8) (s : State) (i : Fin 64) :
    i ∈ (s.reported c oc k).cardQueue ↔ i ∈ s.cardQueue ∧ ¬(oc.getLsbD k.val = true ∧ cardInput c k = i) := by
  unfold State.reported
  split
  next hbit =>
    have hfilter : i ∈ (s.overcurrent (cardInput c k)).cardQueue ↔ i ∈ s.cardQueue.filter (· ≠ cardInput c k) := Iff.rfl
    rw [hfilter, mem_filter_ne]
    exact and_congr_right fun _ => not_congr (and_iff_right hbit).symm
  next hbit => exact ⟨fun h => ⟨h, fun hhit => hbit hhit.1⟩, And.left⟩

theorem State.sendList_reported (k : Fin 8) (s : State) (i : Fin 64) :
    i ∈ (s.reported c oc k).sendList ↔ i ∈ s.sendList ∧ ¬(oc.getLsbD k.val = true ∧ cardInput c k = i) := by
  unfold State.reported
  split
  next hbit =>
    have hfilter : i ∈ (s.overcurrent (cardInput c k)).sendList ↔ i ∈ s.sendList.filter (· ≠ cardInput c k) := Iff.rfl
    rw [hfilter, mem_filter_ne]
    exact and_congr_right fun _ => not_congr (and_iff_right hbit).symm
  next hbit => exact ⟨fun h => ⟨h, fun hhit => hbit hhit.1⟩, And.left⟩

theorem State.beside_reported (k : Fin 8) (s : State) :
    (s.reported c oc k).beside = s.beside ∧ (s.reported c oc k).outputs = s.outputs := by
  unfold State.reported
  split <;> exact ⟨rfl, rfl⟩

end
end Sys2Proof.Machine

/-!
What polls do (R46, R60 to R63).
-/
namespace Sys2Proof.Machine

section
variable {s : State} {c : Fin 8} {oc : BitVec 8}

/-! ### The slot -/

theorem State.pollSlot_of_due (htaken : s.line.slotTaken = false) (hdue : s.line.slotNumber % 10 = 0) (hnone : s.line.exchange = .none) :
    s.pollSlot = { s with
      line := { s.line with
        slotTaken := true, pollsBegun := s.line.pollsBegun + 1,
        exchange := .poll s.line.pollCard (!(s.card s.line.pollCard).present) } } := by
  rw [State.pollSlot, if_pos ⟨htaken, decide_eq_true hdue⟩, State.settleExchange_of_none hnone]

theorem State.pollSlot_of_not_due (h : s.line.slotTaken = true ∨ s.line.slotNumber % 10 ≠ 0) : s.pollSlot = s := by
  refine if_neg fun hdue => ?_
  rcases h with h | h
  · rw [hdue.1] at h
    cases h
  · exact h (of_decide_eq_true hdue.2)

/-! ### A card returns -/

theorem State.pollAnswer_return (hshaped : s.Shaped) (h : s.line.exchange = .poll c true) :
    let t := s.pollAnswer c oc
    t.line = { s.line with exchange := .none } ∧ t.card c = { present := true, unanswered := 0 } ∧
      (∀ e, e < 8 → e ≠ c.val → t.card e = s.card e) ∧ (∀ i, i < 64 → i / 8 ≠ c.val → t.channel i = s.channel i) ∧
      (∀ i, i < 64 → i / 8 = c.val → (t.channel i).link = .ready ∧ (t.channel i).desired = (s.channel i).desired ∧
        (t.channel i).applied = { gain := 0, pad := false, phantom := false } ∧
        (t.channel i).gateOpen = !(s.channel i).desired.phantom ∧ (t.channel i).handOver = true ∧
        ((s.channel i).op = .idle →
          (t.channel i).op = if (s.channel i).desired = { gain := 0, pad := false, phantom := false } then .idle else .queued)) ∧
      s.SourcesBack (IsInputOf c.val) t ∧ t.comp = s.comp ∧ t.mixes = s.mixes ∧ t.slots = s.slots ∧ t.ports = s.ports := by
  have hbeside := (State.beside_offers _ (cardInputs c)).trans (State.beside_returns (s.polled c) (cardInputs c))
  simp only [State.beside, Prod.mk.injEq] at hbeside
  obtain ⟨hline, hcards, hcomp, hmixes, hslots, hports, -⟩ := hbeside
  obtain ⟨hown, hother⟩ := State.channel_returns (c := c) hshaped
  have hcard (e : Nat) := congrArg (nth · e Card.reset) hcards
  intro t
  have ht : t = State.foldOver State.queueIfDiffers (cardInputs c) (State.foldOver State.returnChannel (cardInputs c) (s.polled c)) :=
    State.pollAnswer_of_rest h
  rw [ht]
  refine ⟨hline, (hcard c).trans (State.card_polled hshaped.cards), fun e _ he => (hcard e).trans (State.card_polled_ne he),
    fun i _ hi => hother i hi, fun i hi hcard => ?_, State.sourcesBack_returns, hcomp, hmixes, hslots, hports⟩
  rw [hown ⟨i, hi⟩ hcard]
  unfold Channel.offered
  split
  next hdiff => exact ⟨rfl, rfl, rfl, rfl, rfl, fun _ => (if_neg hdiff.2).symm⟩
  next hsame =>
    refine ⟨rfl, rfl, rfl, rfl, rfl, fun hidle => ?_⟩
    have hrest : (s.channel i).desired = Setting.rest := not_not.mp fun hdiff => hsame ⟨hidle, hdiff⟩
    exact hidle.trans (if_pos hrest).symm

/-! ### A card reports -/

theorem cardInput_of_div {i : Fin 64} (hi : i.val / 8 = c.val) : cardInput c ⟨i.val % 8, Nat.mod_lt _ (by decide)⟩ = i := by
  refine Fin.ext ?_
  show 8 * c.val + i.val % 8 = i.val
  omega

/-- The channels of a report, by their bit (R61). -/
theorem State.channel_reports (hshaped : s.Shaped) :
    let t := State.foldOver (State.reported c oc) (List.finRange 8) (s.polled c)
    (∀ i : Fin 64, i.val / 8 = c.val → t.channel i = if oc.getLsbD (i.val % 8) then (s.channel i).tripped else s.channel i) ∧
      ∀ i : Fin 64, i.val / 8 ≠ c.val → t.channel i = s.channel i := by
  have hnodup : ((List.finRange 8).map (cardInput c)).Nodup := (List.nodup_finRange 8).map (cardInput_injective c)
  obtain ⟨hin, hout⟩ := State.channel_foldOver (fun k s => s.channels_reported (c := c) (oc := oc) k) (s := s.polled c) hshaped.channels hnodup
  refine ⟨fun i hi => ?_, fun i hi => hout i fun k _ he => hi ?_⟩
  · have hk := hin ⟨i.val % 8, Nat.mod_lt _ (by decide)⟩ (List.mem_finRange _)
    rw [cardInput_of_div hi] at hk
    refine hk.trans ?_
    split <;> rfl
  · rw [← he]
    show (8 * c.val + k.val) / 8 = c.val
    omega

/-- An entry is taken out of a list by its own bit only. -/
theorem reported_hit {i : Fin 64} : (∀ k : Fin 8, k ∈ List.finRange 8 → ¬(oc.getLsbD k.val = true ∧ cardInput c k = i)) ↔
    i.val / 8 ≠ c.val ∨ oc.getLsbD (i.val % 8) = false := by
  constructor
  · intro h
    by_cases hi : i.val / 8 = c.val
    · right
      have hk := h ⟨i.val % 8, Nat.mod_lt _ (by decide)⟩ (List.mem_finRange _)
      exact Bool.eq_false_iff.mpr fun hbit => hk ⟨hbit, cardInput_of_div hi⟩
    · exact .inl hi
  · rintro h k - ⟨hbit, rfl⟩
    have hdiv : (cardInput c k).val / 8 = c.val := by
      show (8 * c.val + k.val) / 8 = c.val
      omega
    have hmod : (cardInput c k).val % 8 = k.val := by
      show (8 * c.val + k.val) % 8 = k.val
      omega
    rcases h with h | h
    · exact h hdiv
    · rw [hmod, hbit] at h
      cases h

theorem Channel.tripped_spec (x : Channel) :
    (x.op = .inFlight → x.tripped.op = .inFlight ∧ x.tripped.holdOwed = true ∧
      x.tripped.sent = x.sent.map fun y => { y with phantom := false }) ∧
      (x.op ≠ .inFlight → x.tripped.op = .settling ∧ x.tripped.holdTimer = some 0) := by
  unfold Channel.tripped
  exact ⟨fun h => ⟨if_pos h, if_pos h, if_pos h⟩, fun h => ⟨if_neg h, if_neg h⟩⟩

theorem State.pollAnswer_report (hshaped : s.Shaped) (h : s.line.exchange = .poll c false) :
    let t := s.pollAnswer c oc
    t.line = { s.line with exchange := .none } ∧ t.card c = { present := true, unanswered := 0 } ∧
      (∀ i : Fin 64, i.val / 8 = c.val → oc.getLsbD (i.val % 8) = true →
        (t.channel i).desired = { (s.channel i).desired with phantom := false } ∧
        (t.channel i).applied = { (s.channel i).applied with phantom := false } ∧ (t.channel i).latch = true ∧
        (t.channel i).gateOpen = false ∧ i ∉ t.cardQueue ∧ i ∉ t.sendList ∧
        ((s.channel i).op = .inFlight → (t.channel i).op = .inFlight ∧ (t.channel i).holdOwed = true ∧
          (t.channel i).sent = (s.channel i).sent.map fun x => { x with phantom := false }) ∧
        ((s.channel i).op ≠ .inFlight → (t.channel i).op = .settling ∧ (t.channel i).holdTimer = some 0)) ∧
      (∀ i : Fin 64, (i.val / 8 ≠ c.val ∨ oc.getLsbD (i.val % 8) = false) → t.channel i = s.channel i ∧
        (i ∈ t.cardQueue ↔ i ∈ s.cardQueue)) ∧
      t.comp = s.comp ∧ t.mixes = s.mixes ∧ t.outputs = s.outputs ∧ t.slots = s.slots ∧ t.ports = s.ports := by
  have hbeside := State.foldOver_field State.beside (State.reported c oc) (fun k u => (u.beside_reported k).1) (List.finRange 8) (s.polled c)
  have houtputs := State.foldOver_field State.outputs (State.reported c oc) (fun k u => (u.beside_reported k).2) (List.finRange 8) (s.polled c)
  simp only [State.beside, Prod.mk.injEq] at hbeside
  obtain ⟨hline, hcards, hcomp, hmixes, hslots, hports, -⟩ := hbeside
  obtain ⟨hcard, hother⟩ := State.channel_reports (c := c) (oc := oc) hshaped
  have hqueue (i : Fin 64) := State.mem_foldOver (g := State.cardQueue) (fun k u i => u.cardQueue_reported (c := c) (oc := oc) k i) i
    (List.finRange 8) (s.polled c)
  have hsend (i : Fin 64) := State.mem_foldOver (g := State.sendList) (fun k u i => u.sendList_reported (c := c) (oc := oc) k i) i
    (List.finRange 8) (s.polled c)
  intro t
  have ht : t = State.foldOver (State.reported c oc) (List.finRange 8) (s.polled c) := State.pollAnswer_of_poll h
  rw [ht]
  refine ⟨hline, (congrArg (nth · c.val Card.reset) hcards).trans (State.card_polled hshaped.cards), fun i hi hbit => ?_,
    fun i hi => ⟨?_, ?_⟩, hcomp, hmixes, houtputs, hslots, hports⟩
  · have hhit : ¬∀ k : Fin 8, k ∈ List.finRange 8 → ¬(oc.getLsbD k.val = true ∧ cardInput c k = i) := by
      rw [reported_hit]
      rintro (h | h)
      · exact h hi
      · rw [hbit] at h
        cases h
    obtain ⟨hflight, hrest⟩ := (s.channel i).tripped_spec
    rw [hcard i hi, if_pos hbit]
    exact ⟨rfl, rfl, rfl, rfl, fun hq => hhit ((hqueue i).mp hq).2, fun hl => hhit ((hsend i).mp hl).2, hflight, hrest⟩
  · by_cases hdiv : i.val / 8 = c.val
    · rw [hcard i hdiv, hi.resolve_left (not_not_intro hdiv), if_neg Bool.false_ne_true]
    · exact hother i hdiv
  · exact (hqueue i).trans (and_iff_left (reported_hit.mpr hi))

/-! ### A poll without an answer -/

/-- What a poll without an answer makes of the card's count (R60). -/
def Card.missed (r : Card) : Card := { r with unanswered := if r.unanswered < 3 then r.unanswered + 1 else 3 }

theorem State.pollUnanswered_of_stay {rest : Bool} (h : s.line.exchange = .poll c rest)
    (hstay : ¬((s.card c).present = true ∧ 2 ≤ (s.card c).unanswered)) :
    s.pollUnanswered = { s with line := { s.line with exchange := .none }, cards := modNth s.cards c Card.missed } := by
  have hnot : ((s.card c).present && decide ((if (s.card c).unanswered < 3 then (s.card c).unanswered + 1 else 3) = 3)) = false := by
    rw [Bool.and_eq_false_iff, decide_eq_false_iff_not]
    by_cases hpresent : (s.card c).present = true
    · right
      have hlow : (s.card c).unanswered < 2 := Nat.lt_of_not_le fun hge => hstay ⟨hpresent, hge⟩
      rw [if_pos (by omega)]
      omega
    · exact .inl (Bool.eq_false_iff.mpr hpresent)
  unfold State.pollUnanswered
  rw [h]
  dsimp only
  rw [hnot, if_neg Bool.false_ne_true]
  have hcards : modNth s.cards c (fun r => { r with
      unanswered := if (s.card c).unanswered < 3 then (s.card c).unanswered + 1 else 3, present := r.present && !false }) =
      modNth s.cards c Card.missed := by
    refine modNth_congr Card.reset ?_
    show Card.mk ((s.card c).present && !false) _ = Card.mk _ _
    rw [Bool.not_false, Bool.and_true]
    rfl
  exact congrArg (fun l => { s with cards := l, line := { s.line with exchange := .none } }) hcards

/-- The state in which the channels of a departing card are found. -/
def State.absented (c : Fin 8) (s : State) : State :=
  { s.modCard c fun _ => { present := false, unanswered := 3 } with line := { s.line with exchange := .none } }

theorem State.pollUnanswered_of_depart {rest : Bool} (h : s.line.exchange = .poll c rest) (hpresent : (s.card c).present = true)
    (hcount : 2 ≤ (s.card c).unanswered) :
    s.pollUnanswered = State.foldOver State.departChannel (cardInputs c) (s.absented c) := by
  have hthree : (if (s.card c).unanswered < 3 then (s.card c).unanswered + 1 else 3) = 3 := by
    split <;> omega
  unfold State.pollUnanswered
  rw [h]
  dsimp only
  rw [hthree, hpresent, decide_eq_true rfl, Bool.and_self, if_pos rfl]
  have hcards : modNth s.cards c (fun r => { r with unanswered := 3, present := r.present && !true }) =
      modNth s.cards c fun _ => { present := false, unanswered := 3 } := by
    refine modNth_congr Card.reset ?_
    show Card.mk (_ && !true) 3 = _
    rw [Bool.not_true, Bool.and_false]
  refine congrArg (State.foldOver State.departChannel (cardInputs c)) ?_
  exact congrArg (fun l => { s with cards := l, line := { s.line with exchange := .none } }) hcards

theorem State.fallbackAvailable_absented (r : Output) : (s.absented c).fallbackAvailable r = s.fallbackAvailable r := rfl

theorem State.pollUnanswered_depart {rest : Bool} (hshaped : s.Shaped) (h : s.line.exchange = .poll c rest)
    (hpresent : (s.card c).present = true) (hcount : 2 ≤ (s.card c).unanswered) :
    let t := s.pollUnanswered
    t.line = { s.line with exchange := .none } ∧ t.card c = { present := false, unanswered := 3 } ∧
      (∀ e, e < 8 → e ≠ c.val → t.card e = s.card e) ∧
      (∀ i : Fin 64, i.val / 8 ≠ c.val → t.channel i = s.channel i ∧ (i ∈ t.cardQueue ↔ i ∈ s.cardQueue)) ∧
      (∀ i : Fin 64, i.val / 8 = c.val → i ∉ t.cardQueue ∧ i ∉ t.sendList ∧ t.channel i = (s.channel i).departed) ∧
      s.SourcesGone (IsInputOf c.val) t ∧
      t.comp = s.comp ∧ t.mixes = s.mixes ∧ t.slots = s.slots ∧ t.ports = s.ports ∧ t.domains = s.domains := by
  have hbeside := State.beside_departs (s.absented c) (cardInputs c)
  simp only [State.beside, Prod.mk.injEq] at hbeside
  obtain ⟨hline, hcards, hcomp, hmixes, hslots, hports, hdomains⟩ := hbeside
  have hnodup : ((cardInputs c).map id).Nodup := by
    rw [List.map_id]
    exact cardInputs_nodup c
  obtain ⟨hown, hother⟩ := State.channel_foldOver (place := id) (F := fun _ => Channel.departed)
    (fun i s => s.channels_departChannel i) (l := cardInputs c) (s := s.absented c) hshaped.channels hnodup
  have hqueue (i : Fin 64) := State.mem_foldOver (g := State.cardQueue) (f := State.departChannel) (hit := fun j i => j = i)
    (fun _ _ _ => mem_filter_ne) i (cardInputs c) (s.absented c)
  have hsend (i : Fin 64) := State.mem_foldOver (g := State.sendList) (f := State.departChannel) (hit := fun j i => j = i)
    (fun _ _ _ => mem_filter_ne) i (cardInputs c) (s.absented c)
  have hgone : (s.absented c).SourcesGone (IsInputOf c.val) (State.foldOver State.departChannel (cardInputs c) (s.absented c)) :=
    losing_inputs.sourcesGone (fun _ _ => trivial) hshaped.channels (inputCodes_nodup c) (isInputOf_iff c)
  intro t
  have ht : t = State.foldOver State.departChannel (cardInputs c) (s.absented c) := State.pollUnanswered_of_depart h hpresent hcount
  rw [ht]
  refine ⟨hline, ?_, fun e _ he => ?_, fun i hi => ⟨?_, ?_⟩, fun i hi => ?_, hgone, hcomp, hmixes, hslots, hports, hdomains⟩
  · exact (congrArg (nth · c.val Card.reset) hcards).trans (nth_modNth_same s.cards c _ _ (hshaped.cards.symm ▸ c.isLt))
  · exact (congrArg (nth · e Card.reset) hcards).trans (nth_modNth_ne s.cards c e _ _ he.symm)
  · exact hother i fun j hj he => hi (he ▸ mem_cardInputs.mp hj)
  · exact (hqueue i).trans (and_iff_left fun j hj he => hi (he ▸ mem_cardInputs.mp hj))
  · have hmem := mem_cardInputs.mpr hi
    exact ⟨fun hq => ((hqueue i).mp hq).2 i hmem rfl, fun hl => ((hsend i).mp hl).2 i hmem rfl, hown i hmem⟩

end

/-- Settles O36: a poll by its card, an answer by what was asked, and a third poll without one. -/
theorem pollEffects : Obligations.PollEffects := by
  refine ⟨fun s hpower hshaped => ⟨fun htaken hdue hnone => ?_, fun h => ?_, fun c oc => ⟨fun h => ?_, fun h => ?_, fun h => ?_⟩⟩,
    fun c rest s hpower hshaped h => ⟨fun hstay => ?_, fun hpresent hcount => ?_⟩⟩
  · exact ⟨s.line.pollCard, rfl, (exec_of_powered rfl hpower).trans (congrArg _ (State.pollSlot_of_due htaken hdue hnone))⟩
  · exact (exec_of_powered rfl hpower).trans (congrArg _ (State.pollSlot_of_not_due h))
  · exact ⟨s.pollAnswer c oc, exec_of_powered rfl hpower, State.pollAnswer_return hshaped h⟩
  · exact ⟨s.pollAnswer c oc, exec_of_powered rfl hpower, State.pollAnswer_report hshaped h⟩
  · exact (exec_of_powered rfl hpower).trans (congrArg _ (State.pollAnswer_of_other h))
  · exact (exec_of_powered rfl hpower).trans (congrArg _ (State.pollUnanswered_of_stay h hstay))
  · exact ⟨s.pollUnanswered, exec_of_powered rfl hpower, State.pollUnanswered_depart hshaped h hpresent hcount⟩

end Sys2Proof.Machine

/-!
What a load hands over (R65, R103, R137, R190 to R193).
-/
namespace Sys2Proof.Machine

/-! ### The channels -/

/-- A channel whose setting has been written, by link state and operation (R50, R51). -/
def Channel.wanting (f : Setting → Setting) (c : Channel) : Channel :=
  if f c.desired = c.desired then c
  else if c.link = .ready then Channel.offered { c with desired := f c.desired } else { c with desired := f c.desired }

/-- A channel that a stored setting has been written to (R65). -/
def Channel.loaded (x : Setting) (c : Channel) : Channel :=
  Channel.wanting (fun _ => x) (if x.phantom then { c with latch := false } else c)

theorem Channel.offered_keeps (c : Channel) : c.offered.desired = c.desired ∧ c.offered.applied = c.applied ∧ c.offered.link = c.link := by
  unfold Channel.offered
  split <;> exact ⟨rfl, rfl, rfl⟩

theorem Channel.wanting_spec (f : Setting → Setting) (c : Channel) :
    (c.wanting f).desired = f c.desired ∧ (c.wanting f).applied = c.applied ∧ (c.wanting f).link = c.link := by
  unfold Channel.wanting
  split
  next h => exact ⟨h.symm, rfl, rfl⟩
  split
  · exact Channel.offered_keeps _
  · exact ⟨rfl, rfl, rfl⟩

theorem Channel.loaded_spec (x : Setting) (c : Channel) :
    (c.loaded x).desired = x ∧ (c.loaded x).applied = c.applied ∧ (c.loaded x).link = c.link := by
  obtain ⟨hdesired, happlied, hlink⟩ := Channel.wanting_spec (fun _ => x) (if x.phantom then { c with latch := false } else c)
  refine ⟨hdesired, happlied.trans ?_, hlink.trans ?_⟩
  · split <;> rfl
  · split <;> rfl

section
variable (s : State) (i : Fin 64)

theorem State.channels_queueIfReady :
    (s.queueIfReady i).channels = modNth s.channels i fun c => if c.link = .ready then c.offered else c := by
  unfold State.queueIfReady
  split
  next h => exact (s.channels_queueIfDiffers i).trans (modNth_congr Channel.reset (if_pos h).symm)
  next h =>
    have hfixed : (if (s.channel i).link = .ready then (s.channel i).offered else s.channel i) = s.channel i := if_neg h
    exact (modNth_of_fixed (f := fun c : Channel => if c.link = .ready then c.offered else c) Channel.reset hfixed).symm

theorem State.channels_writeDesired (f : Setting → Setting) :
    (s.writeDesired i f).channels = modNth s.channels i (Channel.wanting f) := by
  unfold State.writeDesired
  split
  next h =>
    have hfixed : (s.channel i).wanting f = s.channel i := if_pos h
    exact (modNth_of_fixed Channel.reset hfixed).symm
  next h =>
    rw [State.channels_queueIfReady]
    refine (modNth_modNth ..).trans (modNth_congr Channel.reset ?_)
    exact (if_neg h).symm

/-- A stored setting as it is written (R65). -/
def State.loadChannel (body : List Byte) (i : Fin 64) (s : State) : State :=
  (if (storedSetting body i.val).phantom then s.modChannel i fun c => { c with latch := false } else s).writeDesired i
    fun _ => storedSetting body i.val

theorem State.loadChannels_eq (body : List Byte) : s.loadChannels body = State.foldOver (State.loadChannel body) (List.finRange 64) s := rfl

theorem State.channels_loadChannel (body : List Byte) :
    (s.loadChannel body i).channels = modNth s.channels i (Channel.loaded (storedSetting body i.val)) := by
  unfold State.loadChannel
  rw [State.channels_writeDesired]
  split
  next h =>
    refine (modNth_modNth ..).trans (modNth_congr Channel.reset ?_)
    exact (congrArg (Channel.wanting _) (if_pos h)).symm
  next h =>
    refine modNth_congr Channel.reset ?_
    exact (congrArg (Channel.wanting _) (if_neg h)).symm

theorem State.channel_loadChannels {s : State} (hlen : s.channels.length = 64) (body : List Byte) :
    (s.loadChannels body).channel i = (s.channel i).loaded (storedSetting body i.val) := by
  have hnodup : ((List.finRange 64).map id).Nodup := by
    rw [List.map_id]
    exact List.nodup_finRange 64
  obtain ⟨hin, -⟩ := State.channel_foldOver (place := id) (fun i s => s.channels_loadChannel i body) hlen hnodup
  exact hin i (List.mem_finRange i)

end

/-! ### The outputs -/

/-- An output set directly (R137). -/
def State.patched (s : State) (primary : Nat) (fallback : Option Nat) (level : Option Int) (ov : Override) (r : Output) : Output :=
  let r' := { r with primary := primary, fallback := fallback, override := ov, level := Level.direct level, hold := none }
  { r' with
    selection := if s.available primary then .primary else if s.fallbackAvailable r' then .fallback else .noneAvailable,
    primaryShare := if s.available primary then 240 else 0,
    fallbackShare := if s.available primary then 0 else if s.fallbackAvailable r' then 240 else 0 }

/-- The entry of an output is one the part takes (R137, R190). -/
def patchOk (body : List Byte) (o : Nat) : Bool :=
  sourceKnown (bodyWord body (7 * o)) && sourceKnown (bodyWord body (7 * o + 2)) && decide (bodyByte body (7 * o + 6) ≤ 2) &&
    !pairRefused (bodyWord body (7 * o)).toNat (bodyWord body (7 * o + 2)).toNat

/-- The primary source of an entry, or the default. -/
def patchPrimary (body : List Byte) (o : Nat) : Nat :=
  if patchOk body o then (bodyWord body (7 * o)).toNat else if o < 24 then o + 1 else 0

/-- The code of the fallback source of an entry, or the default. -/
def patchSecond (body : List Byte) (o : Nat) : Nat := if patchOk body o then (bodyWord body (7 * o + 2)).toNat else 0

/-- The level of an entry, or the default. -/
def patchLevel (body : List Byte) (o : Nat) : Option Int :=
  if patchOk body o then targetOf (levelStored (bodyWord body (7 * o + 4))) else some 0

/-- The override of an entry, or the default. -/
def patchOverride (body : List Byte) (o : Nat) : Override :=
  if patchOk body o then overrideOf (bodyByte body (7 * o + 6)) else .normal

/-- What the entry of an output makes of it. -/
def State.patchedBy (s : State) (body : List Byte) (o : Nat) : Output → Output :=
  s.patched (patchPrimary body o) (if patchSecond body o = 0 then none else some (patchSecond body o)) (patchLevel body o)
    (patchOverride body o)

section
variable {s t : State}

theorem patchOk_iff (body : List Byte) (o : Nat) : patchOk body o = true ↔
    sourceKnown (bodyWord body (7 * o)) = true ∧ sourceKnown (bodyWord body (7 * o + 2)) = true ∧ bodyByte body (7 * o + 6) ≤ 2 ∧
      pairRefused (bodyWord body (7 * o)).toNat (bodyWord body (7 * o + 2)).toNat = false := by
  simp only [patchOk, Bool.and_eq_true, decide_eq_true_eq, Bool.not_eq_true', and_assoc]

theorem sourceKnown_nonneg {v : Int} (h : sourceKnown v = true) : 0 ≤ v := by
  unfold sourceKnown at h
  exact of_decide_eq_true (Bool.and_eq_true_iff.mp h).1

theorem State.loadPatchEntry_eq (body : List Byte) (o : Nat) (s : State) :
    s.loadPatchEntry body o = s.modOutput o (s.patchedBy body o) := by
  unfold State.loadPatchEntry
  dsimp only
  by_cases hok : patchOk body o = true
  · have hknown := (patchOk_iff body o).mp hok
    have hsecond : (if bodyWord body (7 * o + 2) = 0 then none else some (bodyWord body (7 * o + 2)).toNat) =
        if patchSecond body o = 0 then none else some (patchSecond body o) := by
      have hnonneg := sourceKnown_nonneg hknown.2.1
      rw [patchSecond, if_pos hok]
      by_cases hzero : bodyWord body (7 * o + 2) = 0
      · rw [if_pos hzero, if_pos (by omega)]
      · rw [if_neg hzero, if_neg (by omega)]
    rw [if_pos hknown, hsecond]
    unfold State.patchedBy
    rw [patchPrimary, patchLevel, patchOverride, if_pos hok, if_pos hok, if_pos hok]
    rfl
  · rw [if_neg fun hknown => hok ((patchOk_iff body o).mpr hknown)]
    unfold State.patchedBy
    rw [patchPrimary, patchLevel, patchOverride, patchSecond, if_neg hok, if_neg hok, if_neg hok, if_neg hok, if_pos rfl]
    rfl

/-- What the availability of the sources reads. -/
def State.SameSources (s t : State) : Prop := t.slots = s.slots ∧ ∀ n, (t.channel n).link = (s.channel n).link

theorem State.SameSources.available (h : s.SameSources t) (code : Nat) : t.available code = s.available code :=
  State.available_congr h.1 fun n _ => h.2 n

theorem State.SameSources.patchedBy (h : s.SameSources t) (body : List Byte) (o : Nat) : t.patchedBy body o = s.patchedBy body o := by
  have hfallback (r : Output) : t.fallbackAvailable r = s.fallbackAvailable r := by
    unfold State.fallbackAvailable
    split
    · exact h.available _
    · rfl
  unfold State.patchedBy State.patched
  simp only [h.available, hfallback]

theorem State.output_patchRun (body : List Byte) : ∀ {l : List Nat} {t : State}, s.SameSources t → l.Nodup →
    (∀ o, o ∈ l → o < t.outputs.length) →
    (∀ o, o ∈ l → (State.foldOver (State.loadPatchEntry body) l t).output o = s.patchedBy body o (t.output o)) ∧
      ∀ o, o ∉ l → (State.foldOver (State.loadPatchEntry body) l t).output o = t.output o
  | [], _, _, _, _ => ⟨nofun, fun _ _ => rfl⟩
  | o :: l, t, hsame, hnodup, hlen => by
    obtain ⟨ho, hl⟩ := List.nodup_cons.mp hnodup
    have hstep : t.loadPatchEntry body o = t.modOutput o (s.patchedBy body o) := by
      rw [State.loadPatchEntry_eq, hsame.patchedBy]
    have hsame' : s.SameSources (t.loadPatchEntry body o) := by
      rw [hstep]
      exact hsame
    have hlen' (x : Nat) (hx : x ∈ l) : x < (t.loadPatchEntry body o).outputs.length := by
      rw [hstep, State.modOutput_outputs, length_modNth]
      exact hlen x (List.mem_cons_of_mem o hx)
    have hown : (t.loadPatchEntry body o).output o = s.patchedBy body o (t.output o) := by
      rw [hstep]
      exact State.output_modOutput_same _ _ _ (hlen o List.mem_cons_self)
    have hother {x : Nat} (hx : o ≠ x) : (t.loadPatchEntry body o).output x = t.output x := by
      rw [hstep]
      exact State.output_modOutput_ne _ _ _ _ hx
    obtain ⟨hin, hout⟩ := State.output_patchRun body hsame' hl hlen'
    refine ⟨fun x hx => ?_, fun x hx => ?_⟩
    · rcases List.mem_cons.mp hx with rfl | hx
      · exact (hout x ho).trans hown
      · exact (hin x hx).trans (congrArg _ (hother fun he => ho (he ▸ hx)))
    · obtain ⟨hne, hnot⟩ := not_or.mp (List.mem_cons.not.mp hx)
      exact (hout x hnot).trans (hother fun he => hne he.symm)

theorem State.output_loadPatch (hsame : s.SameSources t) (hlen : t.outputs.length = 32) (body : List Byte) {o : Nat} (ho : o < 32) :
    (t.loadPatch body).output o = s.patchedBy body o (t.output o) :=
  (State.output_patchRun body hsame List.nodup_range fun _ hx => hlen.symm ▸ List.mem_range.mp hx).1 o (List.mem_range.mpr ho)

end
end Sys2Proof.Machine

/-!
LOAD_END as a whole (R192).
-/
namespace Sys2Proof.Machine

section
variable {s : State}

/-! ### What the hand-overs leave alone -/

/-- The records that a load has no part in. -/
def State.besideLoad (s : State) := (s.lanes, s.cards, s.batches)

theorem State.besideLoad_loadChannel (body : List Byte) (i : Fin 64) (s : State) : (s.loadChannel body i).besideLoad = s.besideLoad := by
  have hdiffers (u : State) : (u.queueIfDiffers i).besideLoad = u.besideLoad := by
    unfold State.queueIfDiffers
    split <;> rfl
  have hready (u : State) : (u.queueIfReady i).besideLoad = u.besideLoad := by
    unfold State.queueIfReady
    split
    · exact hdiffers u
    · rfl
  have hwrite (u : State) (f : Setting → Setting) : (u.writeDesired i f).besideLoad = u.besideLoad := by
    unfold State.writeDesired
    split
    · rfl
    · exact hready _
  unfold State.loadChannel
  rw [hwrite]
  split <;> rfl

theorem State.besideLoad_loadChannels (body : List Byte) (s : State) : (s.loadChannels body).besideLoad = s.besideLoad :=
  State.foldOver_field State.besideLoad _ (fun i u => u.besideLoad_loadChannel body i) _ s

/-- An output patch changes the outputs only. -/
theorem State.loadPatch_only (body : List Byte) (s : State) : ∃ outs, s.loadPatch body = { s with outputs := outs } :=
  State.foldOver_outputs_only (fun o u => ⟨_, u.loadPatchEntry_eq body o⟩) (List.range 32) s

/-! ### The load -/

/-- The image that a walk has found, each body or its default (R191). -/
def walkedImage (w : WalkResult) : PerType (List Byte) := w.decisions.map fun r d => d.body (defaultImage.get r)

/-- The configuration unit after a load (R193). -/
def ConfigUnit.loaded (w : WalkResult) (c : ConfigUnit) : ConfigUnit :=
  { c with
    status := c.status ||| w.status, directory := some (w.decisions.map fun _ => Decision.verdict), image := walkedImage w,
    unitName := (walkedImage w).unit, loading := false }

/-- The part once the channels have been handed over (R65). -/
def State.channelsLoaded (w : WalkResult) (s : State) : State :=
  if s.config.fresh then State.loadChannels (walkedImage w).startChannels { s with config := s.config.loaded w }
  else { s with config := s.config.loaded w }

theorem State.loadEnd_eq (hloading : s.config.loading = true) (silentFrom : Option Nat) :
    s.loadEnd silentFrom =
      (((s.channelsLoaded (loadWalk s.memory silentFrom)).loadSafe (walkedImage (loadWalk s.memory silentFrom)).safeMix).loadPatch
        (walkedImage (loadWalk s.memory silentFrom)).outputPatch).loadStage (walkedImage (loadWalk s.memory silentFrom)).stageSettings := by
  unfold State.loadEnd
  rw [if_pos hloading]
  rfl

section
variable (w : WalkResult)

theorem State.channelsLoaded_keeps :
    (s.channelsLoaded w).config = s.config.loaded w ∧ (s.channelsLoaded w).outputs = s.outputs ∧
      (s.channelsLoaded w).ports = s.ports ∧ (s.channelsLoaded w).slots = s.slots ∧ (s.channelsLoaded w).comp = s.comp ∧
      (s.channelsLoaded w).buses = s.buses ∧ (s.channelsLoaded w).domains = s.domains ∧ (s.channelsLoaded w).memory = s.memory ∧
      (s.channelsLoaded w).started = s.started ∧ (s.channelsLoaded w).panelQueue = s.panelQueue ∧
      (s.channelsLoaded w).besideLoad = s.besideLoad := by
  unfold State.channelsLoaded
  split
  · rw [State.besideLoad_loadChannels]
    simp [State.besideLoad]
  · exact ⟨rfl, rfl, rfl, rfl, rfl, rfl, rfl, rfl, rfl, rfl, rfl⟩

theorem State.channelsLoaded_of_fresh (hfresh : s.config.fresh = true) (hlen : s.channels.length = 64) (i : Fin 64) :
    (s.channelsLoaded w).channel i = (s.channel i).loaded (storedSetting (walkedImage w).startChannels i.val) := by
  unfold State.channelsLoaded
  rw [if_pos hfresh]
  exact State.channel_loadChannels (s := { s with config := s.config.loaded w }) i hlen (walkedImage w).startChannels

theorem State.channelsLoaded_of_not_fresh (hfresh : s.config.fresh = false) :
    s.channelsLoaded w = { s with config := s.config.loaded w } := by
  unfold State.channelsLoaded
  rw [hfresh, if_neg Bool.false_ne_true]

/-- A load changes no link state and no slot. -/
theorem State.channelsLoaded_sources : s.SameSources (s.channelsLoaded w) := by
  obtain ⟨-, -, -, hslots, -⟩ := s.channelsLoaded_keeps w
  refine ⟨hslots, fun n => ?_⟩
  unfold State.channelsLoaded
  split
  · refine State.foldOver_field (fun u : State => (u.channel n).link) (State.loadChannel (walkedImage w).startChannels)
      (fun i u => ?_) (List.finRange 64) { s with config := s.config.loaded w }
    have hsame := State.link_modChannel (s := u) i n (f := Channel.loaded (storedSetting (walkedImage w).startChannels i.val))
      fun c => (Channel.loaded_spec _ c).2.2
    rw [← hsame, State.channel, State.channels_loadChannel]
    rfl
  · rfl

end

/-- An output after its entry, field by field (R137). -/
theorem State.patchedBy_spec (body : List Byte) (o : Nat) (r : Output) :
    let q := s.patchedBy body o r
    q.primary = patchPrimary body o ∧ q.fallback = (if patchSecond body o = 0 then none else some (patchSecond body o)) ∧
      q.override = patchOverride body o ∧ q.level = Level.direct (patchLevel body o) ∧ q.hold = none ∧ q.gate = r.gate ∧
      (q.selection, q.primaryShare, q.fallbackShare) =
        if s.available (patchPrimary body o) then (.primary, 240, 0)
        else if s.fallbackAvailable q then (.fallback, 0, 240) else (.noneAvailable, 0, 0) := by
  intro q
  have hfallback : s.fallbackAvailable q = s.fallbackAvailable { r with
      primary := patchPrimary body o, fallback := if patchSecond body o = 0 then none else some (patchSecond body o),
      override := patchOverride body o, level := Level.direct (patchLevel body o), hold := none } := rfl
  refine ⟨rfl, rfl, rfl, rfl, rfl, rfl, ?_⟩
  rw [hfallback]
  unfold q State.patchedBy State.patched
  dsimp only
  cases s.available (patchPrimary body o) with
  | true => rfl
  | false => generalize s.fallbackAvailable _ = second; cases second <;> rfl

end

/-- Settles O14: the walk's image goes to each block as it is defined, and availability is not changed on the way. -/
theorem loadEffect : Obligations.LoadEffect := by
  intro silentFrom s hpower hloading hshaped w image
  obtain ⟨hconfig, houtputs, hports, hslots, hcomp, hbuses, hdomains, hmemory, hstarted, hpanel, hbeside⟩ := s.channelsLoaded_keeps w
  obtain ⟨hlanes, hcards, hbatches⟩ : (s.channelsLoaded w).lanes = s.lanes ∧ (s.channelsLoaded w).cards = s.cards ∧
      (s.channelsLoaded w).batches = s.batches := by
    simpa only [State.besideLoad, Prod.mk.injEq] using hbeside
  have hsources : s.SameSources (s.channelsLoaded w) := State.channelsLoaded_sources w
  obtain ⟨outs, hpatch⟩ := State.loadPatch_only image.outputPatch ((s.channelsLoaded w).loadSafe image.safeMix)
  have hload : s.loadEnd silentFrom =
      (((s.channelsLoaded w).loadSafe image.safeMix).loadPatch image.outputPatch).loadStage image.stageSettings :=
    State.loadEnd_eq hloading silentFrom
  have hout (o : Nat) (ho : o < 32) : (s.loadEnd silentFrom).output o = s.patchedBy image.outputPatch o (s.output o) := by
    have houts : (((s.channelsLoaded w).loadSafe image.safeMix).loadPatch image.outputPatch).output o =
        s.patchedBy image.outputPatch o (((s.channelsLoaded w).loadSafe image.safeMix).output o) :=
      State.output_loadPatch (t := (s.channelsLoaded w).loadSafe image.safeMix) hsources
        ((congrArg List.length houtputs).trans hshaped.outputs) image.outputPatch ho
    have hbefore : ((s.channelsLoaded w).loadSafe image.safeMix).output o = s.output o := congrArg (nth · o Output.reset) houtputs
    rw [hload]
    exact houts.trans (congrArg _ hbefore)
  have hchannel (i : Nat) : (s.loadEnd silentFrom).channel i = (s.channelsLoaded w).channel i := by
    rw [hload, hpatch]
    rfl
  refine ⟨s.loadEnd silentFrom, exec_of_powered rfl hpower, ?_⟩
  refine ⟨?_, ?_, ?_, fun o ho => ?_, ?_, ?_, ?_, ?_, fun hfresh => ?_, fun hfresh i hi => ?_, ?_⟩
  · rw [hload, hpatch]
    exact hconfig
  · rw [hload, hpatch]
    rfl
  · rw [hload, hpatch]
    rfl
  · rw [hout o ho]
    exact State.patchedBy_spec image.outputPatch o (s.output o)
  · rw [hload]
    rfl
  · rw [hload]
    rfl
  · rw [hload, Nat.mul_comm]
    rfl
  · rw [hload, Nat.mul_comm]
    rfl
  · rw [hload, hpatch, State.channelsLoaded_of_not_fresh w hfresh]
    exact ⟨rfl, rfl⟩
  · rw [hchannel, State.channelsLoaded_of_fresh w hfresh hshaped.channels ⟨i, hi⟩]
    exact Channel.loaded_spec _ _
  · rw [hload, hpatch]
    exact ⟨hports, hslots, hlanes, hcomp, hcards, hbuses, hdomains, hbatches, hmemory, hstarted, hpanel⟩

end Sys2Proof.Machine

/-!
The bodies of the stored records, read back (R190, R195).
-/
namespace Sys2Proof.Machine

/-! ### Entries of equal length laid one after another -/

theorem nth_append_left {α : Type} {l r : List α} {i : Nat} (x : α) (hi : i < l.length) : nth (l ++ r) i x = nth l i x :=
  List.getD_append _ _ _ _ hi

/-- Byte `k` of entry `i`. -/
theorem nth_flatten_map {α β : Type} {f : α → List β} {w : Nat} (hf : ∀ x, (f x).length = w) (d : α) (y : β) {k : Nat} (hk : k < w) :
    ∀ {l : List α} {i : Nat}, i < l.length → nth (l.map f).flatten (w * i + k) y = nth (f (nth l i d)) k y
  | x :: l, 0, _ => by
    rw [Nat.mul_zero, Nat.zero_add]
    exact nth_append_left y ((hf x).symm ▸ hk)
  | x :: l, i + 1, hi => by
    have hrest := nth_flatten_map hf d y hk (l := l) (i := i) (Nat.lt_of_succ_lt_succ hi)
    have hplace : w * (i + 1) + k = w + (w * i + k) := by
      rw [Nat.mul_succ]
      omega
    rw [hplace]
    exact (nth_append_add (f x) _ w _ y (hf x)).trans hrest

theorem length_flatten_map {α β : Type} {f : α → List β} {w : Nat} (hf : ∀ x, (f x).length = w) (l : List α) :
    (l.map f).flatten.length = w * l.length := by
  induction l with
  | nil => rfl
  | cons x l ih =>
    rw [List.map_cons, List.flatten_cons, List.length_append, hf, ih, List.length_cons, Nat.mul_succ, Nat.add_comm]

theorem nth_range {n i : Nat} (hi : i < n) (x : Nat) : nth (List.range n) i x = i := by
  simp [nth, hi]

/-! ### Values in bytes -/

theorem wordOf_be16i {v : Int} (hlow : -32768 ≤ v) (hhigh : v ≤ 32767) :
    (wordOf (nth (be16i v) 0 0) (nth (be16i v) 1 0)).toInt = v := by
  have hword : wordOf (nth (be16i v) 0 0) (nth (be16i v) 1 0) = BitVec.ofInt 16 v := wordOf_bytes _
  rw [hword, BitVec.toInt_ofInt]
  exact Int.bmod_eq_of_le (by omega) (by omega)

theorem wordOf_be16 {n : Nat} (hn : n < 32768) : (wordOf (nth (be16 n) 0 0) (nth (be16 n) 1 0)).toInt = n := by
  have hnat : (wordOf (nth (be16 n) 0 0) (nth (be16 n) 1 0)).toNat = n := toNat_wordOf_be16 (by omega)
  rw [BitVec.toInt_eq_toNat_of_lt (by rw [hnat]; omega), hnat]

theorem targetOf_stored_value {t : Option Int} (ht : ∀ v, t = some v → -180 ≤ v ∧ v ≤ 20) :
    targetOf (levelStored (targetValue t)) = t := by
  rw [targetOf_levelStored]
  cases t with
  | none => rfl
  | some v =>
    obtain ⟨hlow, hhigh⟩ := ht v rfl
    have hvalue : targetValue (some v) = v := rfl
    rw [hvalue, if_neg (by omega), if_neg (by omega)]

theorem targetValue_range {t : Option Int} (ht : ∀ v, t = some v → -180 ≤ v ∧ v ≤ 20) : -32768 ≤ targetValue t ∧ targetValue t ≤ 32767 := by
  cases t with
  | none => exact ⟨by decide, by decide⟩
  | some v =>
    obtain ⟨hlow, hhigh⟩ := ht v rfl
    exact ⟨by show -32768 ≤ v; omega, by show v ≤ 32767; omega⟩

section
variable {s : State}

/-! ### The channels -/

theorem storedSetting_startBody (hlen : s.channels.length = 64) {i : Nat} (hi : i < 64)
    (hgain : 0 ≤ (s.channel i).desired.gain ∧ (s.channel i).desired.gain ≤ 60) : storedSetting s.startBody i = (s.channel i).desired := by
  have hbyte {k : Nat} (hk : k < 3) := nth_flatten_map (f := fun c : Channel =>
    [BitVec.ofInt 8 c.desired.gain, flagByte c.desired.pad, flagByte c.desired.phantom]) (w := 3) (fun _ => rfl) Channel.reset 0 hk
    (l := s.channels) (i := i) (hlen.symm ▸ hi)
  have hsigned : (nth s.startBody (3 * i) 0).toInt = (s.channel i).desired.gain := by
    refine (congrArg BitVec.toInt (hbyte (by decide : 0 < 3))).trans ?_
    show (BitVec.ofInt 8 (s.channel i).desired.gain).toInt = _
    rw [BitVec.toInt_ofInt]
    exact Int.bmod_eq_of_le (by omega) (by omega)
  have hflag {k : Nat} (b : Bool) (h : nth s.startBody (3 * i + k) 0 = flagByte b) :
      decide (bodyByte s.startBody (3 * i + k) = 1) = b := by
    unfold bodyByte
    rw [h]
    cases b <;> rfl
  unfold storedSetting
  rw [hsigned, hflag _ (hbyte (by decide : 1 < 3)), hflag _ (hbyte (by decide : 2 < 3)), clampTo, if_neg (by omega), if_neg (by omega)]
  rfl

/-! ### The matrix -/

theorem length_be16i (v : Int) : (be16i v).length = 2 := rfl

theorem bodyWord_of_bytes {body : List Byte} {i : Nat} {v : Int} (hlow : -32768 ≤ v) (hhigh : v ≤ 32767)
    (h0 : nth body i 0 = nth (be16i v) 0 0) (h1 : nth body (i + 1) 0 = nth (be16i v) 1 0) : bodyWord body i = v := by
  unfold bodyWord
  rw [h0, h1]
  exact wordOf_be16i hlow hhigh

/-- One value of every mix, mix by mix. -/
def State.mixRow (s : State) (f : Mix → Int) : List Byte := (s.mixes.map fun m => be16i (f m)).flatten

theorem State.length_mixRow (hlen : s.mixes.length = 24) (f : Mix → Int) : (s.mixRow f).length = 48 := by
  rw [State.mixRow, length_flatten_map (w := 2) fun x => length_be16i (f x), hlen]

theorem State.nth_mixRow (hlen : s.mixes.length = 24) (f : Mix → Int) {m k : Nat} (hm : m < 24) (hk : k < 2) :
    nth (s.mixRow f) (2 * m + k) 0 = nth (be16i (f (s.mix m))) k 0 :=
  nth_flatten_map (w := 2) (fun x => length_be16i (f x)) Mix.reset 0 hk (hlen.symm ▸ hm)

/-- The crosspoints of a snapshot, source by source. -/
def State.xpRows (s : State) : List Byte := ((List.range 66).map fun j => s.mixRow fun m => targetValue (m.xp j).target).flatten

theorem State.safeBody_eq (s : State) : s.safeBody =
    s.xpRows ++ (s.mixRow (fun m => targetValue m.master.target) ++ s.mixRow fun m => m.ceiling) := List.append_assoc ..

theorem State.length_xpRows (hlen : s.mixes.length = 24) : s.xpRows.length = 3168 := by
  rw [State.xpRows, length_flatten_map (w := 48) fun j => State.length_mixRow hlen _, List.length_range]

section
variable (hlen : s.mixes.length = 24) {m : Nat} (hm : m < 24)
include hlen hm

theorem bodyWord_crosspoint {j : Nat} (hj : j < 66) (ht : ∀ v, ((s.mix m).xp j).target = some v → -180 ≤ v ∧ v ≤ 20) :
    bodyWord s.safeBody (2 * (24 * j + m)) = targetValue ((s.mix m).xp j).target := by
  obtain ⟨hlow, hhigh⟩ := targetValue_range ht
  have hbyte {k : Nat} (hk : k < 2) : nth s.safeBody (48 * j + (2 * m + k)) 0 = nth (be16i (targetValue ((s.mix m).xp j).target)) k 0 := by
    rw [State.safeBody_eq, nth_append_left _ (by rw [State.length_xpRows hlen]; omega)]
    refine (nth_flatten_map (f := fun j => s.mixRow fun m => targetValue (m.xp j).target) (w := 48)
      (fun j => State.length_mixRow hlen _) 0 0 (by omega) (by rw [List.length_range]; exact hj)).trans ?_
    rw [nth_range hj]
    exact State.nth_mixRow hlen _ hm hk
  have hplace : 2 * (24 * j + m) = 48 * j + (2 * m + 0) := by omega
  rw [hplace]
  exact bodyWord_of_bytes hlow hhigh (hbyte (by decide)) (hbyte (by decide : 1 < 2))

theorem bodyWord_master (ht : ∀ v, (s.mix m).master.target = some v → -180 ≤ v ∧ v ≤ 20) :
    bodyWord s.safeBody (2 * (1584 + m)) = targetValue (s.mix m).master.target := by
  obtain ⟨hlow, hhigh⟩ := targetValue_range ht
  have hbyte {k : Nat} (hk : k < 2) : nth s.safeBody (3168 + (2 * m + k)) 0 = nth (be16i (targetValue (s.mix m).master.target)) k 0 := by
    rw [State.safeBody_eq, nth_append_add _ _ _ _ _ (State.length_xpRows hlen),
      nth_append_left _ (by rw [State.length_mixRow hlen]; omega)]
    exact State.nth_mixRow hlen _ hm hk
  have hplace : 2 * (1584 + m) = 3168 + (2 * m + 0) := by omega
  rw [hplace]
  exact bodyWord_of_bytes hlow hhigh (hbyte (by decide)) (hbyte (by decide : 1 < 2))

theorem bodyWord_ceiling (hlow : -180 ≤ (s.mix m).ceiling) (hhigh : (s.mix m).ceiling ≤ 0) :
    bodyWord s.safeBody (2 * (1608 + m)) = (s.mix m).ceiling := by
  have hbyte {k : Nat} (hk : k < 2) : nth s.safeBody (3168 + (48 + (2 * m + k))) 0 = nth (be16i (s.mix m).ceiling) k 0 := by
    rw [State.safeBody_eq, nth_append_add _ _ _ _ _ (State.length_xpRows hlen),
      nth_append_add _ _ _ _ _ (State.length_mixRow hlen _)]
    exact State.nth_mixRow hlen _ hm hk
  have hplace : 2 * (1608 + m) = 3168 + (48 + (2 * m + 0)) := by omega
  rw [hplace]
  exact bodyWord_of_bytes (by omega) (by omega) (hbyte (by decide)) (hbyte (by decide : 1 < 2))

/-- A mix comes back from the snapshot as it stood (R195). -/
theorem storedMix_safeBody (hxps : (s.mix m).xps.length = 66) (hceiling : -180 ≤ (s.mix m).ceiling ∧ (s.mix m).ceiling ≤ 0)
    (hmaster : ∀ v, (s.mix m).master.target = some v → -180 ≤ v ∧ v ≤ 20)
    (hxp : ∀ j, j < 66 → ∀ v, ((s.mix m).xp j).target = some v → -180 ≤ v ∧ v ≤ 20) :
    storedMix s.safeBody m = (s.mix m).snapshot := by
  have hrow : ((List.range 66).map fun j => targetOf (levelStored (bodyWord s.safeBody (2 * (24 * j + m))))) =
      (s.mix m).xps.map Level.target := by
    refine List.ext_getElem (by simp [hxps]) fun j hj _ => ?_
    have hj' : j < 66 := by simpa using hj
    rw [List.getElem_map, List.getElem_map, List.getElem_range, bodyWord_crosspoint hlen hm hj' (hxp j hj'),
      targetOf_stored_value (hxp j hj')]
    unfold Mix.xp nth
    rw [List.getD_eq_getElem _ _ (by rw [hxps]; exact hj')]
  unfold storedMix
  rw [hrow, bodyWord_master hlen hm hmaster, targetOf_stored_value hmaster, bodyWord_ceiling hlen hm hceiling.1 hceiling.2, clampTo,
    if_neg (by omega), if_neg (by omega)]
  rfl

end

/-! ### The patch -/

/-- The bytes of an output in a snapshot (R190). -/
def Output.entryBytes (o : Output) : List Byte :=
  be16 o.primary ++ be16 (o.fallback.getD 0) ++ be16i (targetValue o.level.target) ++ [BitVec.ofInt 8 o.override.code]

theorem sourceOf_bound {code : Nat} (h : sourceOf code ≠ none) : code ≤ 502 := by
  refine Nat.le_of_not_lt fun hlt => h ?_
  unfold sourceOf
  repeat rw [if_neg (by omega)]

section
variable (hlen : s.outputs.length = 32) {o : Nat} (ho : o < 32)
include hlen ho

theorem nth_patchBody {k : Nat} (hk : k < 7) : nth s.patchBody (7 * o + k) 0 = nth (s.output o).entryBytes k 0 :=
  nth_flatten_map (f := Output.entryBytes) (w := 7) (fun _ => rfl) Output.reset 0 hk (hlen.symm ▸ ho)

theorem bodyWord_patchBody {k n : Nat} (hk : k + 1 < 7) (hn : n ≤ 502) (h0 : nth (s.output o).entryBytes k 0 = nth (be16 n) 0 0)
    (h1 : nth (s.output o).entryBytes (k + 1) 0 = nth (be16 n) 1 0) : bodyWord s.patchBody (7 * o + k) = n := by
  unfold bodyWord
  rw [nth_patchBody hlen ho (by omega), Nat.add_assoc, nth_patchBody hlen ho hk, h0, h1]
  exact wordOf_be16 (by omega)

theorem bodyWord_patchLevel (ht : ∀ v, (s.output o).level.target = some v → -180 ≤ v ∧ v ≤ 20) :
    bodyWord s.patchBody (7 * o + 4) = targetValue (s.output o).level.target := by
  obtain ⟨hlow, hhigh⟩ := targetValue_range ht
  exact bodyWord_of_bytes hlow hhigh (nth_patchBody hlen ho (by decide : 4 < 7)) (nth_patchBody hlen ho (by decide : 5 < 7))

theorem bodyByte_patchOverride : bodyByte s.patchBody (7 * o + 6) = (s.output o).override.code.toNat := by
  unfold bodyByte
  rw [nth_patchBody hlen ho (by decide : 6 < 7)]
  show (BitVec.ofInt 8 (s.output o).override.code).toNat = _
  cases (s.output o).override <;> rfl

/-- An output comes back from the snapshot with its sources, override and level (R195). -/
theorem patch_patchBody (hprimary : sourceOf (s.output o).primary ≠ none)
    (hfallback : ∀ c, (s.output o).fallback = some c → c ≠ 0 ∧ sourceOf c ≠ none)
    (hpair : pairRefused (s.output o).primary ((s.output o).fallback.getD 0) = false)
    (hlevel : ∀ v, (s.output o).level.target = some v → -180 ≤ v ∧ v ≤ 20) :
    patchPrimary s.patchBody o = (s.output o).primary ∧ patchSecond s.patchBody o = (s.output o).fallback.getD 0 ∧
      patchLevel s.patchBody o = (s.output o).level.target ∧ patchOverride s.patchBody o = (s.output o).override := by
  have hsecond : sourceOf ((s.output o).fallback.getD 0) ≠ none := by
    cases hf : (s.output o).fallback with
    | none => nofun
    | some c => exact (hfallback c hf).2
  have hp : bodyWord s.patchBody (7 * o) = (s.output o).primary :=
    bodyWord_patchBody (k := 0) hlen ho (by decide) (sourceOf_bound hprimary) rfl rfl
  have hf : bodyWord s.patchBody (7 * o + 2) = ((s.output o).fallback.getD 0 : Nat) :=
    bodyWord_patchBody hlen ho (by decide) (sourceOf_bound hsecond) rfl rfl
  have hv := bodyByte_patchOverride hlen ho
  have hknown {n : Nat} (h : sourceOf n ≠ none) : sourceKnown (n : Int) = true := by
    unfold sourceKnown
    rw [decide_eq_true (Int.natCast_nonneg n), Int.toNat_natCast, Bool.true_and]
    exact Option.isSome_iff_ne_none.mpr h
  have hok : patchOk s.patchBody o = true := by
    rw [patchOk_iff, hp, hf, hv, Int.toNat_natCast, Int.toNat_natCast]
    exact ⟨hknown hprimary, hknown hsecond, by cases (s.output o).override <;> decide, hpair⟩
  rw [patchPrimary, patchSecond, patchLevel, patchOverride, if_pos hok, if_pos hok, if_pos hok, if_pos hok, hp, hf, hv,
    bodyWord_patchLevel hlen ho hlevel, targetOf_stored_value hlevel, Int.toNat_natCast, Int.toNat_natCast]
  refine ⟨rfl, rfl, rfl, ?_⟩
  cases (s.output o).override <;> rfl

end

/-! ### The stage settings -/

theorem loadStage_stageBody (t : State) {g h : Nat} (hclass : s.panelClass ≤ 3) (hlimit : s.talkLimit ≤ 255)
    (hgrace : s.graceTime = 50 * g) (hlow : 5 ≤ g) (hhigh : g ≤ 200) (hrevert : s.revertTime = 100 * h) (hh : h ≤ 300) :
    t.loadStage s.stageBody = { t with
      panelClass := s.panelClass, talkLimit := s.talkLimit, graceTime := s.graceTime, revertTime := s.revertTime } := by
  have hbyte (n : Nat) (hn : n < 256) : (BitVec.ofNat 8 n).toNat = n := by
    rw [BitVec.toNat_ofNat]
    omega
  have h0 : bodyByte s.stageBody 0 = s.panelClass := hbyte _ (by omega)
  have h1 : bodyByte s.stageBody 1 = s.talkLimit := hbyte _ (by omega)
  have h2 : bodyByte s.stageBody 2 = g := by
    have hdiv : s.graceTime / 50 = g := by omega
    exact (hbyte _ (by omega : s.graceTime / 50 < 256)).trans hdiv
  have h3 : bodyWord s.stageBody 3 = h := by
    have hdiv : s.revertTime / 100 = h := by omega
    have hword : bodyWord s.stageBody 3 = ((s.revertTime / 100 : Nat) : Int) := wordOf_be16 (by omega)
    rw [hword, hdiv]
  unfold State.loadStage
  dsimp only
  rw [h0, h1, h2, h3, if_pos hclass, if_pos ⟨hlow, hhigh⟩, if_pos ⟨by omega, by omega⟩, Int.toNat_natCast, hgrace, hrevert,
    Nat.mul_comm g, Nat.mul_comm h]

end
end Sys2Proof.Machine

/-!
The walk of the chain of records (R189 to R191), and a stored configuration read back (R195).
-/
namespace Sys2Proof.Machine

/-! ### One record of the walk -/

/-- The body length that a record's head gives. -/
def recordLen (m : List Host.Cell) (a : Nat) : Nat := 256 * (memRead m (a + 2)).toNat + (memRead m (a + 3)).toNat

/-- A record at which the walk stops (R191). -/
def RecordBroken (m : List Host.Cell) (answers : Nat → Bool) (a : Nat) : Prop :=
  65535 < a + 6 + recordLen m a ∨ answers (a + 5) = false ∨ answers (a + 6 + recordLen m a) = false ∨ 8192 < recordLen m a ∨
    memRead m a + memRead m (a + 1) + memRead m (a + 2) + memRead m (a + 3) + memRead m (a + 4) + memRead m (a + 5) ≠ 0

/-- What a record that is not broken decides (R191). -/
def decideRecord (m : List Host.Cell) (a : Nat) (ds : PerType Decision) : PerType Decision :=
  match RecordType.ofCode (memRead m a).toNat with
  | none => ds
  | some r =>
    if memRead m (a + 1) ≠ 1 ∨ (ds.get r).decided then ds
    else if lengthOk r (recordLen m a) &&
        decide (sumBytes (memReadBlock m (a + 6) (recordLen m a)) + memRead m (a + 6 + recordLen m a) = 0) then
      ds.set r (.found (memReadBlock m (a + 6) (recordLen m a)))
    else ds.set r .damaged

section
variable {m : List Host.Cell} {answers : Nat → Bool} {fuel a : Nat} {ds : PerType Decision}

theorem recordBroken_iff : (a + 5 > 65535 ∨ answers (a + 5) = false ∨ sumBytes (memReadBlock m a 6) ≠ 0 ∨ 8192 < recordLen m a ∨
    65535 < a + 6 + recordLen m a ∨ answers (a + 6 + recordLen m a) = false) ↔ RecordBroken m answers a := by
  have hsum : sumBytes (memReadBlock m a 6) =
      memRead m a + memRead m (a + 1) + memRead m (a + 2) + memRead m (a + 3) + memRead m (a + 4) + memRead m (a + 5) := by
    simp [memReadBlock, sumBytes, BitVec.add_assoc, Nat.add_assoc]
  unfold RecordBroken
  rw [hsum]
  constructor
  · rintro (h | h | h | h | h | h)
    · exact .inl (by omega)
    · exact .inr (.inl h)
    · exact .inr (.inr (.inr (.inr h)))
    · exact .inr (.inr (.inr (.inl h)))
    · exact .inl h
    · exact .inr (.inr (.inl h))
  · rintro (h | h | h | h | h)
    · exact .inr (.inr (.inr (.inr (.inl h))))
    · exact .inr (.inl h)
    · exact .inr (.inr (.inr (.inr (.inr h))))
    · exact .inr (.inr (.inr (.inl h)))
    · exact .inr (.inr (.inl h))

theorem walkChain_head : wordOf (nth (memReadBlock m a 6) 2 0) (nth (memReadBlock m a 6) 3 0) = wordOf (memRead m (a + 2)) (memRead m (a + 3)) :=
  rfl

theorem walkChain_of_broken (h : RecordBroken m answers a) :
    walkChain m answers (fuel + 1) a ds = { decisions := ds, broken := true } := by
  have hlen : (wordOf (nth (memReadBlock m a 6) 2 0) (nth (memReadBlock m a 6) 3 0)).toNat = recordLen m a := toNat_wordOf ..
  rw [walkChain]
  dsimp only
  rw [hlen, if_pos (recordBroken_iff.mpr h)]

theorem walkChain_of_sound (h : ¬RecordBroken m answers a) :
    walkChain m answers (fuel + 1) a ds =
      if (memRead m (a + 4)).getLsbD 0 then { decisions := decideRecord m a ds, broken := false }
      else walkChain m answers fuel (a + 7 + recordLen m a) (decideRecord m a ds) := by
  have hlen : (wordOf (nth (memReadBlock m a 6) 2 0) (nth (memReadBlock m a 6) 3 0)).toNat = recordLen m a := toNat_wordOf ..
  rw [walkChain]
  dsimp only
  rw [hlen, if_neg (recordBroken_iff.not.mpr h)] <;> rfl

theorem decideRecord_of_skipped (h : RecordType.ofCode (memRead m a).toNat = none ∨ memRead m (a + 1) ≠ 1 ∨
    ∃ r, RecordType.ofCode (memRead m a).toNat = some r ∧ ds.get r ≠ .undecided) : decideRecord m a ds = ds := by
  have hdecided {x : Decision} (hx : x ≠ .undecided) : x.decided = true := by
    cases x with
    | undecided => exact absurd rfl hx
    | _ => rfl
  unfold decideRecord
  split
  · rfl
  next r hr =>
    refine if_pos ?_
    rcases h with h | h | ⟨r', hr', h⟩
    · rw [hr] at h
      cases h
    · exact .inl h
    · rw [hr] at hr'
      exact .inr (hdecided (Option.some.inj hr' ▸ h))

theorem decideRecord_of_new {r : RecordType} (hr : RecordType.ofCode (memRead m a).toNat = some r) (hversion : memRead m (a + 1) = 1)
    (hnew : ds.get r = .undecided) :
    decideRecord m a ds =
      if lengthOk r (recordLen m a) = true ∧
          sumBytes (memReadBlock m (a + 6) (recordLen m a)) + memRead m (a + 6 + recordLen m a) = 0 then
        ds.set r (.found (memReadBlock m (a + 6) (recordLen m a)))
      else ds.set r .damaged := by
  have hopen : ¬(memRead m (a + 1) ≠ 1 ∨ (ds.get r).decided = true) := by
    rw [hnew]
    exact not_or.mpr ⟨not_not_intro hversion, Bool.false_ne_true⟩
  unfold decideRecord
  rw [hr]
  dsimp only
  rw [if_neg hopen]
  simp only [Bool.and_eq_true, decide_eq_true_eq]

/-- Every record takes at least 7 bytes, so fuel that reaches past the memory is enough. -/
theorem walkChain_more (m : List Host.Cell) (answers : Nat → Bool) (more : Nat) : ∀ (fuel a : Nat) (ds : PerType Decision),
    65531 ≤ a + 7 * fuel → walkChain m answers (fuel + more) a ds = walkChain m answers fuel a ds
  | 0, a, ds, h => by
    cases more with
    | zero => rfl
    | succ n => rw [Nat.zero_add, walkChain_of_broken (.inl (by omega)), walkChain]
  | fuel + 1, a, ds, h => by
    rw [Nat.succ_add]
    by_cases hbroken : RecordBroken m answers a
    · rw [walkChain_of_broken hbroken, walkChain_of_broken hbroken]
    · rw [walkChain_of_sound hbroken, walkChain_of_sound hbroken, walkChain_more m answers more fuel _ _ (by omega)]

/-! ### Records as they were laid -/

theorem memReadBlock_append (m : List Host.Cell) : ∀ (x y a : Nat), memReadBlock m a (x + y) = memReadBlock m a x ++ memReadBlock m (a + x) y
  | 0, y, a => by rw [Nat.zero_add]; rfl
  | x + 1, y, a => by
    rw [Nat.succ_add]
    show memRead m a :: memReadBlock m (a + 1) (x + y) = memRead m a :: (memReadBlock m (a + 1) x ++ memReadBlock m (a + (x + 1)) y)
    rw [memReadBlock_append m x y (a + 1), Nat.add_assoc, Nat.add_comm 1 x]

theorem length_memReadBlock (m : List Host.Cell) : ∀ (n a : Nat), (memReadBlock m a n).length = n
  | 0, _ => rfl
  | n + 1, a => congrArg Nat.succ (length_memReadBlock m n (a + 1))

theorem sumBytes_append (xs ys : List Byte) : sumBytes (xs ++ ys) = sumBytes xs + sumBytes ys := by
  induction xs with
  | nil => exact (BitVec.zero_add _).symm
  | cons x xs ih => rw [List.cons_append, sumBytes, ih, sumBytes, BitVec.add_assoc]

theorem sumBytes_checksum (xs : List Byte) : sumBytes xs + checksum xs = 0 := BitVec.add_right_neg _

/-- The head of a record without its checksum (R189). -/
def recordHead (r : RecordType) (last : Bool) (body : List Byte) : List Byte :=
  [BitVec.ofNat 8 r.code, 1#8] ++ be16 body.length ++ [flagByte last]

variable {r : RecordType} {last : Bool} {body : List Byte}

/-- The parts of a record that stands in the memory. -/
theorem memReadBlock_record (h : memReadBlock m a (body.length + 7) = recordBytes r last body) :
    memReadBlock m a 6 = recordHead r last body ++ [checksum (recordHead r last body)] ∧ memReadBlock m (a + 6) body.length = body ∧
      memRead m (a + 6 + body.length) = checksum body := by
  have hsplit : body.length + 7 = 6 + (body.length + 1) := by omega
  rw [hsplit, memReadBlock_append, memReadBlock_append] at h
  have hrecord : recordBytes r last body = (recordHead r last body ++ [checksum (recordHead r last body)]) ++ (body ++ [checksum body]) := by
    simp [recordBytes, recordHead]
  rw [hrecord] at h
  obtain ⟨hhead, hrest⟩ := List.append_inj h (by rw [length_memReadBlock]; rfl)
  obtain ⟨hbody, hlast⟩ := List.append_inj hrest (length_memReadBlock ..)
  exact ⟨hhead, hbody, (List.cons.inj hlast).1⟩

theorem lengthOk_le (h : lengthOk r body.length = true) : body.length ≤ 3264 := by
  cases r <;> simp only [lengthOk, decide_eq_true_eq] at h <;> omega

theorem RecordType.ofCode_code (r : RecordType) : RecordType.ofCode (BitVec.ofNat 8 r.code).toNat = some r := by cases r <;> rfl

/-- A record that was laid is found (R191). -/
theorem walkChain_of_record (hread : memReadBlock m a (body.length + 7) = recordBytes r last body) (hlen : lengthOk r body.length = true)
    (hfit : a + (body.length + 7) ≤ 65536) (hnew : ds.get r = .undecided) :
    walkChain m (fun _ => true) (fuel + 1) a ds =
      if last then { decisions := ds.set r (.found body), broken := false }
      else walkChain m (fun _ => true) fuel (a + (body.length + 7)) (ds.set r (.found body)) := by
  obtain ⟨hhead, hbody, hcheck⟩ := memReadBlock_record hread
  have hshort := lengthOk_le hlen
  have hbyte {k : Nat} (x : Byte) (h : nth (memReadBlock m a 6) k 0 = x) :
      nth (recordHead r last body ++ [checksum (recordHead r last body)]) k 0 = x := hhead ▸ h
  have htype : memRead m a = BitVec.ofNat 8 r.code := (hbyte (k := 0) _ rfl).symm
  have hversion : memRead m (a + 1) = 1 := (hbyte (k := 1) _ rfl).symm
  have hhigh : memRead m (a + 2) = BitVec.ofNat 8 (body.length / 256) := (hbyte (k := 2) _ rfl).symm
  have hlow : memRead m (a + 3) = BitVec.ofNat 8 body.length := (hbyte (k := 3) _ rfl).symm
  have hflag : memRead m (a + 4) = flagByte last := (hbyte (k := 4) _ rfl).symm
  have hrecordLen : recordLen m a = body.length := by
    unfold recordLen
    rw [hhigh, hlow, ← toNat_wordOf]
    exact toNat_wordOf_be16 (by omega)
  have hsum : sumBytes (memReadBlock m a 6) = 0 := by
    rw [hhead, sumBytes_append]
    have hone : sumBytes [checksum (recordHead r last body)] = checksum (recordHead r last body) := BitVec.add_zero _
    rw [hone, sumBytes_checksum]
  have hsound : ¬RecordBroken m (fun _ => true) a := by
    rw [← recordBroken_iff, hrecordLen]
    rintro (h | h | h | h | h | h)
    · omega
    · cases h
    · exact h hsum
    · omega
    · omega
    · cases h
  have hdecide : decideRecord m a ds = ds.set r (.found body) := by
    rw [decideRecord_of_new (by rw [htype]; exact RecordType.ofCode_code r) hversion hnew, hrecordLen, hbody, hcheck,
      if_pos ⟨hlen, sumBytes_checksum body⟩]
  rw [walkChain_of_sound hsound, hdecide, hflag, hrecordLen]
  have hplace : a + 7 + body.length = a + (body.length + 7) := by omega
  rw [hplace]
  cases last <;> rfl

theorem PerType.get_set_ne {α : Type} (t : PerType α) {r x : RecordType} (h : x ≠ r) (v : α) : (t.set r v).get x = t.get x := by
  cases r <;> cases x <;> first | rfl | exact absurd rfl h

/-- Every record of a chain that was laid is found (R191, R196). -/
theorem walkChain_of_records (image : PerType (List Byte)) (m : List Host.Cell) : ∀ (order : List RecordType) (fuel a : Nat)
    (ds : PerType Decision), order ≠ [] → order.Nodup → order.length ≤ fuel →
    (∀ r, r ∈ order → ds.get r = .undecided ∧ lengthOk r (image.get r).length = true) →
    a + (order.map fun r => (image.get r).length + 7).sum ≤ 65536 →
    (∀ rec, rec ∈ layRecords image a order → memReadBlock m rec.offset rec.bytes.length = rec.bytes) →
    walkChain m (fun _ => true) fuel a ds =
      { decisions := order.foldl (fun ds r => ds.set r (.found (image.get r))) ds, broken := false }
  | [], _, _, _, h, _, _, _, _, _ => absurd rfl h
  | _ :: _, 0, _, _, _, _, h, _, _, _ => absurd h (Nat.not_succ_le_zero _)
  | r :: rest, fuel + 1, a, ds, _, hnodup, hfuel, hds, hfit, hread => by
    obtain ⟨hfresh, hrest⟩ := List.nodup_cons.mp hnodup
    obtain ⟨hnew, hlen⟩ := hds r List.mem_cons_self
    have hbytes := hread _ List.mem_cons_self
    dsimp only at hbytes
    rw [recordBytes_length] at hbytes
    rw [List.map_cons, List.sum_cons] at hfit
    rw [walkChain_of_record hbytes hlen (by omega) hnew]
    cases rest with
    | nil => rfl
    | cons r' rest =>
      rw [List.isEmpty_cons, if_neg Bool.false_ne_true, List.foldl_cons]
      refine walkChain_of_records image m (r' :: rest) fuel _ _ (List.cons_ne_nil _ _) hrest (Nat.le_of_succ_le_succ hfuel)
        (fun x hx => ?_) (by omega) fun rec hrec => ?_
      · obtain ⟨hx1, hx2⟩ := hds x (List.mem_cons_of_mem r hx)
        have hne : x ≠ r := fun he => hfresh (he ▸ hx)
        exact ⟨(PerType.get_set_ne ds hne _).trans hx1, hx2⟩
      · refine hread rec (List.mem_cons_of_mem _ ?_)
        rw [recordBytes_length]
        exact hrec

end

/-- What a store lays is what a load finds (R191, R196). -/
theorem loadWalk_of_laid {image : PerType (List Byte)} {m : List Host.Cell} (hstart : image.startChannels.length = 192)
    (hsafe : image.safeMix.length = 3264) (hpatch : image.outputPatch.length = 224) (hstage : image.stageSettings.length = 5)
    (hunit : image.unit.length ≤ 32)
    (hread : ∀ rec, rec ∈ layRecords image 0 (storeOrder image) → memReadBlock m rec.offset rec.bytes.length = rec.bytes) :
    loadWalk m none =
      { decisions := { unit := if image.unit = [] then .undecided else .found image.unit,
                       startChannels := .found image.startChannels, safeMix := .found image.safeMix,
                       outputPatch := .found image.outputPatch, stageSettings := .found image.stageSettings },
        broken := false } := by
  have hlengths (r : RecordType) (hr : r ≠ .unit) : lengthOk r (image.get r).length = true := by
    cases r with
    | unit => exact absurd rfl hr
    | startChannels => exact decide_eq_true hstart
    | safeMix => exact decide_eq_true hsafe
    | outputPatch => exact decide_eq_true hpatch
    | stageSettings => exact decide_eq_true hstage
  by_cases hempty : image.unit = []
  · have horder : storeOrder image = [.startChannels, .safeMix, .outputPatch, .stageSettings] := by
      rw [storeOrder, if_pos hempty, List.append_nil]
    rw [horder] at hread
    refine (walkChain_of_records image m _ 9363 0 _ (List.cons_ne_nil _ _) (by decide) (by decide) (fun r hr => ⟨?_, hlengths r ?_⟩) ?_
      hread).trans ?_
    · cases r <;> rfl
    · rintro rfl
      exact absurd hr (by decide)
    · simp [PerType.get, hstart, hsafe, hpatch, hstage]
    · rw [if_pos hempty]
      rfl
  · have horder : storeOrder image = [.startChannels, .safeMix, .outputPatch, .stageSettings, .unit] := by
      rw [storeOrder, if_neg hempty]
      rfl
    have hpos : 1 ≤ image.unit.length := List.length_pos_iff.mpr hempty
    rw [horder] at hread
    refine (walkChain_of_records image m _ 9363 0 _ (List.cons_ne_nil _ _) (by decide) (by decide) (fun r _ => ⟨?_, ?_⟩) ?_ hread).trans ?_
    · cases r <;> rfl
    · by_cases hr : r = .unit
      · rw [hr]
        exact decide_eq_true ⟨hpos, hunit⟩
      · exact hlengths r hr
    · simp [PerType.get, hstart, hsafe, hpatch, hstage]
      omega
    · rw [if_neg hempty]
      rfl

/-- Settles O17: the walk record by record, and each body byte by byte. -/
theorem storedConfigurationLoadsBack : Obligations.StoredConfigurationLoadsBack := by
  refine ⟨fun image m hstart hsafe hpatch hstage hunit hread => loadWalk_of_laid hstart hsafe hpatch hstage hunit hread,
    fun s hshaped => ⟨fun hgain i hi => storedSetting_startBody hshaped.channels hi (hgain i hi), fun hmix m hm => ?_,
      fun o t ho ht hprimary hfallback hpair hlevel => ?_,
      fun t g h hclass hlimit hgrace hlow hhigh hrevert hh => loadStage_stageBody t hclass hlimit hgrace hlow hhigh hrevert hh, rfl⟩,
    fun m answers fuel a found => ⟨walkChain_of_broken, fun hsound hskip => ?_, fun r hsound hr hversion hnew => ⟨fun hgood => ?_, fun hbad => ?_⟩⟩,
    fun m answers more found => walkChain_more m answers more 9363 0 found (by decide)⟩
  · obtain ⟨hceiling, hmaster, hxp⟩ := hmix m hm
    refine storedMix_safeBody hshaped.mixes hm (hshaped.crosspoints _ ?_) hceiling hmaster hxp
    unfold State.mix nth
    rw [List.getD_eq_getElem _ _ (hshaped.mixes.symm ▸ hm)]
    exact List.getElem_mem _
  · obtain ⟨hp, hs, hl, hv⟩ := patch_patchBody hshaped.outputs ho hprimary hfallback hpair hlevel
    have hout : (t.loadPatchEntry s.patchBody o).output o = t.patchedBy s.patchBody o (t.output o) := by
      rw [State.loadPatchEntry_eq]
      exact State.output_modOutput_same _ _ _ (ht.outputs.symm ▸ ho)
    obtain ⟨hprimary', hfallback', hoverride', hlevel', -⟩ := State.patchedBy_spec (s := t) s.patchBody o (t.output o)
    have hsnapshot : s.snapshot .outputPatch = s.patchBody := rfl
    dsimp only
    rw [hsnapshot, hout]
    refine ⟨hprimary'.trans hp, hfallback'.trans ?_, hoverride'.trans hv, hlevel'.trans (congrArg Level.direct hl)⟩
    rw [hs]
    cases hf : (s.output o).fallback with
    | none => rfl
    | some c => exact if_neg (hfallback c hf).1
  · have hdecide : decideRecord m a found = found := decideRecord_of_skipped hskip
    exact (walkChain_of_sound hsound).trans (by rw [hdecide]; rfl)
  · have hdecide : decideRecord m a found = found.set r (.found (memReadBlock m (a + 6) (recordLen m a))) := by
      rw [decideRecord_of_new (m := m) (a := a) hr hversion hnew, Nat.add_assoc a 6]
      exact if_pos hgood
    exact (walkChain_of_sound hsound).trans (by rw [hdecide]; rfl)
  · have hdecide : decideRecord m a found = found.set r .damaged := by
      rw [decideRecord_of_new (m := m) (a := a) hr hversion hnew, Nat.add_assoc a 6]
      exact if_neg hbad
    exact (walkChain_of_sound hsound).trans (by rw [hdecide]; rfl)

end Sys2Proof.Machine

/-!
The frame, field by field (R15, R74, R92, R136, R140).
-/
namespace Sys2Proof.Machine

section
variable (lanes : List Sample) (talk : Sample) (u : State)

/-- The samples of a frame but for its mixes (R74, R110). -/
def State.frameInputs : FrameSamples :=
  { raw := (u.formInputs lanes).2, tb1 := u.busSample talk .tb1, tb2 := u.busSample talk .tb2, mixes := [] }

/-- A mix of a frame and its sample (R92, R93). -/
def State.mixFrame (m : Mix) : Mix × Sample :=
  (m.advance (u.hasTalker .tb1) (u.hasTalker .tb2)).form ((u.frameInputs lanes talk).column 0) (u.busSample talk .tb1) (u.busSample talk .tb2)

/-- The samples of a frame. -/
def State.frameSamples : FrameSamples :=
  { u.frameInputs lanes talk with mixes := u.mixes.map fun m => (u.mixFrame lanes talk m).2 }

/-- An output of a frame and its sample (R136). -/
def State.outputFrame (o : Output) : Output × Sample :=
  o.form u.started (u.sourceSample (u.frameSamples lanes talk) o.primary) (u.sourceSample (u.frameSamples lanes talk) (o.fallback.getD 0))

/-- The lanes of a frame and what they send (R15, R21). -/
def State.laneFrames : PerDesk (Lane × List Byte) := u.lanes.map fun d l => l.frame (decide ((u.slot d).state = .active))

/-- The part with the inputs and the mixes of a frame formed. -/
def State.mixed : State :=
  { u with
    channels := u.channels.map Channel.moveGate, comp := (u.formInputs lanes).1.comp,
    mixes := u.mixes.map fun m => (u.mixFrame lanes talk m).1 }

theorem State.formMixes_eq (v : State) (engine : List Sample) (tb1 tb2 : Sample) : v.formMixes engine tb1 tb2 =
    ({ v with mixes := v.mixes.map fun m => ((m.advance (v.hasTalker .tb1) (v.hasTalker .tb2)).form engine tb1 tb2).1 },
      v.mixes.map fun m => ((m.advance (v.hasTalker .tb1) (v.hasTalker .tb2)).form engine tb1 tb2).2) := by
  unfold State.formMixes
  dsimp only
  rw [List.map_map, List.map_map]
  rfl

theorem State.formFrame_of_mixed : u.formFrame lanes talk =
    ((((u.mixed lanes talk).formOutputs (u.frameSamples lanes talk)).gatherPeaks (u.frameSamples lanes talk)).sendFrames
      (u.frameSamples lanes talk)).tick := by
  unfold State.formFrame
  dsimp only
  rw [State.formMixes_eq]
  rfl

/-- The meter unit's records after a frame (R139, R140, R142). -/
def State.frameMeter : Meter :=
  { u.meter with
    outNone := (u.outputs.map fun o => (u.outputFrame lanes talk o).1).map fun o => decide (o.selection = .noneAvailable),
    viewPeaks := List.zipWith (fun (p : PerColumn Nat) (v : PerColumn Sample) => p.map fun c n => raisePeak n (v.get c))
      u.meter.viewPeaks (u.frameSamples lanes talk).views,
    viewClips := List.zipWith (fun (f : PerColumn Bool) (v : PerColumn Sample) => f.map fun c b => b || clips (v.get c))
      u.meter.viewClips (u.frameSamples lanes talk).raw,
    mixPeaks := List.zipWith raisePeak u.meter.mixPeaks (u.frameSamples lanes talk).mixes,
    outPeaks := List.zipWith raisePeak u.meter.outPeaks (u.outputs.map fun o => (u.outputFrame lanes talk o).2),
    returnPeaks := u.meter.returnPeaks.map fun d ps => mapFrom (fun n p => raisePeak p (nth (u.slot d).samples.returns n 0)) 0 ps,
    frames := u.meter.frames + 1 }

theorem State.formOutputs_eq (x : FrameSamples) : (u.formOutputs x) =
    { u with
      outputs := u.outputs.map fun o => (o.form u.started (u.sourceSample x o.primary) (u.sourceSample x (o.fallback.getD 0))).1,
      stageOut := u.outputs.map fun o => (o.form u.started (u.sourceSample x o.primary) (u.sourceSample x (o.fallback.getD 0))).2,
      meter := { u.meter with
        outNone := (u.outputs.map fun o => (o.form u.started (u.sourceSample x o.primary) (u.sourceSample x (o.fallback.getD 0))).1).map
          fun o => decide (o.selection = .noneAvailable) } } := by
  unfold State.formOutputs
  dsimp only
  rw [List.map_map, List.map_map]
  rfl

/-- A frame, field by field. -/
theorem State.formFrame_eq : u.formFrame lanes talk =
    { u with
      ports := u.ports.map fun _ => Port.tick, frameCounter := u.frameCounter + 1,
      sent := u.ports.map fun p _ => u.deskFrame (u.frameSamples lanes talk) (u.laneFrames.map fun _ r => r.2) p,
      slots := u.slots.map fun _ => Slot.tick, lanes := u.laneFrames.map fun _ r => r.1,
      channels := (u.channels.map Channel.moveGate).map Channel.tick, line := u.line.tick, comp := (u.formInputs lanes).1.comp,
      mixes := u.mixes.map fun m => (u.mixFrame lanes talk m).1,
      buses := { tb1 := u.buses.tb1.tick, tb2 := u.buses.tb2.tick },
      outputs := (u.outputs.map fun o => (u.outputFrame lanes talk o).1).map Output.tick,
      stageOut := u.outputs.map fun o => (u.outputFrame lanes talk o).2,
      meter := u.frameMeter lanes talk,
      boundary := if meterPeriod ≤ u.meter.frames + 1 then { Boundary.closed with opened := true } else Boundary.closed } := by
  rw [State.formFrame_of_mixed, State.formOutputs_eq]
  rfl

end
end Sys2Proof.Machine

/-!
What a frame makes of each record (R1, R2, R39, R46, R49, R57 to R59, R75, R91, R95, R115, R127, R131, R134).
-/
namespace Sys2Proof.Machine

/-! ### Records that count -/

theorem satAdd_by_one (top n : Nat) : satAdd top n 1 = if n < top then n + 1 else top := by
  unfold satAdd
  split_ifs <;> omega

theorem Port.tick_eq (r : Port) : r.tick =
    { r with
      lightFrames := if r.lightFrames < 48 then r.lightFrames + 1 else 48,
      lossAge := if r.lossAge < 4294967295 then r.lossAge + 1 else 4294967295, skip := false, frameSeen := false } := by
  unfold Port.tick
  rw [satAdd_by_one, satAdd_by_one]
  rfl

theorem Timer.tick_eq (g : Timer) : g.tick = { g with count := if g.count < g.limit then g.count + 1 else g.count } := by
  unfold Timer.tick
  split <;> rfl

theorem CardLine.tick_eq (l : CardLine) : l.tick =
    if l.slotFrame + 1 < 48 then { l with slotFrame := l.slotFrame + 1 }
    else { l with
      slotNumber := l.slotNumber + 1, slotFrame := 0, slotTaken := false,
      polled := l.polled || decide (l.slotNumber % 10 = 0 ∧ 8 ≤ l.pollsBegun) } := by
  unfold CardLine.tick CardLine.pollSlot
  rw [Bool.decide_and]

/-! ### Ramps -/

theorem Level.settled_undo (l : Level) : l.settled.undo = none := by
  unfold Level.settled
  cases h : l.undo with
  | none => exact h
  | some v => rfl

theorem Level.ramp_eq (l : Level) : l.ramp =
    if l.on = false ∨ l.current = l.target.getD (-180) then { l with count := 0 }
    else if l.count + 1 < 8 then { l with count := l.count + 1 }
    else if l.target = none ∧ (if l.current < l.target.getD (-180) then l.current + 1 else l.current - 1) = -180 then
      { on := false, target := none, current := -180, count := 0 }
    else { l with current := if l.current < l.target.getD (-180) then l.current + 1 else l.current - 1, count := 0 } := by
  unfold Level.ramp Level.ramping Level.move Level.rampEnd
  by_cases hstill : l.on = false ∨ l.current = l.target.getD (-180)
  · have hnot : ¬(l.on && decide (l.current ≠ l.target.getD (-180))) = true := by
      rcases hstill with h | h <;> simp [h]
    rw [if_pos hstill, if_neg hnot]
  · obtain ⟨hon, hne⟩ := not_or.mp hstill
    have hramping : (l.on && decide (l.current ≠ l.target.getD (-180))) = true := by
      simp [Bool.eq_true_of_not_eq_false hon, hne]
    have htoward : toward (l.target.getD (-180)) l.current =
        if l.current < l.target.getD (-180) then l.current + 1 else l.current - 1 := by
      unfold toward
      split_ifs <;> omega
    rw [if_neg hstill, if_pos hramping, htoward]

theorem Cell.settled_undo (c : Cell) : c.settled.undo = none := by
  unfold Cell.settled
  cases h : c.undo with
  | none => exact h
  | some v => rfl

theorem Cell.settled_of_none {c : Cell} (h : c.undo = none) : c.settled = c := by
  unfold Cell.settled
  rw [h]

theorem Cell.ramp_eq (c : Cell) : c.ramp =
    if c.current = c.target then { c with count := 0 }
    else if c.count + 1 < 8 then { c with count := c.count + 1 }
    else { c with current := if c.current < c.target then c.current + 1 else c.current - 1, count := 0 } := by
  unfold Cell.ramp Cell.ramping
  by_cases h : c.current = c.target
  · rw [if_pos h, if_neg (by simp [h])]
  · have htoward : toward c.target c.current = if c.current < c.target then c.current + 1 else c.current - 1 := by
      unfold toward
      split_ifs <;> omega
    rw [if_neg h, if_pos (by simp [h]), htoward]

/-! ### Outputs -/

section
variable (started : Bool) (program : Sample) (o : Output)

/-- The gate of an output in a frame (R134 step 1). -/
def Output.frameGate : Nat := stepNat (o.gateTarget started) o.gate

/-- The content of an output changes in a frame (R134 step 3). -/
def Output.changes : Bool := decide (o.frameGate started = 0 ∧ o.contentMatches = false)

/-- The content of an output in a frame is the tone. -/
def Output.frameTone : Bool := if o.changes started then decide (o.override = .tone) else o.toneContent

/-- The phase of the tone that a frame gives. -/
def Output.framePhase : Nat := if o.changes started then 0 else o.phase

theorem Output.overrideStage_eq : o.overrideStage started program =
    ({ o with
        gate := o.frameGate started, toneContent := o.frameTone started,
        phase := if o.frameTone started then (o.framePhase started + 1) % 48 else o.phase },
      share (if o.frameTone started then toneSample (o.framePhase started) else program) (o.frameGate started) 64) := by
  have hcontent : ({ o with gate := o.frameGate started } : Output).changeContent =
      if o.changes started then
        { o with
          gate := o.frameGate started, toneContent := decide (o.override = .tone),
          phase := if o.override = .tone then 0 else o.phase }
      else { o with gate := o.frameGate started } := by
    unfold Output.changeContent
    by_cases h : o.frameGate started = 0 ∧ o.contentMatches = false
    · have hchanges : o.changes started = true := decide_eq_true h
      rw [hchanges, if_pos rfl]
      refine (if_pos h).trans ?_
      dsimp only
      cases hov : o.override with
      | normal => rfl
      | tone => rfl
      | mute =>
        have hmatch := h.2
        unfold Output.contentMatches at hmatch
        rw [hov] at hmatch
        cases hmatch
    · have hchanges : o.changes started = false := decide_eq_false h
      rw [hchanges, if_neg Bool.false_ne_true]
      exact if_neg h
  have hstage : o.overrideStage started program =
      (if ({ o with gate := o.frameGate started } : Output).changeContent.toneContent then
        { ({ o with gate := o.frameGate started } : Output).changeContent with
          phase := (({ o with gate := o.frameGate started } : Output).changeContent.phase + 1) % 48 }
        else ({ o with gate := o.frameGate started } : Output).changeContent,
      share (if ({ o with gate := o.frameGate started } : Output).changeContent.toneContent then
        toneSample ({ o with gate := o.frameGate started } : Output).changeContent.phase else program)
        (if ({ o with gate := o.frameGate started } : Output).changeContent.toneContent then
          { ({ o with gate := o.frameGate started } : Output).changeContent with
            phase := (({ o with gate := o.frameGate started } : Output).changeContent.phase + 1) % 48 }
          else ({ o with gate := o.frameGate started } : Output).changeContent).gate 64) := rfl
  rw [hstage, hcontent]
  unfold Output.frameTone Output.framePhase
  cases o.changes started with
  | true => cases hov : o.override <;> rfl
  | false => cases htone : o.toneContent <;> rfl

theorem Output.contentMatches_eq : o.contentMatches = decide (o.override = .mute ∨ o.toneContent = decide (o.override = .tone)) := by
  unfold Output.contentMatches
  cases o.override <;> cases o.toneContent <;> rfl

theorem Output.gateTarget_eq : o.gateTarget started = if started = true ∧ o.override ≠ .mute ∧ o.contentMatches = true then 64 else 0 := by
  unfold Output.gateTarget
  cases started <;> cases o.contentMatches <;> cases o.override <;> rfl

end

/-- The output as its override stage takes it: shares and level moved (R136). -/
def Output.moved (o : Output) : Output := { o.moveShares with level := o.level.settled.ramp }

theorem Output.form_eq (started : Bool) (x y : Sample) (o : Output) : o.form started x y =
    let program := o.moved.level.apply (o.moved.selected x y)
    ({ (o.moved.overrideStage started program).1 with clip := o.clip || clips (o.moved.overrideStage started program).2 },
      saturate (o.moved.overrideStage started program).2) := by
  have hclip (program : Sample) : (o.moved.overrideStage started program).1.clip = o.clip := by
    rw [Output.overrideStage_eq]
    rfl
  dsimp only
  rw [← hclip]
  rfl

/-- The record of an output after a frame. -/
theorem Output.form_record (started : Bool) (x y : Sample) (o : Output) : ∃ clip, (o.form started x y).1 =
    { o with
      primaryShare := stepNat o.selection.targets.1 o.primaryShare, fallbackShare := stepNat o.selection.targets.2 o.fallbackShare,
      level := o.level.settled.ramp, gate := o.frameGate started, toneContent := o.frameTone started,
      phase := if o.frameTone started then (o.framePhase started + 1) % 48 else o.phase, clip := clip } := by
  rw [Output.form_eq]
  dsimp only
  rw [Output.overrideStage_eq]
  exact ⟨_, rfl⟩

/-! ### Mixes -/

theorem Mix.settleDuck_eq (m : Mix) : m.settleDuck =
    { m with
      duck := m.settleDuck.duck, release := m.settleDuck.release, duckUndo := none } := by
  unfold Mix.settleDuck
  cases h : m.duckUndo with
  | none => exact congrArg (fun x => { m with duckUndo := x }) h
  | some v => rfl

theorem Mix.moveDuck_eq (m : Mix) : m.moveDuck =
    { m with
      duck := if m.duck < m.duckTarget then m.duck + 1
        else if m.duckTarget < m.duck ∧ 32 ≤ m.release + 1 then m.duck - 1 else m.duck,
      release := if m.duckTarget < m.duck ∧ m.release + 1 < 32 then m.release + 1 else 0 } := by
  unfold Mix.moveDuck
  by_cases hup : m.duck < m.duckTarget
  · rw [if_pos hup, if_pos hup, if_neg (by omega)]
  · by_cases hdown : m.duckTarget < m.duck
    · by_cases hcount : m.release + 1 < 32
      · rw [if_neg hup, if_pos hdown, if_pos hcount, if_neg hup, if_neg (by omega), if_pos ⟨hdown, hcount⟩]
      · rw [if_neg hup, if_pos hdown, if_neg hcount, if_neg hup, if_pos ⟨hdown, by omega⟩, if_neg (by omega)]
    · rw [if_neg hup, if_neg hdown, if_neg hup, if_neg (by omega), if_neg (by omega)]

end Sys2Proof.Machine

/-!
What a frame makes of the records of a part of the right shape, entry by entry (R74, R75, R91, R92, R94, R95).
-/
namespace Sys2Proof.Machine

/-- The duck target of a mix in a frame (R92, R94). -/
def Mix.frameGoal (a b : Bool) (m : Mix) : Int := m.settleDuck.rampAll.wantedDuck a b

/-- The record of a mix after a frame (R92). -/
theorem Mix.form_record (a b : Bool) (engine : List Sample) (x y : Sample) (m : Mix) : ∃ clip, ((m.advance a b).form engine x y).1 =
    { m with
      xps := m.xps.map fun l => l.settled.ramp, master := m.master.settled.ramp, duckTarget := m.frameGoal a b,
      duck := if m.settleDuck.duck < m.frameGoal a b then m.settleDuck.duck + 1
        else if m.frameGoal a b < m.settleDuck.duck ∧ 32 ≤ m.settleDuck.release + 1 then m.settleDuck.duck - 1 else m.settleDuck.duck,
      release := if m.frameGoal a b < m.settleDuck.duck ∧ m.settleDuck.release + 1 < 32 then m.settleDuck.release + 1 else 0,
      duckUndo := none, clip := clip } := by
  refine ⟨((m.advance a b).form engine x y).1.clip, ?_⟩
  have hform : ((m.advance a b).form engine x y).1 = { m.advance a b with clip := ((m.advance a b).form engine x y).1.clip } := rfl
  have hadvance : m.advance a b =
      ({ m with
        xps := m.xps.map fun l => l.settled.ramp, master := m.master.settled.ramp, duckTarget := m.frameGoal a b,
        duck := m.settleDuck.duck, release := m.settleDuck.release, duckUndo := none } : Mix).moveDuck := by
    have hsettled : (m.settleDuck.aimDuck a b).rampAll =
        { m.settleDuck with
          xps := m.settleDuck.xps.map fun l => l.settled.ramp, master := m.settleDuck.master.settled.ramp,
          duckTarget := m.frameGoal a b } := rfl
    unfold Mix.advance
    rw [hsettled, Mix.settleDuck_eq]
  rw [hform, hadvance, Mix.moveDuck_eq]

section
variable {lanes : List Sample} {talk : Sample} {u : State}

/-! ### Channels and cells -/

section
variable (hu : u.Shaped)
include hu

theorem State.channel_formFrame {i : Nat} (hi : i < 64) : (u.formFrame lanes talk).channel i = (u.channel i).moveGate.tick := by
  have hlen : i < u.channels.length := hu.channels.symm ▸ hi
  rw [State.formFrame_eq]
  show nth ((u.channels.map Channel.moveGate).map Channel.tick) i Channel.reset = _
  rw [nth_map_of_lt (x := Channel.reset) _ _ (by rw [List.length_map]; exact hlen), nth_map_of_lt (x := Channel.reset) _ _ hlen]
  rfl

/-- What comes to an input with the first sample of a returned card (R63, R72). -/
theorem State.inputComp_formFrame {i : Nat} (hi : i < 64) : (u.formFrame lanes talk).inputComp i =
    (u.inputComp i).advance (if (u.channel i).handOver then some (u.channel i).applied.effective else none) := by
  have hlen : i < u.channels.length := hu.channels.symm ▸ hi
  have hcomp : i < u.comp.length := hu.comp.symm ▸ hi
  rw [State.formFrame_eq]
  refine (nth_mapFrom _ 0 i u.comp InputComp.reset InputComp.reset hcomp).trans ?_
  rw [Nat.zero_add, nth_map_of_lt (x := Channel.reset) _ _ hlen]
  rfl

end

/-- A cell with the gain that comes with a sample taken, before the ramp of the frame (R76). -/
def InputComp.taken (handed : Option Int) (ic : InputComp) (c : Fin 4) : Cell :=
  (handed.elim (ic.cells.get c) fun e => if ic.stageGain = e then ic.cells.get c else (ic.cells.get c).newGain e).settled

theorem InputComp.cells_advance (handed : Option Int) (ic : InputComp) (c : Fin 4) :
    (ic.advance handed).cells.get c = (ic.taken handed c).ramp := by
  cases handed with
  | none => exact PerColumn.get_map ..
  | some e =>
    refine (PerColumn.get_map ..).trans ?_
    unfold InputComp.newGain InputComp.taken
    dsimp only [Option.elim]
    split
    · rfl
    · rw [PerColumn.get_map]

theorem Cell.newGain_of_no_reference {c : Cell} (h : c.eref = none) (e : Int) : c.newGain e = c := by
  unfold Cell.newGain
  rw [h]
  cases c.on <;> rfl

theorem Cell.settled_mode (c : Cell) : c.settled.on = c.on ∧ c.settled.eref = c.eref := by
  unfold Cell.settled
  split <;> exact ⟨rfl, rfl⟩

/-- A cell less what a ramp and an early step write. -/
theorem Cell.settled_with (c : Cell) (target current : Int) (count : Nat) (limited : Bool) :
    { c.settled with target := target, current := current, count := count, limited := limited } =
      { c with target := target, current := current, count := count, limited := limited, undo := none } := by
  unfold Cell.settled
  cases h : c.undo with
  | none => exact congrArg (fun x => { c with
      target := target, current := current, count := count, limited := limited, undo := x }) h
  | some v => rfl

section
variable {handed : Option Int} {ic : InputComp} {c : Fin 4}

/-- No gain comes, or none that changes the cell (R72, R76). -/
theorem InputComp.taken_of_kept (h : handed = none ∨ handed = some ic.stageGain ∨ (ic.cells.get c).settled.on = false ∨
    (ic.cells.get c).settled.eref = none) : ic.taken handed c = (ic.cells.get c).settled := by
  obtain ⟨hmode, href⟩ := Cell.settled_mode (ic.cells.get c)
  rw [hmode, href] at h
  unfold InputComp.taken
  cases handed with
  | none => rfl
  | some e =>
    dsimp only [Option.elim]
    split
    · rfl
    next he =>
      have hkept : (ic.cells.get c).newGain e = ic.cells.get c := by
        rcases h with h | h | h | h
        · cases h
        · exact absurd (Option.some.inj h).symm he
        · exact Cell.newGain_of_off h e
        · exact Cell.newGain_of_no_reference h e
      rw [hkept]

theorem InputComp.taken_of_handed {e r : Int} (hnew : ic.stageGain ≠ e) (hon : (ic.cells.get c).settled.on = true)
    (href : (ic.cells.get c).settled.eref = some r) :
    let y := (ic.cells.get c).settled
    let goal := clampTo (-36) 36 (2 * (r - e))
    let moved := if y.current = y.target then goal else clampTo (-36) 36 (y.current + (goal - y.target))
    ic.taken (some e) c = { y with
      target := goal, current := moved, count := if moved = goal then 0 else y.count,
      limited := decide (2 * (r - e) < -36 ∨ 36 < 2 * (r - e)) } := by
  obtain ⟨hmode, href'⟩ := Cell.settled_mode (ic.cells.get c)
  rw [hmode] at hon
  rw [href'] at href
  dsimp only
  unfold InputComp.taken
  dsimp only [Option.elim]
  rw [if_neg hnew, Cell.newGain_of_on hon href, Cell.settled_of_none rfl]
  exact (Cell.settled_with ..).symm

end

/-! ### Mixes, outputs and levels -/

section
variable (hu : u.Shaped)
include hu

theorem State.mix_formFrame {m : Nat} (hm : m < 24) : (u.formFrame lanes talk).mix m = (u.mixFrame lanes talk (u.mix m)).1 := by
  rw [State.formFrame_eq]
  exact nth_map_of_lt (x := Mix.reset) _ _ (hu.mixes.symm ▸ hm)

theorem State.output_formFrame {o : Nat} (ho : o < 32) :
    (u.formFrame lanes talk).output o = (u.outputFrame lanes talk (u.output o)).1.tick := by
  have hlen : o < u.outputs.length := hu.outputs.symm ▸ ho
  rw [State.formFrame_eq]
  show nth ((u.outputs.map fun o => (u.outputFrame lanes talk o).1).map Output.tick) o Output.reset = _
  rw [nth_map_of_lt (x := Output.reset) _ _ (by rw [List.length_map]; exact hlen), nth_map_of_lt (x := Output.reset) _ _ hlen]
  rfl

theorem State.Shaped.length_xps {m : Nat} (hm : m < 24) : (u.mix m).xps.length = 66 := by
  refine hu.crosspoints _ ?_
  unfold State.mix nth
  rw [List.getD_eq_getElem _ _ (hu.mixes.symm ▸ hm)]
  exact List.getElem_mem _

/-- Every level takes the ramp of the frame (R91). -/
theorem State.level_formFrame (r : LevelRef) : (u.formFrame lanes talk).level r = (u.level r).settled.ramp := by
  cases r with
  | crosspoint j m =>
    obtain ⟨clip, hmix⟩ := (u.mix m).form_record (u.hasTalker .tb1) (u.hasTalker .tb2) ((u.frameInputs lanes talk).column 0)
      (u.busSample talk .tb1) (u.busSample talk .tb2)
    show ((u.formFrame lanes talk).mix m).xp j = _
    rw [State.mix_formFrame hu m.isLt, State.mixFrame, hmix]
    exact nth_map_of_lt (x := Level.reset) _ _ ((hu.length_xps m.isLt).symm ▸ j.isLt)
  | master m =>
    obtain ⟨clip, hmix⟩ := (u.mix m).form_record (u.hasTalker .tb1) (u.hasTalker .tb2) ((u.frameInputs lanes talk).column 0)
      (u.busSample talk .tb1) (u.busSample talk .tb2)
    show ((u.formFrame lanes talk).mix m).master = _
    rw [State.mix_formFrame hu m.isLt, State.mixFrame, hmix]
    rfl
  | output o =>
    obtain ⟨clip, hout⟩ := (u.output o).form_record u.started (u.sourceSample (u.frameSamples lanes talk) (u.output o).primary)
      (u.sourceSample (u.frameSamples lanes talk) ((u.output o).fallback.getD 0))
    show ((u.formFrame lanes talk).output o).level = _
    rw [State.output_formFrame hu o.isLt, State.outputFrame, hout]
    rfl

end
end
end Sys2Proof.Machine

/-!
What falls due before a frame, as a run of commands (log 2), and a frame before which nothing is due.
-/
namespace Sys2Proof.Machine

/-! ### Runs of commands -/

theorem State.RunsTo.append {as bs : List Instr} {u v : State} : ∀ {s : State},
    State.RunsTo as s u → State.RunsTo bs u v → State.RunsTo (as ++ bs) s v := by
  induction as with
  | nil =>
    intro s h h'
    cases (h : u = s)
    exact h'
  | cons i as ih =>
    intro s h h'
    obtain ⟨w, hw, hrest⟩ := h
    exact ⟨w, hw, ih hrest h'⟩

/-- A command of a powered part leads to its effect. -/
theorem State.RunsTo.one {i : Instr} {s : State} (hi : i.isFullReset = false) (hpower : s.powered = true) :
    State.RunsTo [i] s (i.effect s) := ⟨_, exec_of_powered hi hpower, rfl⟩

/-- Commands for each of a list of things lead where the things, taken in turn, lead. -/
theorem State.RunsTo.foldOver {α : Type} {cs : α → List Instr} {f : α → State → State}
    (hstep : ∀ x s, s.powered = true → State.RunsTo (cs x) s (f x s)) (hpower : ∀ x s, (f x s).powered = s.powered) :
    ∀ (l : List α) {s : State}, s.powered = true → State.RunsTo (l.flatMap cs) s (State.foldOver f l s)
  | [], _, _ => rfl
  | x :: l, s, h => (hstep x s h).append (foldOver hstep hpower l ((hpower x s).trans h))

theorem State.RunsTo.foldOver_one {α : Type} {c : α → Instr} {f : α → State → State} (heffect : ∀ x s, (c x).effect s = f x s)
    (hi : ∀ x, (c x).isFullReset = false) (hpower : ∀ x s, (f x s).powered = s.powered) (l : List α) {s : State}
    (h : s.powered = true) : State.RunsTo (l.map c) s (State.foldOver f l s) := by
  rw [List.map_eq_flatMap]
  exact foldOver (fun x u hu => heffect x u ▸ .one (hi x) hu) hpower l h

/-! ### Holds and crossfades -/

section
variable {f : Fin 32 → State → State} {F : Output → Output}

/-- A run that takes each of its outputs through a function. -/
theorem State.output_foldOver_each (hstep : ∀ o s, (f o s).outputs = modNth s.outputs o F) :
    ∀ {l : List (Fin 32)} {s : State}, s.outputs.length = 32 → l.Nodup →
      (State.foldOver f l s).outputs.length = 32 ∧
      ∀ o : Fin 32, (State.foldOver f l s).output o = if o ∈ l then F (s.output o) else s.output o
  | [], _, hlen, _ => ⟨hlen, fun _ => rfl⟩
  | x :: l, s, hlen, hnodup => by
    obtain ⟨hx, hl⟩ := List.nodup_cons.mp hnodup
    obtain ⟨hlength, hrest⟩ := State.output_foldOver_each hstep (l := l) (s := f x s) (by rw [hstep, length_modNth, hlen]) hl
    refine ⟨hlength, fun o => (hrest o).trans ?_⟩
    have hout : (f x s).output o = nth (modNth s.outputs x F) o Output.reset := congrArg (fun l => nth l o.val Output.reset) (hstep x s)
    by_cases ho : o = x
    · subst ho
      rw [hout, if_neg hx, if_pos List.mem_cons_self, nth_modNth_same _ _ _ _ (hlen.symm ▸ o.isLt)]
      rfl
    · rw [hout, nth_modNth_ne _ _ _ _ _ fun h => ho (Fin.ext h).symm]
      simp [ho]
      rfl

end

/-- The holds and crossfades of all outputs, taken one output after another. -/
theorem State.outputsDue_eq {s : State} (hlen : s.outputs.length = 32) :
    State.foldOver (fun (o : Fin 32) s => (s.modOutput o Output.holdExpiry).modOutput o Output.crossfadeEnd) (List.finRange 32) s =
      s.outputsDue := by
  obtain ⟨outs, houts⟩ := State.foldOver_outputs_only
    (f := fun (o : Fin 32) s => (s.modOutput o Output.holdExpiry).modOutput o Output.crossfadeEnd) (fun o u => ⟨_, rfl⟩)
    (List.finRange 32) s
  obtain ⟨hlength, heach⟩ := State.output_foldOver_each (F := Output.crossfadeEnd ∘ Output.holdExpiry)
    (f := fun (o : Fin 32) s => (s.modOutput o Output.holdExpiry).modOutput o Output.crossfadeEnd)
    (fun o u => modNth_modNth u.outputs o _ _) hlen (List.nodup_finRange 32)
  rw [houts] at hlength heach ⊢
  replace hlength : outs.length = 32 := hlength
  have hmap : outs = s.outputs.map fun o => o.holdExpiry.crossfadeEnd := by
    refine List.ext_getElem (by rw [List.length_map, hlen, hlength]) fun o ho ho' => ?_
    have hat := heach ⟨o, hlength ▸ ho⟩
    rw [if_pos (List.mem_finRange _)] at hat
    unfold State.output nth at hat
    dsimp only at hat
    rw [List.getD_eq_getElem _ _ ho, List.getD_eq_getElem _ _ (by omega)] at hat
    rw [hat, List.getElem_map]
    rfl
  rw [hmap]
  rfl

/-! ### Everything that is due -/

/-- The outputs are 32 when what is due of the outputs is taken. -/
theorem State.Shaped.outputs_channelsDue {s : State} (h : s.Shaped) :
    s.windowsDue.fadesDue.graceDue.channelsDue.outputs.length = 32 := by
  have hwindows : KeepsRecords 32 s s.windowsDue :=
    (KeepsRecords.refl 32 s).foldOver _ (fun p _ hs => (hs.errorWindowComplete p).settleReturned le_rfl) _
  have hfades : KeepsRecords 32 s s.windowsDue.fadesDue :=
    hwindows.foldOver _ (fun d _ hs => ((hs.fadeOutEnd d).fadeInEnd d).settleReturned le_rfl) _
  have hgrace : KeepsRecords 32 s s.windowsDue.fadesDue.graceDue := hfades.foldOver _ (fun d _ hs => hs.graceExpiry d) _
  rw [(State.channelsDue_frame _).2.2.2.2.2.2.2.2.2.1]
  exact (hgrace.shape h).outputs

section
variable {s : State} (hpower : s.powered = true)
include hpower

theorem State.runsTo_windowsDue : State.RunsTo (LinkPort.all.map .errorWindowComplete) s s.windowsDue := by
  unfold State.windowsDue
  exact .foldOver_one (fun _ _ => by rfl) (fun _ => rfl) (fun p u => by simp) _ hpower

theorem State.runsTo_fadesDue : State.RunsTo (Desk.all.flatMap fun d => [.fadeOutEnd d, .fadeInEnd d]) s s.fadesDue := by
  unfold State.fadesDue
  refine .foldOver (fun d u hu => ?_) (fun d u => by simp) _ hpower
  exact ⟨_, exec_of_powered rfl hu, .one (i := .fadeInEnd d) rfl (by simpa [Instr.effect] using hu)⟩

theorem State.runsTo_graceDue : State.RunsTo (Desk.all.map .graceExpiry) s s.graceDue := by
  unfold State.graceDue
  exact .foldOver_one (fun _ _ => by rfl) (fun _ => rfl) (fun d u => by simp) _ hpower

theorem State.runsTo_channelsDue :
    State.RunsTo ((List.finRange 64).flatMap fun i => [.markerTimeout i, .holdEnd i, .retryTimerExpiry i]) s s.channelsDue := by
  unfold State.channelsDue
  refine .foldOver (fun i u hu => ?_) (fun i u => by simp) _ hpower
  exact ⟨_, exec_of_powered rfl hu, _, exec_of_powered rfl (by simpa [Instr.effect] using hu),
    .one (i := .retryTimerExpiry i) rfl (by simpa [Instr.effect] using hu)⟩

theorem State.runsTo_outputsDue (hlen : s.outputs.length = 32) :
    State.RunsTo ((List.finRange 32).flatMap fun o => [.revertHoldExpiry o, .crossfadeEnd o]) s s.outputsDue := by
  rw [← State.outputsDue_eq hlen]
  refine .foldOver (fun o u hu => ?_) (fun o u => by simp) _ hpower
  exact ⟨_, exec_of_powered rfl hu, .one (i := .crossfadeEnd o) rfl (by simpa [Instr.effect] using hu)⟩

theorem State.runsTo_talkDue : State.RunsTo (Bus.all.map .talkTimeout) s s.talkDue := by
  unfold State.talkDue
  exact .foldOver_one (fun _ _ => by rfl) (fun _ => rfl) (fun b u => by simp) _ hpower

theorem State.runsTo_batchesDue :
    State.RunsTo (SlotId.all.map .batchEffect) s (State.foldOver State.batchEffect SlotId.all s) :=
  .foldOver_one (fun _ _ => by rfl) (fun _ => rfl) (fun sl u => by simp) _ hpower

theorem State.runsTo_boundaryDue :
    State.RunsTo ([.meterPeriodEnd] ++ SlotId.all.map .batchEffect ++ [.digestCadence]) s s.boundaryDue := by
  have hend : s.meterPeriodEnd.powered = true := by simpa using hpower
  exact (State.RunsTo.append (.one (i := .meterPeriodEnd) rfl hpower) (State.runsTo_batchesDue (s := s.meterPeriodEnd) hend)).append (.one (i := .digestCadence) rfl (by simpa using hend))

end

/-- What falls due before a frame is what the commands of the overdue events do, one after another (log 2). -/
theorem State.runsTo_takeDue {s : State} (hpower : s.powered = true) (hshape : s.Shaped) : State.RunsTo dueCommands s s.takeDue := by
  have hlast {t : State} (ht : t.powered = true) :
      State.RunsTo [.settingSlot, .pollSlot, .startupComplete] t t.settingSlot.pollSlot.startupComplete :=
    ⟨_, exec_of_powered rfl ht, _, exec_of_powered rfl (by simpa [Instr.effect] using ht),
      .one (i := .startupComplete) rfl (by simpa [Instr.effect] using ht)⟩
  have hfades := (State.runsTo_windowsDue hpower).append (State.runsTo_fadesDue (by simpa using hpower))
  have hgrace := hfades.append (State.runsTo_graceDue (by simpa using hpower))
  have hchannels := hgrace.append (State.runsTo_channelsDue (by simpa using hpower))
  have houtputs := hchannels.append (State.runsTo_outputsDue (by simpa using hpower) hshape.outputs_channelsDue)
  have htalk := houtputs.append (State.runsTo_talkDue (by simpa using hpower))
  have hboundary := htalk.append (State.runsTo_boundaryDue (by simpa using hpower))
  have hall := hboundary.append (hlast (by simpa using hpower))
  unfold dueCommands State.takeDue
  simpa only [List.append_assoc, List.cons_append, List.nil_append] using hall

end Sys2Proof.Machine

/-!
A frame before which nothing is due (log 2), and the slots that take nothing in a frame period (R30, R33).
-/
namespace Sys2Proof.Machine

theorem State.foldOver_of_fixed {α : Type} {f : α → State → State} {s : State} (h : ∀ x, f x s = s) :
    ∀ l : List α, State.foldOver f l s = s
  | [] => rfl
  | x :: l => by rw [State.foldOver, h x, State.foldOver_of_fixed h l]

theorem reached_eq_false {t : Option Nat} {n : Nat} (h : ∀ k, t = some k → k < n) : reached t n = false := by
  unfold reached
  cases t with
  | none => rfl
  | some k => exact decide_eq_false (Nat.not_le.mpr (h k rfl))

theorem Output.holdExpiry_of_running {o : Output} (h : ∀ g, o.hold = some g → g.count < g.limit) : o.holdExpiry = o := by
  unfold Output.holdExpiry
  cases hg : o.hold with
  | none => rfl
  | some g => exact if_neg (Nat.not_le.mpr (h g hg))

theorem Output.crossfadeEnd_of_running {o : Output}
    (hback : o.selection = .toPrimary → o.primaryShare ≠ 240 ∨ o.fallbackShare ≠ 0)
    (hover : o.selection = .toFallback → o.primaryShare ≠ 0 ∨ o.fallbackShare ≠ 240) : o.crossfadeEnd = o := by
  rw [Output.crossfadeEnd_eq, if_neg, if_neg]
  · exact fun h => (hback h.1).elim (· h.2.1) (· h.2.2)
  · exact fun h => (hover h.1).elim (· h.2.1) (· h.2.2)

namespace State.NothingDue
variable {s : State} (h : s.NothingDue)
include h

theorem windowsDue_eq : s.windowsDue = s :=
  State.foldOver_of_fixed (fun p => by
    have hidle : s.errorWindowComplete p = s :=
      if_neg fun hdue => absurd hdue.2 (Nat.not_le.mpr (h.windows p hdue.1))
    rw [hidle, State.settleReturned_of_none h.returned]) _

theorem fadesDue_eq : s.fadesDue = s :=
  State.foldOver_of_fixed (fun d => by
    have hout : s.fadeOutEnd d = s := if_neg fun hdue => absurd (h.fades d (.inl hdue.1)) (Nat.not_lt.mpr hdue.2)
    have hin : s.fadeInEnd d = s := if_neg fun hdue => absurd (h.fades d (.inr hdue.1)) (Nat.not_lt.mpr hdue.2)
    rw [hout, hin, State.settleReturned_of_none h.returned]) _

theorem graceDue_eq : s.graceDue = s :=
  State.foldOver_of_fixed (fun d => by
    unfold State.graceExpiry
    cases hg : (s.slot d).grace with
    | none => rfl
    | some g => exact if_neg fun hdue => absurd (h.grace d g hdue.1 hg) (Nat.not_lt.mpr hdue.2)) _

theorem channelsDue_eq : s.channelsDue = s :=
  State.foldOver_of_fixed (fun i => by
    have hmarker : s.markerTimeout i = s := if_neg fun hdue =>
      absurd hdue.2 (by rw [reached_eq_false fun n => h.markers i n i.isLt hdue.1]; simp)
    have hhold : s.holdEnd i = s := if_neg fun hdue =>
      absurd hdue.2 (by rw [reached_eq_false fun n => h.holds i n i.isLt hdue.1]; simp)
    have hretry : s.retryExpiry i = s := if_neg fun hdue =>
      absurd hdue.2 (by rw [reached_eq_false fun n => h.retries i n i.isLt hdue.1]; simp)
    rw [State.channelDue, hmarker, hhold, hretry]) _

theorem outputsDue_eq (hlen : s.outputs.length = 32) : s.outputsDue = s := by
  have hmap : (s.outputs.map fun o => o.holdExpiry.crossfadeEnd) = s.outputs := by
    refine (List.map_congr_left fun o ho => ?_).trans s.outputs.map_id
    obtain ⟨k, hk, rfl⟩ := List.getElem_of_mem ho
    have hout : s.outputs[k] = s.output k := (List.getD_eq_getElem _ _ hk).symm
    have hcross := h.crossfades k (hlen ▸ hk)
    rw [hout, Output.holdExpiry_of_running fun g => h.reverts k g (hlen ▸ hk), Output.crossfadeEnd_of_running hcross.1 hcross.2]
    rfl
  exact congrArg (fun l => { s with outputs := l }) hmap

theorem talkDue_eq : s.talkDue = s :=
  State.foldOver_of_fixed (fun b => by
    have hkeep : (s.bus b).timeout s.grantLimit = s.bus b := by
      cases htalker : (s.bus b).talker with
      | none =>
        unfold BusRec.timeout
        rw [htalker]
      | some x =>
        refine BusRec.timeout_of_not_expired ?_
        unfold BusRec.expired
        cases hg : (s.bus b).timer with
        | none => rfl
        | some g =>
          rcases h.talks b g (by rw [htalker]; exact nofun) hg with hunlimited | hrunning
          · simp [hunlimited]
          · simp [Nat.not_le.mpr hrunning]
    exact State.modBus_id hkeep) _

theorem boundaryDue_eq : s.boundaryDue = s := by
  have hend : s.meterPeriodEnd = s := if_neg fun hdue => by
    obtain ⟨hopened, hended⟩ := hdue
    rw [(h.boundary hopened).1] at hended
    cases hended
  have hbatch (sl : SlotId) : s.batchEffect sl = s := by
    refine State.batchEffect_of_not_due ?_
    by_cases hopened : s.boundary.opened = true
    · exact .inr (or_iff_not_imp_left.mpr fun hsealed => (h.boundary hopened).2 sl (not_not.mp hsealed))
    · exact .inl (Bool.eq_false_of_not_eq_true hopened)
  have hdigest : s.digestCadence = s := if_neg (by rw [h.digest]; exact Bool.false_ne_true)
  rw [State.boundaryDue, hend, State.foldOver_of_fixed hbatch, hdigest]

theorem startupComplete_eq : s.startupComplete = s := by
  unfold State.startupComplete
  split
  next hdue =>
    rcases h.startup with hstarted | hloading | hpolled
    · exact congrArg (fun b => { s with started := b }) hstarted.symm
    · rw [hdue.1] at hloading
      cases hloading
    · rw [hdue.2] at hpolled
      cases hpolled
  · rfl

/-- A frame before which nothing is due takes nothing (log 2). -/
theorem takeDue_eq (hlen : s.outputs.length = 32) : s.takeDue = s := by
  have hsetting : s.settingSlot = s := if_neg fun hdue => by
    rw [h.cardSlot] at hdue
    cases hdue.1
  have hpoll : s.pollSlot = s := State.pollSlot_of_not_due (.inl h.cardSlot)
  unfold State.takeDue
  rw [h.windowsDue_eq, h.fadesDue_eq, h.graceDue_eq, h.channelsDue_eq, h.outputsDue_eq hlen, h.talkDue_eq, h.boundaryDue_eq, hsetting,
    hpoll, h.startupComplete_eq]

end State.NothingDue

/-! ### The slots at the end of a frame period (R30, R33) -/

/-- A slot that takes nothing in a frame period, by its state and its concealment. -/
theorem Slot.idlePeriod_of_vacant {r : Slot} (h : r.state = .vacant) : r.idlePeriod = { r with samples := Audio.silent } := by
  unfold Slot.idlePeriod
  rw [h]

theorem Slot.idlePeriod_of_held {r : Slot} (h : r.state ≠ .vacant) (hc : r.conceal = .none ∨ r.conceal = .fadingIn) :
    r.idlePeriod = r := by
  unfold Slot.idlePeriod
  cases hs : r.state with
  | vacant => exact absurd hs h
  | active => rcases hc with hc | hc <;> rw [hc]
  | silent => rcases hc with hc | hc <;> rw [hc]

theorem Slot.idlePeriod_of_fadingOut {r : Slot} (h : r.state ≠ .vacant) (hc : r.conceal = .fadingOut) :
    r.idlePeriod = { r with step := r.step + 1, samples := r.fadeOutSamples (r.step + 1) } := by
  unfold Slot.idlePeriod
  cases hs : r.state with
  | vacant => exact absurd hs h
  | active => rw [hc]
  | silent => rw [hc]

theorem Slot.idlePeriod_of_gap {r : Slot} (h : r.state ≠ .vacant) (hc : r.conceal = .silentGap) :
    r.idlePeriod = { r with samples := Audio.silent } := by
  unfold Slot.idlePeriod
  cases hs : r.state with
  | vacant => exact absurd hs h
  | active => rw [hc]
  | silent => rw [hc]

theorem State.slot_closeSlots (s : State) (d : Desk) : s.closeSlots.slot d =
    if (s.settleReturned.slot d).produced then s.settleReturned.slot d else (s.settleReturned.slot d).idlePeriod :=
  PerDesk.get_map ..

end Sys2Proof.Machine

/-!
What a frame sends and what it makes of the cells, the mixes and the outputs of a part of the right shape (R15, R16, R21, R72, R75,
R92, R95, R134, R136).
-/
namespace Sys2Proof.Machine

section
variable {lanes : List Sample} {talk : Sample} {u : State}

/-! ### The desk-bound frames -/

theorem State.sent_formFrame (p : LinkPort) : (u.formFrame lanes talk).sent.get p =
    u.deskFrame (u.frameSamples lanes talk) (u.laneFrames.map fun _ r => r.2) p := by
  rw [State.formFrame_eq]
  exact PerPort.get_map ..

theorem State.deskFrame_of_bound {x : FrameSamples} {laneOf : PerDesk (List Byte)} {p : LinkPort} {d : Desk} (h : u.boundTo p = some d) :
    u.deskFrame x laneOf p =
      { number := u.frameCounter, unit := u.unitNumber, slot := d.number,
        admission := if u.started then .admitted else .unitStarting, ready := (u.lane d).ready, inputs := x.column d.column,
        talk1 := x.tb1, talk2 := x.tb2, lane := laneOf.get d } := by
  unfold State.deskFrame
  rw [h]

theorem State.deskFrame_of_unbound {x : FrameSamples} {laneOf : PerDesk (List Byte)} {p : LinkPort} (h : u.boundTo p = none) :
    u.deskFrame x laneOf p =
      { number := u.frameCounter, unit := u.unitNumber, slot := 0,
        admission := if u.started then .notAdmitted else .unitStarting, ready := false, inputs := List.replicate 64 0,
        talk1 := 0, talk2 := 0, lane := laneBytes laneIdle [] } := by
  unfold State.deskFrame
  rw [h]

theorem State.number_deskFrame {x : FrameSamples} {laneOf : PerDesk (List Byte)} {p : LinkPort} :
    (u.deskFrame x laneOf p).number = u.frameCounter ∧ (u.deskFrame x laneOf p).unit = u.unitNumber := by
  cases h : u.boundTo p with
  | none =>
    rw [State.deskFrame_of_unbound h]
    exact ⟨rfl, rfl⟩
  | some d =>
    rw [State.deskFrame_of_bound h]
    exact ⟨rfl, rfl⟩

theorem State.laneFrames_bytes (d : Desk) : (u.laneFrames.map fun _ r => r.2).get d =
    ((u.lane d).frame (decide ((u.slot d).state = .active))).2 :=
  (PerDesk.get_map ..).trans (congrArg Prod.snd (PerDesk.get_map ..))

/-! ### Records that a frame counts -/

theorem State.lane_formFrame (d : Desk) : (u.formFrame lanes talk).lane d = ((u.lane d).frame (decide ((u.slot d).state = .active))).1 := by
  rw [State.formFrame_eq]
  exact (PerDesk.get_map ..).trans (congrArg Prod.fst (PerDesk.get_map ..))

theorem State.port_formFrame (p : LinkPort) : (u.formFrame lanes talk).port p = (u.port p).tick := by
  rw [State.formFrame_eq]
  exact PerPort.get_map ..

theorem State.slot_formFrame (d : Desk) : (u.formFrame lanes talk).slot d = (u.slot d).tick := by
  rw [State.formFrame_eq]
  exact PerDesk.get_map ..

theorem State.bus_formFrame (b : Bus) : (u.formFrame lanes talk).bus b = (u.bus b).tick := by
  rw [State.formFrame_eq]
  cases b <;> rfl

theorem State.line_formFrame : (u.formFrame lanes talk).line = u.line.tick := by rw [State.formFrame_eq]

theorem State.meter_formFrame : (u.formFrame lanes talk).meter = u.frameMeter lanes talk := by rw [State.formFrame_eq]

/-! ### The cells -/

theorem State.cell_formFrame (hu : u.Shaped) (i : Fin 64) (c : Fin 4) : (u.formFrame lanes talk).cell i c =
    ((u.inputComp i).taken (if (u.channel i).handOver then some (u.channel i).applied.effective else none) c).ramp := by
  show ((u.formFrame lanes talk).inputComp i).cells.get c = _
  rw [State.inputComp_formFrame hu i.isLt, InputComp.cells_advance]

/-- A cell before the ramp of a frame is the settled cell, or follows the gain of a returned card (R72, R76). -/
theorem InputComp.taken_eq (handOver : Bool) (e : Int) (ic : InputComp) (c : Fin 4) :
    let y := (ic.cells.get c).settled
    ic.taken (if handOver then some e else none) c =
      y.eref.elim y fun r =>
        let goal := clampTo (-36) 36 (2 * (r - e))
        let moved := if y.current = y.target then goal else clampTo (-36) 36 (y.current + (goal - y.target))
        if handOver = true ∧ ic.stageGain ≠ e ∧ y.on = true then
          { y with
            target := goal, current := moved, count := if moved = goal then 0 else y.count,
            limited := decide (2 * (r - e) < -36 ∨ 36 < 2 * (r - e)) }
        else y := by
  dsimp only
  cases hr : (ic.cells.get c).settled.eref with
  | none => exact InputComp.taken_of_kept (.inr (.inr (.inr hr)))
  | some r =>
    dsimp only [Option.elim]
    by_cases h : handOver = true ∧ ic.stageGain ≠ e ∧ (ic.cells.get c).settled.on = true
    · obtain ⟨hhanded, hnew, hon⟩ := h
      rw [if_pos hhanded, if_pos ⟨hhanded, hnew, hon⟩]
      exact (InputComp.taken_of_handed hnew hon hr).trans (by rw [hr])
    · rw [if_neg h]
      refine InputComp.taken_of_kept ?_
      cases hhanded : handOver with
      | false => exact .inl rfl
      | true =>
        by_cases hnew : ic.stageGain = e
        · exact .inr (.inl (congrArg some hnew.symm))
        · exact .inr (.inr (.inl (Bool.eq_false_of_not_eq_true fun hon => h ⟨hhanded, hnew, hon⟩)))

/-! ### The mixes and the outputs -/

theorem State.mixRecord_formFrame (hu : u.Shaped) {m : Nat} (hm : m < 24) : ∃ clip, (u.formFrame lanes talk).mix m =
    { u.mix m with
      xps := (u.mix m).xps.map fun l => l.settled.ramp, master := (u.mix m).master.settled.ramp,
      duckTarget := (u.mix m).frameGoal (u.hasTalker .tb1) (u.hasTalker .tb2),
      duck := if (u.mix m).settleDuck.duck < (u.mix m).frameGoal (u.hasTalker .tb1) (u.hasTalker .tb2) then (u.mix m).settleDuck.duck + 1
        else if (u.mix m).frameGoal (u.hasTalker .tb1) (u.hasTalker .tb2) < (u.mix m).settleDuck.duck ∧ 32 ≤ (u.mix m).settleDuck.release + 1
        then (u.mix m).settleDuck.duck - 1 else (u.mix m).settleDuck.duck,
      release := if (u.mix m).frameGoal (u.hasTalker .tb1) (u.hasTalker .tb2) < (u.mix m).settleDuck.duck ∧
        (u.mix m).settleDuck.release + 1 < 32 then (u.mix m).settleDuck.release + 1 else 0,
      duckUndo := none, clip := clip } := by
  rw [State.mix_formFrame hu hm]
  exact Mix.form_record ..

theorem State.outputRecord_formFrame (hu : u.Shaped) {o : Nat} (ho : o < 32) : ∃ clip, (u.formFrame lanes talk).output o =
    ({ u.output o with
      primaryShare := stepNat (u.output o).selection.targets.1 (u.output o).primaryShare,
      fallbackShare := stepNat (u.output o).selection.targets.2 (u.output o).fallbackShare,
      level := (u.output o).level.settled.ramp, gate := (u.output o).frameGate u.started,
      toneContent := (u.output o).frameTone u.started,
      phase := if (u.output o).frameTone u.started then ((u.output o).framePhase u.started + 1) % 48 else (u.output o).phase,
      clip := clip } : Output).tick := by
  rw [State.output_formFrame hu ho]
  obtain ⟨clip, h⟩ := (u.output o).form_record u.started (u.sourceSample (u.frameSamples lanes talk) (u.output o).primary)
    (u.sourceSample (u.frameSamples lanes talk) ((u.output o).fallback.getD 0))
  exact ⟨clip, congrArg Output.tick h⟩

end
end Sys2Proof.Machine

/-!
The counts of a frame period (O41).
-/
namespace Sys2Proof.Machine

/-- The state a frame is formed from is of the right shape. -/
theorem State.Shaped.takeDue_closeSlots {s : State} (h : s.Shaped) : s.takeDue.closeSlots.Shaped :=
  (((KeepsRecords.refl 32 s).takeDue le_rfl).closeSlots le_rfl).shape h

/-- A mix with the moved levels of a frame wants the duck of that frame (R94). -/
theorem Mix.wantedDuck_eq_frameGoal {m n : Mix} {x y : Bool} (hxps : n.xps = m.xps.map fun l => l.settled.ramp)
    (hmaster : n.master = m.master.settled.ramp) (hceiling : n.ceiling = m.ceiling) : n.wantedDuck x y = m.frameGoal x y := by
  unfold Mix.frameGoal
  rw [Mix.settleDuck_eq]
  unfold Mix.wantedDuck Mix.talked Mix.xp
  rw [hxps, hmaster, hceiling]
  rfl

/-- Settles O41: the frame field by field; the commands of what is due; the slots that take nothing. -/
theorem framePeriodCounts : Obligations.FramePeriodCounts := by
  refine ⟨fun lanes talk s hpower hshape => ?_, fun s hpower hshape => ⟨State.runsTo_takeDue hpower hshape, fun h => h.takeDue_eq hshape.outputs⟩,
    fun s => ⟨rfl, fun d => ?_⟩⟩
  · have hu := hshape.takeDue_closeSlots
    have hcounter : s.takeDue.closeSlots.frameCounter = s.frameCounter := by simp
    have hunit : s.takeDue.closeSlots.unitNumber = s.unitNumber := by simp
    refine ⟨_, exec_of_powered rfl hpower, ?_⟩
    unfold Instr.effect State.framePeriod
    dsimp only
    generalize s.takeDue.closeSlots = u at hu hcounter hunit ⊢
    refine ⟨?_, fun p => ?_, State.lane_formFrame, fun p => ?_, fun i hi => ?_, ?_, fun i => ?_, fun i c => ?_, fun r => ?_, fun m => ?_,
      fun o ho => ?_, fun o ho => ?_, fun d => ?_, fun b => ?_, ?_⟩
    · rw [State.formFrame_eq, ← hcounter]
    · rw [State.sent_formFrame, ← hcounter, ← hunit]
      refine ⟨State.number_deskFrame.1, State.number_deskFrame.2, fun hnone => ?_, fun d hd => ?_⟩
      · rw [State.deskFrame_of_unbound hnone]
        exact ⟨rfl, rfl, rfl, rfl, rfl, rfl, rfl⟩
      · rw [State.deskFrame_of_bound hd]
        refine ⟨rfl, rfl, rfl, State.laneFrames_bytes d, fun q hq => ?_⟩
        rw [State.sent_formFrame, State.deskFrame_of_bound hq]
    · rw [State.port_formFrame]
      exact Port.tick_eq _
    · rw [State.channel_formFrame hu hi]
      rfl
    · rw [State.line_formFrame]
      exact CardLine.tick_eq _
    · rw [State.inputComp_formFrame hu i.isLt, InputComp.stageGain_advance]
      cases (u.channel i).handOver <;> rfl
    · rw [State.cell_formFrame hu, Cell.ramp_eq, InputComp.taken_eq]
      dsimp only
      unfold State.cell
      cases hr : ((u.inputComp i).cells.get c).settled.eref with
      | none => rfl
      | some r => rfl
    · rw [State.level_formFrame hu]
      exact Level.ramp_eq _
    · obtain ⟨clip, hm⟩ := State.mixRecord_formFrame (lanes := lanes) (talk := talk) hu m.isLt
      have hgoal : ((u.formFrame lanes talk).mix m).wantedDuck (u.hasTalker .tb1) (u.hasTalker .tb2) =
          (u.mix m).frameGoal (u.hasTalker .tb1) (u.hasTalker .tb2) := by
        rw [hm]
        exact Mix.wantedDuck_eq_frameGoal rfl rfl rfl
      rw [hgoal, hm]
      exact ⟨rfl, rfl, rfl, rfl, rfl⟩
    · obtain ⟨clip, ho⟩ := State.outputRecord_formFrame (lanes := lanes) (talk := talk) hu ho
      rw [ho]
      exact ⟨rfl, rfl, rfl, congrArg (fun f => (u.output o).hold.map f) (funext Timer.tick_eq)⟩
    · obtain ⟨clip, ho⟩ := State.outputRecord_formFrame (lanes := lanes) (talk := talk) hu ho
      rw [ho, ← Output.contentMatches_eq, ← Output.gateTarget_eq]
      exact ⟨rfl, rfl, rfl, rfl, rfl, rfl⟩
    · rw [State.slot_formFrame]
      unfold Slot.tick
      rw [funext Timer.tick_eq]
    · rw [State.bus_formFrame]
      rfl
    · rw [State.formFrame_eq]
      refine ⟨rfl, ?_, rfl, rfl, rfl, rfl, rfl, rfl, rfl, rfl, rfl, rfl⟩
      by_cases hopen : 480 ≤ u.meter.frames + 1
      · rw [if_pos (show meterPeriod ≤ u.meter.frames + 1 from hopen), decide_eq_true hopen]
      · rw [if_neg (show ¬meterPeriod ≤ u.meter.frames + 1 from hopen), decide_eq_false hopen]
        rfl
  · rw [State.slot_closeSlots]
    dsimp only
    generalize s.settleReturned.slot d = r
    by_cases hproduced : r.produced = true
    · rw [if_pos hproduced, if_pos hproduced]
    rw [if_neg hproduced, if_neg hproduced]
    by_cases hvacant : r.state = .vacant
    · rw [if_pos hvacant, Slot.idlePeriod_of_vacant hvacant]
      rfl
    rw [if_neg hvacant]
    cases hc : r.conceal with
    | none => exact Slot.idlePeriod_of_held hvacant (.inl hc)
    | fadingOut => exact (Slot.idlePeriod_of_fadingOut hvacant hc).trans (by rw [hc]; rfl)
    | silentGap => exact (Slot.idlePeriod_of_gap hvacant hc).trans (by rw [hc]; rfl)
    | fadingIn => exact Slot.idlePeriod_of_held hvacant (.inr hc)
end Sys2Proof.Machine

/-!
The samples of a frame (R45, R70, R74, R92, R93, R110, R124, R134, R136, R140, R142).
-/
namespace Sys2Proof.Machine

/-! ### Lists of samples -/

theorem nth_zipWith {α β γ : Type} (f : α → β → γ) {l : List α} {l' : List β} {i : Nat} (hi : i < l.length) (hi' : i < l'.length)
    (x : α) (y : β) (z : γ) : nth (List.zipWith f l l') i z = f (nth l i x) (nth l' i y) := by
  simp [nth, hi, hi']

theorem clips_eq (x : Int) : clips x = decide (x < -8388608 ∨ 8388607 < x) := by
  show decide ((if x > (8388607 : Int) then (8388607 : Int) else if x < (-8388608 : Int) then (-8388608 : Int) else x) ≠ x) = _
  refine decide_eq_decide.mpr ?_
  split_ifs <;> omega

theorem raisePeak_eq (peak : Nat) (x : Sample) : raisePeak peak x = if peak < x.natAbs then x.natAbs else peak := rfl

theorem sumSources_eq : ∀ {n : Nat} {ls : List Level} {xs : List Sample}, ls.length = n → xs.length = n →
    sumSources ls xs = sumInts ((List.range n).map fun j => (nth ls j Level.reset).apply (nth xs j 0))
  | 0, [], [], _, _ => rfl
  | n + 1, l :: ls, x :: xs, hls, hxs => by
    rw [List.range_succ_eq_map, List.map_cons, List.map_map, sumSources, sumInts, sumSources_eq (Nat.succ.inj hls) (Nat.succ.inj hxs)]
    rfl

/-- The sample of a mix before saturation, source by source (R93). -/
theorem Mix.sample_eq {m : Mix} {inputs : List Sample} (hxps : m.xps.length = 66) (hinputs : inputs.length = 64) (x y : Sample) :
    m.sample inputs x y =
      (if m.master.on = true then
        applyLevel m.effectiveMaster (sumInts ((List.range 64).map fun j => (m.xp j).apply (nth inputs j 0))) else 0) +
      ((m.xp 64).apply x + (m.xp 65).apply y) := by
  have hprogram : sumSources (m.xps.take 64) inputs = sumInts ((List.range 64).map fun j => (m.xp j).apply (nth inputs j 0)) := by
    rw [sumSources_eq (n := 64) (by simp [hxps]) hinputs]
    have hplace (j : Nat) (hj : j < 64) : nth (m.xps.take 64) j Level.reset = m.xp j := by
      simp [Mix.xp, nth, hj]
    exact congrArg sumInts (List.map_congr_left fun j hj => by rw [hplace j (List.mem_range.mp hj)])
  have htalk : sumSources (m.xps.drop 64) [x, y] = (m.xp 64).apply x + (m.xp 65).apply y := by
    rw [sumSources_eq (n := 2) (by simp [hxps]) rfl]
    have hplace (j : Nat) : nth (m.xps.drop 64) j Level.reset = m.xp (64 + j) := by
      simp [Mix.xp, nth]
    simp only [hplace]
    simp [List.range_succ, sumInts, nth]
  rw [Mix.sample, hprogram, htalk]

theorem toneSample_mod (n : Nat) : toneSample (n % 48) = toneSample n := by
  unfold toneSample
  rw [Nat.mod_mod]

section
variable {lanes : List Sample} {talk : Sample} {u : State}

/-! ### Buses and sources -/

theorem State.length_raw (hu : u.Shaped) : (u.frameInputs lanes talk).raw.length = 64 := by
  show (mapFrom _ 0 (mapFrom _ 0 u.comp)).length = 64
  rw [length_mapFrom, length_mapFrom, hu.comp]

/-- The gated sample of an input in a frame (R45). -/
def State.frameGated (lanes : List Sample) (t u : State) (i : Nat) : Sample :=
  if (u.card (i / 8)).present = true then (nth lanes i 0 * ((t.channel i).gate : Int)).tdiv 64 else 0

/-- A view of a frame before saturation (R74). -/
theorem State.rawView (hu : u.Shaped) {i : Nat} (hi : i < 64) (c : Fin 4) (x : PerColumn Sample) :
    (nth (u.frameInputs lanes talk).raw i x).get c =
      applyLevel ((u.formFrame lanes talk).cell i c).current (State.frameGated lanes (u.formFrame lanes talk) u i) := by
  have hlen : i < u.channels.length := hu.channels.symm ▸ hi
  have hcomp : i < u.comp.length := hu.comp.symm ▸ hi
  have hraw : nth (u.frameInputs lanes talk).raw i x = ((u.formFrame lanes talk).inputComp i).views
      ((nth (u.channels.map Channel.moveGate) i Channel.reset).gated (u.card (i / 8)).present (nth lanes i 0)) := by
    refine (nth_mapFrom _ 0 i (u.formInputs lanes).1.comp InputComp.reset x (by
      show i < (mapFrom _ 0 u.comp).length
      rw [length_mapFrom]
      exact hcomp)).trans ?_
    rw [Nat.zero_add, State.formFrame_eq]
    rfl
  have hgated : (nth (u.channels.map Channel.moveGate) i Channel.reset).gated (u.card (i / 8)).present (nth lanes i 0) =
      State.frameGated lanes (u.formFrame lanes talk) u i := by
    rw [State.frameGated, State.channel_formFrame hu hi, nth_map_of_lt (x := Channel.reset) _ _ hlen]
    rfl
  rw [hraw, hgated]
  exact PerColumn.get_map ..

theorem State.column_frame (hu : u.Shaped) {i : Nat} (hi : i < 64) (c : Fin 4) : nth ((u.frameInputs lanes talk).column c) i 0 =
    saturate (applyLevel ((u.formFrame lanes talk).cell i c).current (State.frameGated lanes (u.formFrame lanes talk) u i)) := by
  have hlen : i < (u.frameInputs lanes talk).raw.length := (State.length_raw hu).symm ▸ hi
  unfold FrameSamples.column FrameSamples.views
  rw [List.map_map, nth_map_of_lt (x := ⟨0, 0, 0, 0⟩) _ _ hlen, ← State.rawView hu hi c ⟨0, 0, 0, 0⟩]
  exact PerColumn.get_map ..

theorem State.length_column (hu : u.Shaped) (c : Fin 4) : ((u.frameInputs lanes talk).column c).length = 64 := by
  unfold FrameSamples.column FrameSamples.views
  rw [List.length_map, List.length_map, State.length_raw hu]

end
end Sys2Proof.Machine

/-!
The mixes, the outputs and the peaks of a frame (R93, R96, R134, R136, R140, R142).
-/
namespace Sys2Proof.Machine

section
variable {lanes : List Sample} {talk : Sample} {u : State} (hu : u.Shaped)
include hu

/-! ### Mixes -/

omit hu in
theorem Mix.clip_advance (x y : Bool) (m : Mix) : (m.advance x y).clip = m.clip := by
  have hmove (n : Mix) : n.moveDuck.clip = n.clip := by rw [Mix.moveDuck_eq]
  unfold Mix.advance
  rw [hmove]
  show m.settleDuck.clip = m.clip
  rw [Mix.settleDuck_eq]

/-- The sample of a mix before saturation, and the clip indication it leaves (R93, R96). -/
theorem State.mixSample_formFrame {m : Nat} (hm : m < 24) :
    let x := ((u.formFrame lanes talk).mix m).sample ((u.frameInputs lanes talk).column 0) (u.busSample talk .tb1) (u.busSample talk .tb2)
    nth (u.frameSamples lanes talk).mixes m 0 = saturate x ∧
      ((u.formFrame lanes talk).mix m).clip = ((u.mix m).clip || clips x) := by
  have hlen : m < u.mixes.length := hu.mixes.symm ▸ hm
  dsimp only
  rw [State.mix_formFrame hu hm]
  refine ⟨nth_map_of_lt (x := Mix.reset) _ _ hlen, ?_⟩
  show (((u.mix m).advance _ _).clip || _) = _
  rw [Mix.clip_advance]
  rfl

theorem State.xps_formFrame {m : Nat} (hm : m < 24) : ((u.formFrame lanes talk).mix m).xps.length = 66 := by
  obtain ⟨clip, h⟩ := State.mixRecord_formFrame (lanes := lanes) (talk := talk) hu hm
  rw [h]
  exact (List.length_map ..).trans (hu.length_xps hm)

/-! ### Outputs -/

/-- The program of an output after its selection and its level (R136). -/
def State.outputProgram (lanes : List Sample) (talk : Sample) (u : State) (r : Output) : Sample :=
  r.level.apply (r.selected (u.sourceSample (u.frameSamples lanes talk) r.primary) (u.sourceSample (u.frameSamples lanes talk) (r.fallback.getD 0)))

/-- What leaves the override stage of an output in a frame (R134). -/
def State.outputStaged (lanes : List Sample) (talk : Sample) (u : State) (o : Output) : Sample :=
  share (if o.frameTone u.started then toneSample (o.framePhase u.started) else u.outputProgram lanes talk o.moved)
    (o.frameGate u.started) 64

omit hu in
theorem State.outputFrame_record (o : Output) : u.outputFrame lanes talk o =
    ({ o.moved with
        gate := o.frameGate u.started, toneContent := o.frameTone u.started,
        phase := if o.frameTone u.started then (o.framePhase u.started + 1) % 48 else o.phase,
        clip := o.clip || clips (u.outputStaged lanes talk o) }, saturate (u.outputStaged lanes talk o)) := by
  unfold State.outputFrame
  rw [Output.form_eq]
  dsimp only
  rw [Output.overrideStage_eq]
  rfl

omit hu in
/-- What leaves the override stage, from the record that the frame leaves (R134). -/
theorem State.outputStaged_eq (o : Output) :
    let r := (u.outputFrame lanes talk o).1
    u.outputStaged lanes talk o =
      share (if r.toneContent = true then toneSample ((r.phase + 47) % 48) else u.outputProgram lanes talk r) r.gate 64 := by
  have hphase : (((o.framePhase u.started + 1) % 48 + 47) % 48) = o.framePhase u.started % 48 := by omega
  dsimp only
  rw [State.outputFrame_record]
  unfold State.outputStaged
  dsimp only
  cases o.frameTone u.started with
  | true =>
    rw [if_pos rfl, if_pos rfl, if_pos rfl, hphase, toneSample_mod]
  | false => rfl

theorem State.stageOut_formFrame {o : Nat} (ho : o < 32) :
    nth (u.formFrame lanes talk).stageOut o 0 = (u.outputFrame lanes talk (u.output o)).2 := by
  rw [State.formFrame_eq]
  exact nth_map_of_lt (x := Output.reset) _ _ (hu.outputs.symm ▸ ho)

/-- What an output sends in a frame, from the record that the frame leaves (R134, R136, R140). -/
theorem State.outputSample_formFrame {o : Nat} (ho : o < 32) :
    let r := (u.formFrame lanes talk).output o
    let x := share (if r.toneContent = true then toneSample ((r.phase + 47) % 48) else u.outputProgram lanes talk r) r.gate 64
    nth (u.formFrame lanes talk).stageOut o 0 = saturate x ∧ r.clip = ((u.output o).clip || clips x) ∧
      nth (u.formFrame lanes talk).meter.outNone o true = decide (r.selection = .noneAvailable) := by
  have hlen : o < u.outputs.length := hu.outputs.symm ▸ ho
  have hstaged := State.outputStaged_eq (lanes := lanes) (talk := talk) (u := u) (u.output o)
  have hsample : (u.outputFrame lanes talk (u.output o)).2 = saturate (u.outputStaged lanes talk (u.output o)) := by
    rw [State.outputFrame_record]
  have hclip : (u.outputFrame lanes talk (u.output o)).1.clip = ((u.output o).clip || clips (u.outputStaged lanes talk (u.output o))) := by
    rw [State.outputFrame_record]
  rw [hstaged] at hsample hclip
  dsimp only
  rw [State.output_formFrame hu ho, State.stageOut_formFrame hu ho]
  refine ⟨hsample, hclip, ?_⟩
  rw [State.meter_formFrame]
  unfold State.frameMeter
  dsimp only
  rw [nth_map_of_lt (x := Output.reset) _ _ (by rw [List.length_map]; exact hlen), nth_map_of_lt (x := Output.reset) _ _ hlen]
  rfl

/-! ### Peaks -/

theorem State.viewPeaks_formFrame {i : Nat} (hi : i < 64) (c : Fin 4) (x : PerColumn Nat) :
    (nth (u.formFrame lanes talk).meter.viewPeaks i x).get c = raisePeak ((nth u.meter.viewPeaks i x).get c)
      (saturate (applyLevel ((u.formFrame lanes talk).cell i c).current (State.frameGated lanes (u.formFrame lanes talk) u i))) := by
  have hraw : i < (u.frameSamples lanes talk).raw.length := (State.length_raw (lanes := lanes) (talk := talk) hu).symm ▸ hi
  rw [← State.rawView hu hi c ⟨0, 0, 0, 0⟩, State.meter_formFrame]
  unfold State.frameMeter
  dsimp only
  rw [nth_zipWith (x := x) (y := ⟨0, 0, 0, 0⟩) _ (hu.viewPeaks.symm ▸ hi) (by
    show i < ((u.frameSamples lanes talk).raw.map _).length
    rw [List.length_map]
    exact hraw), PerColumn.get_map]
  unfold FrameSamples.views
  rw [nth_map_of_lt (x := ⟨0, 0, 0, 0⟩) _ _ hraw, PerColumn.get_map]
  rfl

theorem State.viewClips_formFrame {i : Nat} (hi : i < 64) (c : Fin 4) (x : PerColumn Bool) :
    (nth (u.formFrame lanes talk).meter.viewClips i x).get c = ((nth u.meter.viewClips i x).get c ||
      clips (applyLevel ((u.formFrame lanes talk).cell i c).current (State.frameGated lanes (u.formFrame lanes talk) u i))) := by
  rw [← State.rawView hu hi c ⟨0, 0, 0, 0⟩, State.meter_formFrame]
  unfold State.frameMeter
  dsimp only
  rw [nth_zipWith (x := x) (y := ⟨0, 0, 0, 0⟩) _ (hu.viewClips.symm ▸ hi) ((State.length_raw (lanes := lanes) (talk := talk) hu).symm ▸ hi), PerColumn.get_map]
  rfl

theorem State.mixPeaks_formFrame {m : Nat} (hm : m < 24) : nth (u.formFrame lanes talk).meter.mixPeaks m 0 =
    raisePeak (nth u.meter.mixPeaks m 0) (nth (u.frameSamples lanes talk).mixes m 0) := by
  rw [State.meter_formFrame]
  exact nth_zipWith _ (hu.mixPeaks.symm ▸ hm) ((List.length_map ..).trans hu.mixes |>.symm ▸ hm) _ _ _

theorem State.outPeaks_formFrame {o : Nat} (ho : o < 32) : nth (u.formFrame lanes talk).meter.outPeaks o 0 =
    raisePeak (nth u.meter.outPeaks o 0) (nth (u.formFrame lanes talk).stageOut o 0) := by
  rw [State.formFrame_eq]
  exact nth_zipWith _ (hu.outPeaks.symm ▸ ho) ((List.length_map ..).trans hu.outputs |>.symm ▸ ho) _ _ _

theorem State.returnPeaks_formFrame {d : Desk} {n : Nat} (hn : n < 16) : nth ((u.formFrame lanes talk).meter.returnPeaks.get d) n 0 =
    raisePeak (nth (u.meter.returnPeaks.get d) n 0) (nth (u.slot d).samples.returns n 0) := by
  rw [State.meter_formFrame]
  unfold State.frameMeter
  dsimp only
  rw [PerDesk.get_map, nth_mapFrom _ _ _ _ 0 _ ((hu.returnPeaks d).symm ▸ hn), Nat.zero_add]

end
end Sys2Proof.Machine

/-!
The audio of a frame period (O42).
-/
namespace Sys2Proof.Machine

theorem sourceOf_input_lt {code n : Nat} (h : sourceOf code = some (.input n)) : n < 64 := by
  unfold sourceOf at h
  split_ifs at h <;> simp at h
  omega

/-- Settles O42: each sample, peak and clip indication of the frame, read from the records the frame leaves. -/
theorem framePeriodAudio : Obligations.FramePeriodAudio := by
  intro lanes stageTalk s hpower hshape _ u
  have hexec : exec (.framePeriod lanes stageTalk) s = .next (u.formFrame lanes stageTalk) := exec_of_powered rfl hpower
  have hu : u.Shaped := hshape.takeDue_closeSlots
  refine ⟨u.formFrame lanes stageTalk, (u.frameSamples lanes stageTalk).mixes, hexec, ?_⟩
  clear_value u
  intro gated view talk level source raised clipped noPeaks noClips
  have hview (i : Nat) (c : Fin 4) (hi : i < 64) : nth ((u.frameSamples lanes stageTalk).column c) i 0 = view i c :=
    State.column_frame hu hi c
  have htalk (b : Bus) : u.busSample stageTalk b = talk b := by
    unfold State.busSample
    show _ = talk b
    simp only [talk]
    cases (u.bus b).talker with
    | none => rfl
    | some sl => cases sl <;> rfl
  have hsource (code : Nat) : u.sourceSample (u.frameSamples lanes stageTalk) code = source code := by
    unfold State.sourceSample
    simp only [source]
    cases h : sourceOf code with
    | none => rfl
    | some src =>
      cases src with
      | none => rfl
      | mix m => rfl
      | input n => exact hview n 0 (sourceOf_input_lt h)
      | ret d n => rfl
      | bus b => cases b <;> exact htalk _
  refine ⟨fun p d i hp hi => ?_, fun i c hi => ⟨State.viewPeaks_formFrame hu hi c _, ?_⟩, fun d n hn => State.returnPeaks_formFrame hu hn,
    fun p d hp => ?_, ?_, fun m hm => ?_, fun o ho => ?_⟩
  · rw [State.sent_formFrame, State.deskFrame_of_bound hp]
    exact hview i d.column hi
  · exact (State.viewClips_formFrame hu hi c _).trans (congrArg _ (clips_eq _))
  · rw [State.sent_formFrame, State.deskFrame_of_bound hp]
    exact ⟨htalk .tb1, htalk .tb2⟩
  · exact (List.length_map ..).trans hu.mixes
  · obtain ⟨hsample, hclip⟩ := State.mixSample_formFrame (lanes := lanes) (talk := stageTalk) hu hm
    have hfull := Mix.sample_eq (State.xps_formFrame (lanes := lanes) (talk := stageTalk) hu hm)
      (State.length_column (lanes := lanes) (talk := stageTalk) hu 0) (u.busSample stageTalk .tb1) (u.busSample stageTalk .tb2)
    have hsum : ((List.range 64).map fun j => (((u.formFrame lanes stageTalk).mix m).xp j).apply
        (nth ((u.frameInputs lanes stageTalk).column 0) j 0)) =
        (List.range 64).map fun j => level (((u.formFrame lanes stageTalk).mix m).xp j) (view j 0) :=
      List.map_congr_left fun j hj => congrArg (level _) (hview j 0 (List.mem_range.mp hj))
    rw [hsum, htalk, htalk] at hfull
    rw [htalk, htalk, hfull] at hsample hclip
    exact ⟨hsample, hclip.trans (congrArg _ (clips_eq _)), State.mixPeaks_formFrame hu hm⟩
  · have hout := State.outputSample_formFrame (lanes := lanes) (talk := stageTalk) hu ho
    unfold State.outputProgram at hout
    dsimp only at hout
    rw [hsource, hsource, clips_eq] at hout
    obtain ⟨hsample, hclip, hnone⟩ := hout
    exact ⟨hsample, hclip, State.outPeaks_formFrame hu ho, hnone⟩

end Sys2Proof.Machine

/-!
The end of a meter period: reports, over sets, peaks (R139, R143, R145, R148, R150).
-/
namespace Sys2Proof.Machine

/-! ### Messages offered to the panel queue (R150, R186) -/

/-- The panel queue after a message of a kind has been offered to it. -/
def offeredQueue (isKind : PanelMsg → Bool) (m : PanelMsg) (ready : Bool) (q : List PanelMsg) : List PanelMsg :=
  (replaceIn isKind m q).getD (if ready then q ++ [m] else q)

theorem State.offerPanel_eq (isKind : PanelMsg → Bool) (m : PanelMsg) (s : State) :
    s.offerPanel isKind m = { s with panelQueue := offeredQueue isKind m s.panelReady s.panelQueue } := by
  unfold State.offerPanel offeredQueue
  cases replaceIn isKind m s.panelQueue with
  | none => cases s.panelReady <;> rfl
  | some q => rfl

theorem replaceIn_of_none {isKind : PanelMsg → Bool} {m : PanelMsg} :
    ∀ {q : List PanelMsg}, (∀ x, x ∈ q → isKind x = false) → replaceIn isKind m q = none
  | [], _ => rfl
  | x :: q, h => by
    obtain ⟨hx, hq⟩ := List.forall_mem_cons.mp h
    rw [replaceIn, hx, replaceIn_of_none hq]
    rfl

theorem replaceIn_of_found {isKind : PanelMsg → Bool} {m x : PanelMsg} {after : List PanelMsg} (hx : isKind x = true) :
    ∀ {before : List PanelMsg}, (∀ y, y ∈ before → isKind y = false) →
      replaceIn isKind m (before ++ x :: after) = some (before ++ m :: after)
  | [], _ => by rw [List.nil_append, replaceIn, if_pos hx]; rfl
  | y :: before, h => by
    obtain ⟨hy, hbefore⟩ := List.forall_mem_cons.mp h
    rw [List.cons_append, replaceIn, hy, replaceIn_of_found hx hbefore]
    rfl

theorem offeredQueue_of_none {isKind : PanelMsg → Bool} {q : List PanelMsg} (h : ∀ x, x ∈ q → isKind x = false) (m : PanelMsg)
    (ready : Bool) : offeredQueue isKind m ready q = if ready then q ++ [m] else q := by
  rw [offeredQueue, replaceIn_of_none h, Option.getD_none]

theorem offeredQueue_of_found {isKind : PanelMsg → Bool} {x : PanelMsg} {before after : List PanelMsg}
    (h : ∀ y, y ∈ before → isKind y = false) (hx : isKind x = true) (m : PanelMsg) (ready : Bool) :
    offeredQueue isKind m ready (before ++ x :: after) = before ++ m :: after := by
  rw [offeredQueue, replaceIn_of_found hx h, Option.getD_some]

/-! ### The reports of a period (R148, R150) -/

theorem State.modLane_of_condition (c : Prop) [Decidable c] (d : Desk) (f : Lane → Lane) (s : State) :
    (if c then s.modLane d f else s) = s.modLane d fun l => if c then f l else l := by
  split
  · rfl
  · have hset : s.lanes.set d (s.lanes.get d) = s.lanes := by cases d <;> rfl
    show s = { s with lanes := s.lanes.set d (s.lanes.get d) }
    rw [hset]

section
variable (s : State) (count : Word)

/-- A lane that is handed its slot's report. -/
def State.reportedLane (d : Desk) (l : Lane) : Lane :=
  if (s.slot d).state = .active then { l with tx := { l.tx with pendingMeter := some (s.meterBody count (.desk d)) } } else l

theorem State.handReports_eq : s.handReports count s =
    { s with
      lanes := s.lanes.map (s.reportedLane count),
      panelQueue := if s.meter.panelOn = true then
          offeredQueue PanelMsg.isMeter (.meter (s.meterBody count .panel)) s.panelReady s.panelQueue
        else s.panelQueue } := by
  have hlanes : State.foldOver (fun d t => if (s.slot d).state = .active then
      t.modLane d fun l => { l with tx := { l.tx with pendingMeter := some (s.meterBody count (.desk d)) } } else t) Desk.all s =
      { s with lanes := s.lanes.map (s.reportedLane count) } := by
    simp only [State.modLane_of_condition]
    rfl
  unfold State.handReports
  dsimp only
  rw [hlanes]
  split
  · exact State.offerPanel_eq ..
  · rfl

/-- The part after the end of a meter period (R143). -/
theorem State.meterPeriodEnd_of_due (hopened : s.boundary.opened = true) (hended : s.boundary.ended = false) : s.meterPeriodEnd =
    { s with
      lanes := s.lanes.map (s.reportedLane (s.meter.periodCount + 1)),
      panelQueue := if s.meter.panelOn = true then
          offeredQueue PanelMsg.isMeter (.meter (s.meterBody (s.meter.periodCount + 1) .panel)) s.panelReady s.panelQueue
        else s.panelQueue,
      overs := markOvers s.clipped s.overs, mixes := s.mixes.map fun m => { m with clip := false },
      outputs := s.outputs.map fun o => { o with clip := false },
      meter := { s.meter with
        viewPeaks := Meter.reset.viewPeaks, mixPeaks := Meter.reset.mixPeaks, outPeaks := Meter.reset.outPeaks,
        returnPeaks := Meter.reset.returnPeaks, viewClips := Meter.reset.viewClips, periodCount := s.meter.periodCount + 1, frames := 0,
        tenth := if s.meter.tenth + 1 < 10 then s.meter.tenth + 1 else 0 },
      boundary := { s.boundary with ended := true, digestDue := decide (10 ≤ s.meter.tenth + 1) } } := by
  unfold State.meterPeriodEnd
  rw [if_pos ⟨hopened, hended⟩]
  dsimp only
  rw [State.handReports_eq]
  rfl

theorem State.meterPeriodEnd_of_not_due (h : s.boundary.opened = false ∨ s.boundary.ended = true) : s.meterPeriodEnd = s :=
  if_neg fun hdue => by
    rcases h with h | h
    · rw [h] at hdue
      cases hdue.1
    · rw [h] at hdue
      cases hdue.2

end

theorem markOvers_get (c : OverSet) (o : PerSlot OverSet) (sl : SlotId) : (markOvers c o).get sl = (o.get sl).join c := by
  cases sl with
  | panel => rfl
  | desk d => exact PerDesk.get_map ..

/-! ### Meter reports, byte by byte (R144, R147) -/

section
variable {s : State} {count : Word} {sl : SlotId}

/-- The codes of a meter report. -/
def State.meterCodes (s : State) (col : Fin 4) : List Nat :=
  s.viewCodes col ++ (s.mixCodes ++ (s.outputCodes ++ (s.returnCodes .d1 ++ (s.returnCodes .d2 ++ s.returnCodes .d3))))

/-- The column of the views that a slot's report carries (R147). -/
def viewColumn : SlotId → Fin 4
  | .panel => 0
  | .desk d => d.column

theorem State.meterBody_eq (s : State) (count : Word) (sl : SlotId) :
    s.meterBody count sl = be16 count.toNat ++ (s.meterCodes (viewColumn sl)).map (BitVec.ofNat 8) := by
  cases sl <;> simp only [State.meterBody, State.meterCodes, viewColumn, List.append_assoc]

theorem State.length_meterCodes (hs : s.Shaped) (col : Fin 4) : (s.meterCodes col).length = 168 := by
  simp [State.meterCodes, State.viewCodes, State.mixCodes, State.outputCodes, State.returnCodes, hs.returnPeaks]

/-- A byte of a meter report is the code at its place. -/
theorem State.nth_meterBody (hs : s.Shaped) {k : Nat} (hk : k < 168) :
    nth (s.meterBody count sl) (2 + k) 0 = BitVec.ofNat 8 (nth (s.meterCodes (viewColumn sl)) k 0) := by
  rw [State.meterBody_eq]
  exact (nth_append_add _ _ 2 k 0 rfl).trans (nth_map_of_lt (x := 0) _ _ ((State.length_meterCodes hs _).symm ▸ hk))

theorem State.nth_viewCodes (col : Fin 4) {i : Nat} (hi : i < 64) : nth (s.meterCodes col) i 0 =
    viewCode (s.channel i).link ((nth s.meter.viewClips i ⟨false, false, false, false⟩).get col)
      ((nth s.meter.viewPeaks i ⟨0, 0, 0, 0⟩).get col) := by
  unfold State.meterCodes State.viewCodes
  rw [nth_append_left _ (by simpa using hi), nth_map_of_lt (x := 0) _ _ (by simpa using hi), nth_range hi]

theorem State.nth_mixCodes (col : Fin 4) {m : Nat} (hm : m < 24) :
    nth (s.meterCodes col) (64 + m) 0 = mixCode (s.mix m).clip (nth s.meter.mixPeaks m 0) := by
  unfold State.meterCodes State.mixCodes
  rw [nth_append_add _ _ 64 m 0 (by simp [State.viewCodes]), nth_append_left _ (by simpa using hm),
    nth_map_of_lt (x := 0) _ _ (by simpa using hm), nth_range hm]

theorem State.nth_outputCodes (col : Fin 4) {o : Nat} (ho : o < 32) :
    nth (s.meterCodes col) (64 + (24 + o)) 0 = outputCode (nth s.meter.outNone o true) (s.output o).clip (nth s.meter.outPeaks o 0) := by
  unfold State.meterCodes State.outputCodes
  rw [nth_append_add _ _ 64 _ 0 (by simp [State.viewCodes]), nth_append_add _ _ 24 _ 0 (by simp [State.mixCodes]),
    nth_append_left _ (by simpa using ho), nth_map_of_lt (x := 0) _ _ (by simpa using ho), nth_range ho]

theorem State.nth_returnCodes (hs : s.Shaped) (col : Fin 4) (d : Desk) {n : Nat} (hn : n < 16) :
    nth (s.meterCodes col) (64 + (24 + (32 + (16 * (d.number - 1) + n)))) 0 =
      returnCode (s.slot d).state (nth (s.meter.returnPeaks.get d) n 0) := by
  have hlen (e : Desk) : (s.returnCodes e).length = 16 := (List.length_map ..).trans (hs.returnPeaks e)
  have hcode (e : Desk) : nth (s.returnCodes e) n 0 = returnCode (s.slot e).state (nth (s.meter.returnPeaks.get e) n 0) :=
    nth_map_of_lt _ _ ((hs.returnPeaks e).symm ▸ hn)
  unfold State.meterCodes
  rw [nth_append_add _ _ 64 _ 0 (by simp [State.viewCodes]), nth_append_add _ _ 24 _ 0 (by simp [State.mixCodes]),
    nth_append_add _ _ 32 _ 0 (by simp [State.outputCodes])]
  cases d with
  | d1 =>
    rw [show 16 * (Desk.d1.number - 1) + n = n from Nat.zero_add n, nth_append_left _ (hlen _ ▸ hn), hcode]
  | d2 =>
    rw [show 16 * (Desk.d2.number - 1) + n = 16 + n from rfl, nth_append_add _ _ 16 _ 0 (hlen _), nth_append_left _ (hlen _ ▸ hn), hcode]
  | d3 =>
    rw [show 16 * (Desk.d3.number - 1) + n = 16 + (16 + n) from Nat.add_assoc 16 16 n, nth_append_add _ _ 16 _ 0 (hlen _),
      nth_append_add _ _ 16 _ 0 (hlen _), hcode]

end
end Sys2Proof.Machine

/-!
The digest cadence (R121, R173, R183, R186).
-/
namespace Sys2Proof.Machine

section
variable {s : State}

/-! ### What a digest is read from -/

theorem BusRec.digest_clearNotice {x y : SlotId} (h : x ≠ y) (cls : SlotId → Nat) (free : Nat → Byte) (b : BusRec) :
    (b.clearNotice y).digest cls free x = b.digest cls free x := by
  have hnotice : (b.clearNotice y).notices.get x = b.notices.get x := by
    show (b.notices.set y false).get x = _
    rw [PerSlot.get_set, if_neg h]
  unfold BusRec.digest
  rw [hnotice]
  rfl

/-- A digest is not read from the panel queue or the boundary, and of the lanes and the buses only what its recipient is shown. -/
theorem State.digestBody_congr {x : SlotId} {L : PerDesk Lane} {B : PerBus BusRec} (q : List PanelMsg) (b : Boundary) (k : Nat)
    (hdropped : ∀ d, x = .desk d → (L.get d).dropped = (s.lane d).dropped)
    (htb1 : ∀ cls free, B.tb1.digest cls free x = s.buses.tb1.digest cls free x)
    (htb2 : ∀ cls free, B.tb2.digest cls free x = s.buses.tb2.digest cls free x) :
    State.digestBody x { s with lanes := L, buses := B, panelQueue := q, boundary := b, free := k } =
      State.digestBody x { s with free := k } := by
  have hflag : State.droppedFlag { s with lanes := L, buses := B, panelQueue := q, boundary := b, free := k } x =
      State.droppedFlag { s with free := k } x := by
    cases x with
    | panel => rfl
    | desk d => exact hdropped d rfl
  unfold State.digestBody
  dsimp only
  rw [hflag, htb1, htb2]
  cases x <;> rfl

/-- The buses after a digest has been built for a slot (R121). -/
def State.busesNoted (y : SlotId) (s : State) : PerBus BusRec :=
  { tb1 := s.buses.tb1.clearNotice y, tb2 := s.buses.tb2.clearNotice y }

/-- A lane whose slot's digest has been built (R173, R183). -/
def State.digestedLane (d : Desk) (s : State) : Lane :=
  { s.lane d with dropped := false, tx := { (s.lane d).tx with pendingDigest := some (State.digestBody (.desk d) s) } }

theorem State.buildDigest_panel : s.buildDigest .panel =
    { s with
      buses := s.busesNoted .panel, free := s.free + 1,
      panelQueue := offeredQueue PanelMsg.isDigest (.digest (s.digestBody .panel)) s.panelReady s.panelQueue } :=
  State.offerPanel_eq ..

theorem State.buildDigest_desk (d : Desk) : s.buildDigest (.desk d) =
    { s with buses := s.busesNoted (.desk d), free := s.free + 1, lanes := s.lanes.set d (s.digestedLane d) } := by
  cases d <;> rfl

/-- Building a slot's digest leaves what another's is read from, but for the free value. -/
theorem State.digestBody_buildDigest {x y : SlotId} (h : x ≠ y) (k : Nat) :
    State.digestBody x { s.buildDigest y with free := k } = State.digestBody x { s with free := k } := by
  have htb1 (cls : SlotId → Nat) (free : Nat → Byte) := BusRec.digest_clearNotice h cls free s.buses.tb1
  have htb2 (cls : SlotId → Nat) (free : Nat → Byte) := BusRec.digest_clearNotice h cls free s.buses.tb2
  cases y with
  | panel =>
    rw [State.buildDigest_panel]
    exact State.digestBody_congr (s := s) (L := s.lanes) (B := s.busesNoted .panel)
      (offeredQueue PanelMsg.isDigest (.digest (s.digestBody .panel)) s.panelReady s.panelQueue) s.boundary k (fun _ _ => rfl) htb1 htb2
  | desk e =>
    have hdropped (d : Desk) (hd : x = .desk d) : ((s.lanes.set e (s.digestedLane e)).get d).dropped = (s.lane d).dropped := by
      rw [PerDesk.get_set, if_neg fun he => h (hd.trans (congrArg SlotId.desk he))]
      rfl
    rw [State.buildDigest_desk]
    exact State.digestBody_congr (s := s) (L := s.lanes.set e (s.digestedLane e)) (B := s.busesNoted (.desk e)) s.panelQueue s.boundary k
      hdropped htb1 htb2

/-! ### The digests of the desk slots -/

/-- A slot's digest, if the slot is ACTIVE (R183). -/
def State.offerDigest (x : SlotId) (s : State) : State := if s.slotState x = .active then s.buildDigest x else s

theorem State.buildDigests_eq : s.buildDigests = State.foldOver (fun d => State.offerDigest (.desk d)) Desk.all (s.buildDigest .panel) := rfl

/-- What the digests of desk slots leave. -/
structure State.Digested (ds : List Desk) (s t : State) : Prop where
  rest : ∃ L B k, t = { s with lanes := L, buses := B, free := k }
  built : ∀ d, d ∈ ds → (s.slot d).state = .active →
    (∃ k, (t.lane d).tx.pendingDigest = some (State.digestBody (.desk d) { s with free := k })) ∧ (t.lane d).dropped = false ∧
      ∀ b, (t.bus b).notices.get (.desk d) = false
  kept : ∀ d, d ∉ ds ∨ (s.slot d).state ≠ .active → t.lane d = s.lane d
  notices : ∀ x, (∀ d, d ∈ ds → x ≠ .desk d) → ∀ b, (t.bus b).notices.get x = (s.bus b).notices.get x

theorem State.notices_busesNoted (x y : SlotId) (b : Bus) :
    ((s.busesNoted x).get b).notices.get y = if y = x then false else (s.bus b).notices.get y := by
  have hget (r : BusRec) : (r.clearNotice x).notices.get y = if y = x then false else r.notices.get y := PerSlot.get_set ..
  cases b <;> exact hget _

theorem State.Digested.cons {d : Desk} {ds : List Desk} {t : State} (hd : d ∉ ds)
    (h : State.Digested ds (s.offerDigest (.desk d)) t) : State.Digested (d :: ds) s t := by
  by_cases hactive : (s.slot d).state = .active
  · have hbuilt : s.offerDigest (.desk d) = s.buildDigest (.desk d) := if_pos hactive
    rw [hbuilt] at h
    obtain ⟨hrest, hdigests, hkept, hnotices⟩ := h
    have hlane (e : Desk) : (s.buildDigest (.desk d)).lane e = if e = d then s.digestedLane d else s.lane e := by
      rw [State.buildDigest_desk]
      exact PerDesk.get_set ..
    have hbus (x : SlotId) (b : Bus) : ((s.buildDigest (.desk d)).bus b).notices.get x =
        if x = .desk d then false else (s.bus b).notices.get x := by
      rw [State.buildDigest_desk]
      exact State.notices_busesNoted (.desk d) x b
    refine ⟨?_, fun e he hactive' => ?_, fun e he => ?_, fun x hx b => ?_⟩
    · obtain ⟨L, B, k, rfl⟩ := hrest
      exact ⟨L, B, k, rfl⟩
    · rcases List.mem_cons.mp he with rfl | he
      · rw [hkept e (.inl hd), hlane, if_pos rfl]
        refine ⟨⟨s.free, rfl⟩, rfl, fun b => ?_⟩
        rw [hnotices (.desk e) (fun f hf hef => hd (SlotId.desk.inj hef ▸ hf)) b, hbus, if_pos rfl]
      · obtain ⟨⟨k, hk⟩, hdropped, hcleared⟩ := hdigests e he hactive'
        have hne : SlotId.desk e ≠ .desk d := fun h => hd (SlotId.desk.inj h ▸ he)
        exact ⟨⟨k, hk.trans (congrArg some (State.digestBody_buildDigest hne k))⟩, hdropped, hcleared⟩
    · have hne : e ≠ d := fun h => he.elim (· (h ▸ List.mem_cons_self)) (· (h ▸ hactive))
      rw [hkept e (he.imp_left fun hmem h => hmem (List.mem_cons_of_mem d h)), hlane, if_neg hne]
    · rw [hnotices x (fun e he => hx e (List.mem_cons_of_mem d he)) b, hbus, if_neg (hx d List.mem_cons_self)]
  · have hkeep : s.offerDigest (.desk d) = s := if_neg hactive
    rw [hkeep] at h
    obtain ⟨hrest, hdigests, hkept, hnotices⟩ := h
    refine ⟨hrest, fun e he hactive' => ?_, fun e he => hkept e ?_, fun x hx => hnotices x fun e he => hx e (List.mem_cons_of_mem d he)⟩
    · rcases List.mem_cons.mp he with rfl | he
      · exact absurd hactive' hactive
      · exact hdigests e he hactive'
    · exact he.imp_left fun hmem h => hmem (List.mem_cons_of_mem d h)

theorem State.digested_foldOver : ∀ {ds : List Desk} {s : State}, ds.Nodup →
    State.Digested ds s (State.foldOver (fun d => State.offerDigest (.desk d)) ds s)
  | [], s, _ => ⟨⟨s.lanes, s.buses, s.free, rfl⟩, nofun, fun _ _ => rfl, fun _ _ _ => rfl⟩
  | d :: ds, s, h => by
    obtain ⟨hd, hds⟩ := List.nodup_cons.mp h
    exact .cons hd (State.digested_foldOver hds)

/-! ### The cadence -/

/-- The part with the cadence that is due taken (R183). -/
def State.cadenceTaken (s : State) : State := { s with boundary := { s.boundary with digestDue := false } }

theorem State.digestBody_cadenceTaken (x : SlotId) (k : Nat) :
    State.digestBody x { s.cadenceTaken with free := k } = State.digestBody x { s with free := k } :=
  State.digestBody_congr (s := s) (L := s.lanes) (B := s.buses) s.panelQueue { s.boundary with digestDue := false } k (fun _ _ => rfl)
    (fun _ _ => rfl) (fun _ _ => rfl)

/-- A cadence that is due: the panel's digest, then the desk slots' (R183). -/
theorem State.digested_digestCadence (hdue : s.boundary.digestDue = true) :
    State.Digested Desk.all (s.cadenceTaken.buildDigest .panel) s.digestCadence := by
  have hcadence : s.digestCadence =
      State.foldOver (fun d => State.offerDigest (.desk d)) Desk.all (s.cadenceTaken.buildDigest .panel) := if_pos hdue
  rw [hcadence]
  exact State.digested_foldOver (by decide)

/-- The panel queue after a cadence that is due (R183, R186). -/
theorem State.panelQueue_cadence : (s.cadenceTaken.buildDigest .panel).panelQueue =
    offeredQueue PanelMsg.isDigest (.digest (s.digestBody .panel)) s.panelReady s.panelQueue := by
  have hbody : s.cadenceTaken.digestBody .panel = s.digestBody .panel := State.digestBody_cadenceTaken .panel s.free
  rw [State.buildDigest_panel, hbody]
  rfl

end
end Sys2Proof.Machine

/-!
The bytes of a digest (R121, R169, R184, R188).
-/
namespace Sys2Proof.Machine

/-! ### Flags in a number -/

theorem testBit_bitsOf : ∀ (l : List Bool) (i : Nat), (bitsOf l).testBit i = nth l i false
  | [], i => by simp [bitsOf, nth]
  | b :: l, 0 => by
    rw [bitsOf, Nat.testBit_zero]
    show decide (((if b = true then 1 else 0) + 2 * bitsOf l) % 2 = 1) = b
    cases b <;> simp
  | b :: l, i + 1 => by
    have hhalf : ((if b = true then 1 else 0) + 2 * bitsOf l) / 2 = bitsOf l := by split <;> omega
    rw [bitsOf, Nat.testBit_succ, hhalf, testBit_bitsOf l i]
    rfl

/-- Flag `i` of a set of flags in bytes. -/
theorem getLsbD_byte_bitsOf (l : List Bool) (i : Nat) :
    (BitVec.ofNat 8 (bitsOf l / 256 ^ (i / 8))).getLsbD (i % 8) = nth l i false := by
  have hpow : 256 ^ (i / 8) = 2 ^ (8 * (i / 8)) := (pow_mul 2 8 (i / 8)).symm
  have hlow : i % 8 < 8 := Nat.mod_lt _ (by decide)
  rw [BitVec.getLsbD_ofNat, hpow, Nat.testBit_div_two_pow, testBit_bitsOf, decide_eq_true hlow, Bool.true_and,
    show i % 8 + 8 * (i / 8) = i from Nat.mod_add_div i 8]

section
variable {s : State}

/-- Byte `7 − j` of a limited map. -/
theorem State.nth_limitedMap (col : Fin 4) {j : Nat} (hj : j < 8) :
    nth (s.limitedMap col) (7 - j) 0 = BitVec.ofNat 8 (bitsOf (s.comp.map fun ic => (ic.cells.get col).limited) / 256 ^ j) := by
  unfold State.limitedMap
  generalize bitsOf (s.comp.map fun ic => (ic.cells.get col).limited) = n
  interval_cases j <;> simp [be32, be16, nth, Nat.div_div_eq_div_mul]

/-- Flag `i` of a limited map (R81). -/
theorem State.getLsbD_limitedMap (hs : s.Shaped) (col : Fin 4) {i : Nat} (hi : i < 64) :
    (nth (s.limitedMap col) (7 - i / 8) 0).getLsbD (i % 8) = (s.cell i col).limited := by
  rw [State.nth_limitedMap col (by omega), getLsbD_byte_bitsOf, nth_map_of_lt (x := InputComp.reset) _ _ (hs.comp.symm ▸ hi)]
  rfl

/-! ### The parts of a digest -/

/-- The first eight bytes of a digest (R188). -/
def State.digestStart (x : SlotId) (s : State) : List Byte :=
  be16 s.meter.periodCount.toNat ++ [BitVec.ofNat 8 x.number, flagByte (s.droppedFlag x)] ++ be16 s.config.status.toNat ++
    [BitVec.ofNat 8 s.cardPresence, flagByte s.allGood]

/-- The bytes of the ports (R188). -/
def State.digestPorts (s : State) : List Byte := s.ports.a.digest ++ (s.ports.b.digest ++ (s.ports.c.digest ++ s.ports.d.digest))

/-- The bytes of the desk slots (R188). -/
def State.digestSlots (s : State) : List Byte :=
  s.slots.d1.digest (Config.unstatedByte s.free 0) ++ (s.slots.d2.digest (Config.unstatedByte s.free 1) ++
    s.slots.d3.digest (Config.unstatedByte s.free 2))

/-- The bytes of a digest before its domains (R188). -/
def State.digestHead (x : SlotId) (s : State) : List Byte :=
  s.digestStart x ++ (s.digestPorts ++ (s.digestSlots ++ (BitVec.ofNat 8 s.panelClass :: s.waitBytes)))

/-- The limited map of a digest's recipient (R81, R188). -/
def State.ownLimited (s : State) (x : SlotId) : List Byte :=
  match x with
  | .panel => List.replicate 8 0#8
  | .desk d => s.limitedMap d.column

/-- The bytes of a digest's batch (R188). -/
def State.digestBatch (x : SlotId) (s : State) : List Byte :=
  BitVec.ofNat 8 (s.batch x).state.code :: (be16 (s.batch x).staged.length ++ be16 (s.batch x).dropped)

/-- The bytes of a bus; `place` is the place of its first free value (R188). -/
def State.digestBus (x : SlotId) (place : Nat) (s : State) (b : Bus) : List Byte :=
  (s.bus b).digest s.talkClassOf (fun j => Config.unstatedByte s.free (place + j)) x

/-- The bytes of a digest behind its domains (R188). -/
def State.digestTail (x : SlotId) (s : State) : List Byte :=
  s.digestBatch x ++ (s.digestBus x 3 .tb1 ++ (s.digestBus x 6 .tb2 ++ ((s.overs.get x).bytes ++ (s.ownLimited x ++ s.limitedMap 0))))

theorem State.digestBody_eq (x : SlotId) : s.digestBody x =
    s.digestHead x ++ ((s.domains.map (Domain.digest x)).flatten ++ s.digestTail x) := by
  unfold State.digestBody State.digestHead State.digestTail State.ownLimited State.digestStart State.digestPorts State.digestSlots
    State.digestBatch State.digestBus
  cases x <;> simp only [List.append_assoc, List.cons_append, List.nil_append] <;> rfl

theorem length_digestHead (x : SlotId) : (s.digestHead x).length = 84 := rfl

theorem length_digestTail (x : SlotId) : (s.digestTail x).length = 56 := by cases x <;> rfl

theorem Domain.length_digest (x : SlotId) (d : Domain) : (d.digest x).length = 4 := by
  unfold Domain.digest
  split <;> rfl

theorem length_digestBody (hs : s.Shaped) (x : SlotId) : (s.digestBody x).length = 204 := by
  rw [State.digestBody_eq, List.length_append, List.length_append, length_digestHead, length_digestTail,
    length_flatten_map (Domain.length_digest x), hs.domains]

theorem nth_digestHead {x : SlotId} {k : Nat} (hk : k < 84) : nth (s.digestBody x) k 0 = nth (s.digestHead x) k 0 := by
  rw [State.digestBody_eq]
  exact nth_append_left _ hk

theorem nth_digestDomain (hs : s.Shaped) {x : SlotId} {n k : Nat} (hn : n < 16) (hk : k < 4) :
    nth (s.digestBody x) (84 + (4 * n + k)) 0 = nth ((s.domain n).digest x) k 0 := by
  have hlen : n < s.domains.length := hs.domains.symm ▸ hn
  rw [State.digestBody_eq, nth_append_add _ _ 84 _ 0 (length_digestHead x), nth_append_left _ (by
    rw [length_flatten_map (Domain.length_digest x), hs.domains]
    omega)]
  exact nth_flatten_map (Domain.length_digest x) Domain.reset 0 hk hlen

theorem nth_digestTail (hs : s.Shaped) {x : SlotId} (k : Nat) : nth (s.digestBody x) (148 + k) 0 = nth (s.digestTail x) k 0 := by
  rw [State.digestBody_eq, show 148 + k = 84 + (64 + k) by omega, nth_append_add _ _ 84 _ 0 (length_digestHead x)]
  refine nth_append_add _ _ 64 k 0 ?_
  rw [length_flatten_map (Domain.length_digest x), hs.domains]

/-! ### Waiting slots (R121) -/

theorem placeOf_of_not_mem {x : SlotId} : ∀ {l : List SlotId}, x ∉ l → placeOf x l = 0
  | [], _ => rfl
  | y :: l, h => by
    obtain ⟨hy, hl⟩ := not_or.mp (mt List.mem_cons.mpr h)
    rw [placeOf, if_neg (Ne.symm hy), placeOf_of_not_mem hl]

theorem placeOf_of_first {x : SlotId} : ∀ {l : List SlotId} {k : Nat}, (∀ j, j < k → l[j]? ≠ some x) → l[k]? = some x →
    placeOf x l = k + 1
  | y :: l, 0, _, h => if_pos (Option.some.inj h)
  | y :: l, k + 1, hbefore, h => by
    have hrest : placeOf x l = k + 1 := placeOf_of_first (fun j hj => hbefore (j + 1) (Nat.succ_lt_succ hj)) h
    rw [placeOf, if_neg fun hy => hbefore 0 (Nat.succ_pos k) (congrArg some hy), hrest]

end
end Sys2Proof.Machine

/-!
The bytes of a digest's ports, slots, buses and limited maps (R81, R121, R188).
-/
namespace Sys2Proof.Machine

section
variable {s : State}

theorem flagByte_eq (b : Bool) : flagByte b = BitVec.ofNat 8 (if b = true then 1 else 0) := by cases b <;> rfl

/-- The five bytes of a port (R188). -/
theorem nth_digestPort (x : SlotId) (p : LinkPort) {k : Nat} (hk : k < 5) :
    nth (s.digestBody x) (8 + 5 * p.code + k) 0 = nth (s.port p).digest k 0 := by
  have hlen (q : Port) : q.digest.length = 5 := rfl
  have hcode : p.code ≤ 3 := by cases p <;> decide
  have hports : nth s.digestPorts (5 * p.code + k) 0 = nth (s.port p).digest k 0 := by
    unfold State.digestPorts
    cases p with
    | a => rw [show 5 * LinkPort.a.code + k = k from Nat.zero_add k, nth_append_left _ (hlen _ ▸ hk)]; rfl
    | b =>
      rw [show 5 * LinkPort.b.code + k = 5 + k from rfl, nth_append_add _ _ 5 _ 0 (hlen _), nth_append_left _ (hlen _ ▸ hk)]
      rfl
    | c =>
      rw [show 5 * LinkPort.c.code + k = 5 + (5 + k) from Nat.add_assoc 5 5 k, nth_append_add _ _ 5 _ 0 (hlen _),
        nth_append_add _ _ 5 _ 0 (hlen _), nth_append_left _ (hlen _ ▸ hk)]
      rfl
    | d =>
      rw [show 5 * LinkPort.d.code + k = 5 + (5 + (5 + k)) from (by omega : 15 + k = 5 + (5 + (5 + k))), nth_append_add _ _ 5 _ 0 (hlen _),
        nth_append_add _ _ 5 _ 0 (hlen _), nth_append_add _ _ 5 _ 0 (hlen _)]
      rfl
  rw [Nat.add_assoc, nth_digestHead (by omega), State.digestHead, nth_append_add _ _ 8 _ 0 rfl, nth_append_left _ (by
    rw [show s.digestPorts.length = 20 from rfl]
    omega), hports]

/-- The 17 bytes of a desk slot (R188). -/
theorem nth_digestSlot (x : SlotId) (d : Desk) : ∃ free, ∀ k, k < 17 →
    nth (s.digestBody x) (11 + 17 * d.number + k) 0 = nth ((s.slot d).digest free) k 0 := by
  have hlen (y : Byte) (r : Slot) : (r.digest y).length = 17 := rfl
  have hslots {m : Nat} (hm : m < 51) : nth (s.digestBody x) (28 + m) 0 = nth s.digestSlots m 0 := by
    rw [nth_digestHead (by omega), State.digestHead, show 28 + m = 8 + (20 + m) by omega, nth_append_add _ _ 8 _ 0 rfl,
      nth_append_add _ _ 20 _ 0 rfl, nth_append_left _ (by
        rw [show s.digestSlots.length = 51 from rfl]
        exact hm)]
  unfold State.digestSlots at hslots
  cases d with
  | d1 =>
    refine ⟨Config.unstatedByte s.free 0, fun k hk => (hslots (by omega)).trans ?_⟩
    rw [nth_append_left _ (hlen _ _ ▸ hk)]
    rfl
  | d2 =>
    refine ⟨Config.unstatedByte s.free 1, fun k hk => ?_⟩
    rw [show 11 + 17 * Desk.d2.number + k = 28 + (17 + k) from (by omega : 45 + k = 28 + (17 + k)), hslots (by omega),
      nth_append_add _ _ 17 _ 0 (hlen _ _), nth_append_left _ (hlen _ _ ▸ hk)]
    rfl
  | d3 =>
    refine ⟨Config.unstatedByte s.free 2, fun k hk => ?_⟩
    rw [show 11 + 17 * Desk.d3.number + k = 28 + (17 + (17 + k)) from (by omega : 62 + k = 28 + (17 + (17 + k))), hslots (by omega),
      nth_append_add _ _ 17 _ 0 (hlen _ _), nth_append_add _ _ 17 _ 0 (hlen _ _)]
    rfl

/-- The place of a bus in a digest (R188). -/
def busPlace : Bus → Nat
  | .tb1 => 153
  | .tb2 => 167

/-- The 14 bytes of a bus (R121, R188). -/
theorem nth_digestBus (hs : s.Shaped) (x : SlotId) (b : Bus) : ∃ free, ∀ k, k < 14 →
    nth (s.digestBody x) (busPlace b + k) 0 = nth ((s.bus b).digest s.talkClassOf free x) k 0 := by
  have hlen (n : Nat) (c : Bus) : (s.digestBus x n c).length = 14 := rfl
  have htail (k : Nat) : nth (s.digestBody x) (148 + (5 + k)) 0 = nth (s.digestBus x 3 .tb1 ++ (s.digestBus x 6 .tb2 ++
      ((s.overs.get x).bytes ++ (s.ownLimited x ++ s.limitedMap 0)))) k 0 := by
    rw [nth_digestTail hs, State.digestTail]
    exact nth_append_add _ _ 5 k 0 rfl
  cases b with
  | tb1 =>
    refine ⟨fun j => Config.unstatedByte s.free (3 + j), fun k hk => ?_⟩
    rw [show busPlace .tb1 + k = 148 + (5 + k) from Nat.add_assoc 148 5 k, htail, nth_append_left _ (hlen _ _ ▸ hk)]
    rfl
  | tb2 =>
    refine ⟨fun j => Config.unstatedByte s.free (6 + j), fun k hk => ?_⟩
    rw [show busPlace .tb2 + k = 148 + (5 + (14 + k)) from (by omega : 167 + k = 148 + (5 + (14 + k))), htail,
      nth_append_add _ _ 14 _ 0 (hlen _ _), nth_append_left _ (hlen _ _ ▸ hk)]
    rfl

/-- The class of a waiting slot (R188). -/
theorem BusRec.nth_digest_class {x y : SlotId} {cls : SlotId → Nat} {free : Nat → Byte} {b : BusRec} {k : Nat} (hk : k < 3)
    (h : b.waiting[k]? = some y) : nth (b.digest cls free x) (4 + k) 0 = BitVec.ofNat 8 (cls y) := by
  unfold BusRec.digest
  interval_cases k <;> simp only [h] <;> rfl

/-- The batch of a digest (R188). -/
theorem nth_digestBatch (hs : s.Shaped) (x : SlotId) {k : Nat} (hk : k < 5) :
    nth (s.digestBody x) (148 + k) 0 = nth (s.digestBatch x) k 0 :=
  (nth_digestTail hs k).trans (nth_append_left _ hk)

/-- The over set and the limited maps (R81, R145, R188). -/
theorem nth_digestEnd (hs : s.Shaped) (x : SlotId) (k : Nat) : nth (s.digestBody x) (181 + k) 0 =
    nth ((s.overs.get x).bytes ++ (s.ownLimited x ++ s.limitedMap 0)) k 0 := by
  rw [show 181 + k = 148 + (5 + (14 + (14 + k))) by omega, nth_digestTail hs, State.digestTail, nth_append_add _ _ 5 _ 0 rfl,
    nth_append_add _ _ 14 _ 0 rfl, nth_append_add _ _ 14 _ 0 rfl]

theorem nth_digestOvers (hs : s.Shaped) (x : SlotId) {k : Nat} (hk : k < 7) :
    nth (s.digestBody x) (181 + k) 0 = nth (s.overs.get x).bytes k 0 :=
  (nth_digestEnd hs x k).trans (nth_append_left _ hk)

theorem nth_digestLimited (hs : s.Shaped) (x : SlotId) {k : Nat} (hk : k < 8) :
    nth (s.digestBody x) (188 + k) 0 = nth (s.ownLimited x) k 0 ∧ nth (s.digestBody x) (196 + k) 0 = nth (s.limitedMap 0) k 0 := by
  have hlen : (s.ownLimited x).length = 8 := by cases x <;> rfl
  rw [show 188 + k = 181 + (7 + k) by omega, show 196 + k = 181 + (7 + (8 + k)) by omega, nth_digestEnd hs, nth_digestEnd hs,
    nth_append_add _ _ 7 _ 0 rfl, nth_append_add _ _ 7 _ 0 rfl, nth_append_add _ _ 8 _ 0 hlen]
  exact ⟨nth_append_left _ (hlen.symm ▸ hk), rfl⟩

theorem nth_ownLimited_panel (k : Nat) : nth (s.ownLimited .panel) k 0 = 0#8 := by
  unfold State.ownLimited nth
  rcases lt_or_ge k 8 with hk | hk
  · exact List.getD_replicate _ hk
  · exact List.getD_eq_default _ _ hk

end
end Sys2Proof.Machine

/-!
The meter boundary (O43).
-/
namespace Sys2Proof.Machine

/-- Settles O43: the end of a meter period and its reports, then the digest cadence and its digests, byte by byte through the parts
of a report and of a digest. -/
theorem meterBoundaryEvents : Obligations.MeterBoundaryEvents := by
  refine ⟨fun s hpower => ?_, fun s count sl hs => ?_, fun s hpower => ?_, fun s sl hs => ?_⟩
  -- The end of a meter period (R143).
  · refine ⟨fun h => (exec_of_powered rfl hpower).trans (congrArg _ (State.meterPeriodEnd_of_not_due s h)), fun hopened hended => ?_⟩
    refine ⟨_, (exec_of_powered rfl hpower).trans (congrArg _ (State.meterPeriodEnd_of_due s hopened hended)), rfl, rfl, rfl,
      decide_eq_decide.mpr ⟨Nat.le_of_succ_le_succ, Nat.succ_le_succ⟩,
      if_congr ⟨Nat.lt_of_succ_lt_succ, Nat.succ_lt_succ⟩ rfl rfl, fun d hd => ?_, fun d hd => ?_, fun hoff => ?_,
      fun hon hnone hready => ?_, fun hon hnone hfull => ?_, fun before after m hon hqueue hbefore hm => ?_, markOvers_get _ _, fun m hm => ?_,
      fun o ho => ?_, rfl, rfl, rfl, rfl, fun d => ?_, rfl, rfl, rfl, rfl, rfl, rfl, rfl, rfl⟩
    · refine (congrArg (fun l : Lane => l.tx.pendingMeter) (PerDesk.get_map ..)).trans ?_
      rw [State.reportedLane, if_pos hd]
    · refine (PerDesk.get_map ..).trans ?_
      rw [State.reportedLane, if_neg hd]
      rfl
    · exact if_neg (by rw [hoff]; exact Bool.false_ne_true)
    · refine (if_pos hon).trans ?_
      rw [offeredQueue_of_none hnone, hready, if_pos rfl]
    · refine (if_pos hon).trans ?_
      rw [offeredQueue_of_none hnone, hfull, if_neg Bool.false_ne_true]
    · refine (if_pos hon).trans ?_
      rw [hqueue, offeredQueue_of_found hbefore hm]
    · obtain ⟨n, -, rfl⟩ := List.mem_map.mp hm
      rfl
    · obtain ⟨n, -, rfl⟩ := List.mem_map.mp ho
      rfl
    · cases d <;> rfl
  -- The bytes of a report (R147).
  · intro body code column noPeaks noClips
    have hcolumn : viewColumn sl = column := by cases sl <;> rfl
    have hcode (k : Nat) (hk : k < 168) : nth body (2 + k) 0 = BitVec.ofNat 8 (nth (s.meterCodes column) k 0) := by
      rw [← hcolumn]
      exact State.nth_meterBody hs hk
    refine ⟨?_, rfl, rfl, fun i hi => ?_, fun m hm => ?_, fun o ho => ?_, fun d n hn => ?_⟩
    · show (s.meterBody count sl).length = 170
      rw [State.meterBody_eq, List.length_append, List.length_map, State.length_meterCodes hs]
      rfl
    · exact (hcode i (by omega)).trans (congrArg (BitVec.ofNat 8) (State.nth_viewCodes column hi))
    · have h := hcode (64 + m) (by omega)
      rw [State.nth_mixCodes column hm, show 2 + (64 + m) = 66 + m by omega] at h
      exact h
    · have h := hcode (64 + (24 + o)) (by omega)
      rw [State.nth_outputCodes column ho, show 2 + (64 + (24 + o)) = 90 + o by omega] at h
      exact h
    · have hnumber : 1 ≤ d.number ∧ d.number ≤ 3 := by cases d <;> decide
      have h := hcode (64 + (24 + (32 + (16 * (d.number - 1) + n)))) (by omega)
      rw [State.nth_returnCodes hs column d hn,
        show 2 + (64 + (24 + (32 + (16 * (d.number - 1) + n)))) = 106 + 16 * d.number + n by omega] at h
      exact h
  -- The digest cadence (R183).
  · refine ⟨fun h => ?_, fun hdue => ?_⟩
    · exact (exec_of_powered rfl hpower).trans (congrArg _ (if_neg (by rw [h]; exact Bool.false_ne_true)))
    obtain ⟨hrest, hbuilt, hkept, hnotices⟩ := State.digested_digestCadence hdue
    obtain ⟨L, B, k, hform⟩ := hrest
    have hall (d : Desk) : d ∈ Desk.all := by cases d <;> decide
    have hslot (d : Desk) : (s.cadenceTaken.buildDigest .panel).slot d = s.slot d := by
      rw [State.buildDigest_panel]
      rfl
    have hqueue : s.digestCadence.panelQueue =
        offeredQueue PanelMsg.isDigest (.digest (s.digestBody .panel)) s.panelReady s.panelQueue :=
      (congrArg State.panelQueue hform).trans State.panelQueue_cadence
    refine ⟨s.digestCadence, exec_of_powered rfl hpower, ?_, fun d hd => ?_, fun b => ?_, ⟨fun hnone => ?_, fun before after m hs hbefore hm => ?_⟩,
      fun d hd => ?_, ?_⟩
    · rw [hform, State.buildDigest_panel]
      rfl
    · obtain ⟨⟨k, hk⟩, hdropped, hcleared⟩ := hbuilt d (hall d) ((congrArg Slot.state (hslot d)).trans hd)
      refine ⟨⟨k, hk.trans (congrArg some ?_)⟩, hdropped, hcleared⟩
      exact (State.digestBody_buildDigest (y := .panel) (fun h => SlotId.noConfusion h) k).trans (State.digestBody_cadenceTaken _ k)
    · rw [hnotices .panel nofun b, State.buildDigest_panel]
      exact State.notices_busesNoted .panel .panel b
    · rw [hqueue, offeredQueue_of_none hnone]
    · rw [hqueue, hs, offeredQueue_of_found hbefore hm]
    · rw [hkept d (.inr ((hslot d).symm ▸ hd)), State.buildDigest_panel]
      rfl
    · rw [hform, State.buildDigest_panel]
      exact ⟨rfl, rfl, rfl, rfl, rfl, rfl, rfl, rfl, rfl⟩
  -- The bytes of a digest (R188).
  · intro body byte pair four flag port slot
    have hport (p : Option LinkPort) : portByte p = BitVec.ofNat 8 (port p) := by cases p <;> rfl
    have hslot (x : Option SlotId) : slotByte x = BitVec.ofNat 8 (slot x) := by cases x <;> rfl
    have hstart (k : Nat) (hk : k < 8) : nth body k 0 = nth (s.digestStart sl) k 0 :=
      (nth_digestHead (by omega)).trans (nth_append_left _ hk)
    have hlast (k : Nat) (hk : k < 5) : nth body (79 + k) 0 = nth (BitVec.ofNat 8 s.panelClass :: s.waitBytes) k 0 := by
      refine (nth_digestHead (by omega)).trans ?_
      rw [State.digestHead, show 79 + k = 8 + (20 + (51 + k)) by omega, nth_append_add _ _ 8 _ 0 rfl, nth_append_add _ _ 20 _ 0 rfl,
        nth_append_add _ _ 51 _ 0 rfl]
    have hovers (k : Nat) (hk : k < 7) : nth body (181 + k) 0 = nth (s.overs.get sl).bytes k 0 := nth_digestOvers hs sl hk
    refine ⟨length_digestBody hs sl, ⟨hstart 0 (by decide), hstart 1 (by decide)⟩, hstart 2 (by decide), ?_,
      ⟨hstart 4 (by decide), hstart 5 (by decide)⟩, fun c hc => ?_, (hstart 7 (by decide)).trans (flagByte_eq _), fun p => ?_, fun d => ?_,
      hlast 0 (by decide), fun k hk => ?_, fun n hn => ?_, ?_, ?_, ?_, fun b => ?_, hovers 0 (by decide),
      ⟨hovers 1 (by decide), hovers 2 (by decide)⟩,
      ⟨⟨hovers 3 (by decide), hovers 4 (by decide)⟩, ⟨hovers 5 (by decide), hovers 6 (by decide)⟩⟩,
      fun i hi => ⟨fun d hd => ?_, fun hsl => ?_, ?_⟩⟩
    · refine (hstart 3 (by decide)).trans ((flagByte_eq _).trans ?_)
      cases sl <;> rfl
    · rw [hstart 6 (by decide)]
      show (BitVec.ofNat 8 s.cardPresence).getLsbD c = _
      rw [BitVec.getLsbD_ofNat, State.cardPresence, testBit_bitsOf, decide_eq_true hc, Bool.true_and]
      exact nth_map_of_lt (x := Card.reset) _ _ (hs.cards.symm ▸ hc)
    · have h (k : Nat) (hk : k < 5) : nth body (8 + 5 * p.code + k) 0 = nth (s.port p).digest k 0 := nth_digestPort sl p hk
      refine ⟨(h 0 (by decide)).trans ?_, h 1 (by decide), (h 2 (by decide)).trans (flagByte_eq _), h 3 (by decide), h 4 (by decide)⟩
      show BitVec.ofNat 8 (s.port p).state.code = _
      cases (s.port p).state <;> rfl
    · obtain ⟨free, h⟩ := nth_digestSlot (s := s) sl d
      refine ⟨(h 0 (by decide)).trans ?_, ⟨h 1 (by decide), h 2 (by decide)⟩,
        ⟨⟨h 3 (by decide), h 4 (by decide)⟩, ⟨h 5 (by decide), h 6 (by decide)⟩⟩, fun role hrole => (h 7 (by decide)).trans ?_,
        (h 8 (by decide)).trans (hport _), (h 9 (by decide)).trans (hport _), (h 10 (by decide)).trans (hport _),
        (h 11 (by decide)).trans ?_, ⟨h 12 (by decide), h 13 (by decide)⟩, h 14 (by decide),
        ⟨(h 15 (by decide)).trans ?_, (h 16 (by decide)).trans ?_⟩⟩
      · show BitVec.ofNat 8 (s.slot d).state.code = _
        cases (s.slot d).state <;> rfl
      · have hbyte : nth ((s.slot d).digest free) 7 0 = BitVec.ofNat 8 role.code := by
          unfold Slot.digest
          rw [hrole] <;> rfl
        rw [hbyte]
        cases role <;> rfl
      · show BitVec.ofNat 8 (s.slot d).conceal.code = _
        cases (s.slot d).conceal <;> rfl
      · show BitVec.ofNat 8 ((s.slot d).graceLeft / 256) = _
        unfold Slot.graceLeft
        cases (s.slot d).grace <;> rfl
      · show BitVec.ofNat 8 (s.slot d).graceLeft = _
        unfold Slot.graceLeft
        cases (s.slot d).grace <;> rfl
    · interval_cases k
      · exact (hlast 1 (by decide)).trans (hport _)
      · exact (hlast 2 (by decide)).trans (hport _)
      · exact (hlast 3 (by decide)).trans (hport _)
      · exact (hlast 4 (by decide)).trans (hport _)
    · have h (k : Nat) (hk : k < 4) : nth body (84 + k + 4 * n) 0 = nth ((s.domain n).digest sl) k 0 := by
        rw [show 84 + k + 4 * n = 84 + (4 * n + k) by omega]
        exact nth_digestDomain hs hn hk
      unfold Domain.digest at h
      by_cases howner : (s.domain n).owner = some sl
      · rw [if_pos howner] at h
        exact ⟨(h 0 (by decide)).trans (hslot _), fun _ => ⟨(h 1 (by decide)).trans (flagByte_eq _), (h 2 (by decide)).trans (hslot _),
          h 3 (by decide)⟩, fun hne => absurd howner hne⟩
      · rw [if_neg howner] at h
        exact ⟨(h 0 (by decide)).trans (hslot _), fun heq => absurd heq howner, fun _ => ⟨h 1 (by decide), h 2 (by decide), h 3 (by decide)⟩⟩
    · refine (nth_digestBatch hs sl (k := 0) (by decide)).trans ?_
      show BitVec.ofNat 8 (s.batch sl).state.code = _
      cases (s.batch sl).state <;> rfl
    · exact ⟨nth_digestBatch hs sl (k := 1) (by decide), nth_digestBatch hs sl (k := 2) (by decide)⟩
    · exact ⟨nth_digestBatch hs sl (k := 3) (by decide), nth_digestBatch hs sl (k := 4) (by decide)⟩
    · obtain ⟨free, h⟩ := nth_digestBus hs sl b
      intro at' r
      have hat : at' = busPlace b := by cases b <;> rfl
      clear_value at'
      subst hat
      refine ⟨(h 0 (by decide)).trans (hslot _), fun k hk => ⟨?_, fun x hx => ?_⟩, ⟨⟨(h 7 (by decide)).trans ?_, (h 8 (by decide)).trans ?_⟩,
        ⟨(h 9 (by decide)).trans ?_, (h 10 (by decide)).trans ?_⟩⟩, h 11 (by decide),
        fun k hbefore hk => (h 12 (by decide)).trans (congrArg (BitVec.ofNat 8) (placeOf_of_first hbefore hk)),
        fun hnot => (h 12 (by decide)).trans (congrArg (BitVec.ofNat 8) (placeOf_of_not_mem hnot)), (h 13 (by decide)).trans (flagByte_eq _)⟩
      · interval_cases k
        · exact (h 1 (by decide)).trans (hslot _)
        · exact (h 2 (by decide)).trans (hslot _)
        · exact (h 3 (by decide)).trans (hslot _)
      · have hclass := (h (4 + k) (by omega)).trans (BusRec.nth_digest_class hk hx)
        rw [← Nat.add_assoc] at hclass
        exact hclass
      · show BitVec.ofNat 8 ((s.bus b).msLeft / 65536 / 256) = _
        unfold BusRec.msLeft
        cases (s.bus b).timer <;> rfl
      · show BitVec.ofNat 8 ((s.bus b).msLeft / 65536) = _
        unfold BusRec.msLeft
        cases (s.bus b).timer <;> rfl
      · show BitVec.ofNat 8 ((s.bus b).msLeft / 256) = _
        unfold BusRec.msLeft
        cases (s.bus b).timer <;> rfl
      · show BitVec.ofNat 8 (s.bus b).msLeft = _
        unfold BusRec.msLeft
        cases (s.bus b).timer <;> rfl
    · subst hd
      rw [show 195 - i / 8 = 188 + (7 - i / 8) by omega, (nth_digestLimited hs _ (by omega)).1]
      exact State.getLsbD_limitedMap hs d.column hi
    · subst hsl
      rw [show 195 - i / 8 = 188 + (7 - i / 8) by omega]
      exact (nth_digestLimited hs _ (by omega)).1.trans (nth_ownLimited_panel _)
    · rw [show 203 - i / 8 = 196 + (7 - i / 8) by omega]
      exact (congrArg (BitVec.getLsbD · (i % 8)) (nth_digestLimited hs sl (by omega)).2).trans (State.getLsbD_limitedMap hs 0 hi)

end Sys2Proof.Machine
